-- ==== Sys2Proof/Word.lean ====
section
/-! DEFINITION. The words of the block: bytes, 64-bit register words, bytes to numbers and back. -/

namespace Sys2Proof

/-- A byte of memory or of a message. -/
abbrev Byte := BitVec 8

/-- A register word (R7: every register is 64 bits wide) or a scalar register (R180). -/
abbrev Word := BitVec 64

/-- A little-endian byte string read as a number (every multi-byte field of the manual is little-endian). -/
def leNat : List Byte → Nat
  | [] => 0
  | b :: bs => b.toNat + 256 * leNat bs

/-- The low n bytes of a number, little-endian. -/
def leBytes : Nat → Nat → List Byte
  | 0, _ => []
  | n + 1, v => BitVec.ofNat 8 v :: leBytes n (v / 256)

/-- n zero bytes. -/
def zeros (n : Nat) : List Byte := List.replicate n 0

/-- The signed value of the low w bits of v. -/
def signed (w v : Nat) : Int :=
  if v % 2 ^ w < 2 ^ (w - 1) then (v % 2 ^ w : Nat) else (v % 2 ^ w : Nat) - (2 ^ w : Nat)

/-- The low w bits of an integer (two's complement). -/
def wrap (w : Nat) (i : Int) : Nat := (i % (2 ^ w : Nat)).toNat

/-- Bit k of a number. -/
def bitOf (v k : Nat) : Bool := v / 2 ^ k % 2 == 1

/-- Division rounding up. -/
def ceilDiv (a b : Nat) : Nat := (a + b - 1) / b

/-- 1 for true. -/
def b2n : Bool → Nat
  | true => 1
  | false => 0

end Sys2Proof
end

