-- ==== Sys2Proof/Syntax.lean ====
section
/-! DEFINITION. The commands of the block: one constructor of Instr per row of the opcode table, with the row's operands, and the
types of those operands. -/

namespace Sys2Proof

/-- A tag that names who issued an access (R122, R296): a job number, or 0xFFFF for firmware. -/
abbrev Tag := BitVec 16

/-- One of the four Zifanar ports: 0 north, 1 east, 2 south, 3 west (R338). -/
abbrev PortId := Fin 4

/-- A carousel direction: 0 clockwise, 1 counterclockwise (R52). -/
abbrev Dir := Fin 2

/-- One of the 144 cores (R11). -/
abbrev CoreId := Fin 144

/-- One of the twelve HBM stacks (R14). -/
abbrev StackId := Fin 12

/-- One of the twelve clusters (R11). -/
abbrev ClusterId := Fin 12

/-- A candidate of the master election (R26). -/
structure Candidate where
  prio : Nat
  serial : Nat
  x : Nat
  y : Nat
deriving DecidableEq, Repr

/-- A tick marker (R29; type 1 of Table 3 of the link chapter). `delay` is in units of 1/16 ns. -/
structure Marker where
  domain : Nat
  tick : Nat
  slip : Bool
  change : Bool
  start : Bool
  stop : Bool
  period : Nat
  delay : Nat
deriving DecidableEq, Repr

/-- A short message of a frame (R344). -/
inductive ShortMsg where
  | ripcord (domain cause x y serial : Nat)
  | marker (m : Marker)
  | missNotice (domain tick sources : Nat)
  | faultReport (domain x y cause : Nat)
  | election (domain : Nat) (c : Candidate)
  | probe (time : Nat)
  | probeReply (time turnaround : Nat)
deriving DecidableEq, Repr

/-- An access that another device asks for (R298, R299): a load of n bytes, a store, or an atomic (R219). -/
inductive Access where
  | load (n : Nat)
  | store (bytes : List Byte)
  | atomic (aop : Fin 7) (wide fp : Bool) (v c : Word)
deriving DecidableEq, Repr

/-- What makes the array stand still for a cycle: an empty feeder, a drain that is backed up (R146), or bus hold or the throttle (R423, R424). -/
inductive FreezeCause where
  | feeder
  | drain
  | power
deriving DecidableEq, Repr

/-- What an IEEE 1588 message over IPv4 or IPv6 says (R36): a one-step or two-step Sync and its Follow_Up with the time t1 it left its master, a
Delay_Resp with the time t4 the master took the Delay_Req, each in ns with its correction; or another message. -/
inductive PtpMsg where
  | sync (v6 twoStep : Bool) (t1 : Nat) (corr : Int)
  | followUp (t1 : Nat) (corr : Int)
  | delayResp (t4 : Nat) (corr : Int)
  | other
deriving DecidableEq, Repr

/-- What a firmware message says (R39, R396, R405, R406; log 171): a pause request; the resume point of a job, and the tick a station stopped at in
answer; the tick number of a restart, and the report of a station that is armed. -/
inductive FwMsg where
  | pause (job : Nat)
  | resume (job point : Nat)
  | reached (x y tick : Nat)
  | start (tick : Nat)
  | armed (x y : Nat)
  | other (bytes : List Byte)
deriving DecidableEq, Repr

/-- The header of a mailbox request (R400): version, request identifier, token; and whether 64 requests are in progress as it arrives. -/
structure MboxHdr where
  ver : BitVec 16
  req : BitVec 32
  token : BitVec 128
  full : Bool
deriving DecidableEq, Repr

/-- The payload of JOB_CREATE (Table 4 of the firmware chapter). -/
structure JobSpec where
  tag : BitVec 16
  x0 : BitVec 7
  x1 : BitVec 7
  y0 : BitVec 6
  y1 : BitVec 6
  first : BitVec 9
  last : BitVec 9
  ctxs : List (BitVec 11)
  policy : BitVec 8
  resume : Word
deriving DecidableEq, Repr

/-- A frame at the Ethernet port as far as R358 and R360 look at it: length, VLAN, priority, whether it uses only supported options, the queue
pair of a RoCEv2 packet marked CE, and the bytes taken from its priority's buffer since the last frame. -/
structure EthFrame where
  len : Nat
  vid : Option (BitVec 12)
  prio : Fin 8
  supported : Bool
  ce : Option (BitVec 24)
  taken : Nat
deriving DecidableEq, Repr

/-- Sensor readings (R420, R424, R434): voltage in 10 mV, current in 10 mA, power and demand in W, averages over 100 ms and 10 ms, the hottest
die sensor with its core, the stack temperatures. -/
structure Sensors where
  vin : BitVec 16
  iin : BitVec 16
  pin : BitVec 16
  demand : BitVec 16
  avg100 : BitVec 16
  avg10 : BitVec 16
  die : BitVec 8
  core : BitVec 8
  hbm : List (BitVec 8)
deriving DecidableEq, Repr

/-- A grant register (R390). -/
inductive GrantReg where
  | jr (i : Fin 16)
  | ctx (core : CoreId) (set : Fin 2)
  | win (k : Fin 64)
  | mr (i : Fin 256)
deriving DecidableEq, Repr

/-- Where a data parity error is found (R438). -/
inductive ParityAt where
  | request (i : Nat)
  | descriptor (i : Nat)
  | keel (k : StackId)
deriving DecidableEq, Repr

/-- The fields every slot instruction carries in bits [55:51] (R205): INV, P, and SET or HALF. -/
structure Head where
  inv : Bool
  p : BitVec 3
  set : Bool
deriving DecidableEq, Repr

/-- SA layout (R211): integer, FP32, compare, predicate logic, SRDS, SLUI. -/
structure FmtSA where
  hd : Head
  d : BitVec 5
  a : BitVec 5
  i : Bool
  b : BitVec 5
  sub : BitVec 3
  imm : BitVec 32
deriving DecidableEq, Repr

/-- SM layout (R211): SLD, SST, FLAG.REL, FLAG.ACQ. -/
structure FmtSM where
  hd : Head
  space : BitVec 2
  upd : BitVec 2
  d : BitVec 5
  b : BitVec 5
  x : BitVec 5
  sh : BitVec 3
  w : BitVec 2
  sx : Bool
  cond : BitVec 2
  disp : BitVec 24
deriving DecidableEq, Repr

/-- SX layout (R211) but for AOP, which the constructor gives. -/
structure FmtSX where
  hd : Head
  space : BitVec 2
  upd : BitVec 2
  d : BitVec 5
  b : BitVec 5
  v : BitVec 5
  c : BitVec 5
  w64 : Bool
  fp : Bool
  disp : BitVec 22
deriving DecidableEq, Repr

/-- SB layout (R211): SBR, SCALL. -/
structure FmtSB where
  hd : Head
  rsv : BitVec 40
  t : BitVec 11
deriving DecidableEq, Repr

/-- SL layout (R211): SLOOP; `l` is L − 1. -/
structure FmtSL where
  hd : Head
  reg : Bool
  n : BitVec 5
  rsv : BitVec 2
  l : BitVec 11
  cnt : BitVec 32
deriving DecidableEq, Repr

/-- SW layout (R211): SWAIT. -/
structure FmtSW where
  hd : Head
  reg : Bool
  n : BitVec 5
  rsv : BitVec 29
  cnt : BitVec 16
deriving DecidableEq, Repr

/-- SY layout (R211) but for FORM, which the constructor gives. -/
structure FmtSY where
  hd : Head
  mask : BitVec 3
  rsv : BitVec 45
deriving DecidableEq, Repr

/-- S0 layout (R211): SNOP, SRET, FENCE.PUSH, END; also VNOP, MNOP and DNOP. -/
structure FmtS0 where
  hd : Head
  rsv : BitVec 51
deriving DecidableEq, Repr

/-- VA layout (R221); `beats` is BEATS − 1. -/
structure FmtVA where
  hd : Head
  beats : BitVec 3
  d : BitVec 6
  a : BitVec 6
  b : BitVec 6
  c : BitVec 6
  fmt : BitVec 4
  fmt2 : BitVec 4
  sat : Bool
  sr : Bool
  bs : Bool
  sub : BitVec 3
  lane : BitVec 10
deriving DecidableEq, Repr

/-- VM layout (R221): VLD, VST; `beats` is BEATS − 1. -/
structure FmtVM where
  hd : Head
  beats : BitVec 3
  v : BitVec 6
  rsv : BitVec 2
  upd : BitVec 2
  b : BitVec 5
  x : BitVec 5
  sh : BitVec 3
  disp : BitVec 25
deriving DecidableEq, Repr

/-- VC layout (R221): VLDACC, VSTACC; `beats` is BEATS − 1. -/
structure FmtVC where
  hd : Head
  beats : BitVec 3
  v : BitVec 6
  r : BitVec 5
  row : BitVec 11
  rsv : BitVec 26
deriving DecidableEq, Repr

/-- MLOAD (R228); `klen` and `nlen` are KLEN − 1 and NLEN − 1. -/
structure FmtML where
  hd : Head
  k2 : Bool
  b : BitVec 5
  x : BitVec 5
  sh : BitVec 3
  upd : BitVec 2
  fmt : BitVec 4
  klen : BitVec 7
  nlen : BitVec 7
  disp : BitVec 17
deriving DecidableEq, Repr

/-- MSTREAM and MSTREAM.T (R228). -/
structure FmtMS where
  hd : Head
  acc : Bool
  b : BitVec 5
  x : BitVec 5
  sh : BitVec 3
  upd : BitVec 2
  fmt : BitVec 4
  m : BitVec 5
  r : BitVec 5
  stride : BitVec 6
  disp : BitVec 15
deriving DecidableEq, Repr

/-- MDIST and MDIST.T (R228). -/
structure FmtMD where
  hd : Head
  acc : Bool
  b : BitVec 5
  x : BitVec 5
  sh : BitVec 3
  upd : BitVec 2
  fmt : BitVec 4
  m : BitVec 5
  r : BitVec 5
  stride : BitVec 6
  form : BitVec 3
  disp : BitVec 12
deriving DecidableEq, Repr

/-- MSTREAM.OS (R228). -/
structure FmtMO where
  hd : Head
  acc : Bool
  a : BitVec 5
  b : BitVec 5
  fmta : BitVec 4
  fmtb : BitVec 4
  k : BitVec 5
  r : BitVec 5
  stride : BitVec 6
  rsv : BitVec 16
deriving DecidableEq, Repr

/-- MDRAIN (R228). -/
structure FmtMR where
  hd : Head
  sat : Bool
  b : BitVec 5
  r : BitVec 5
  n : BitVec 5
  ofmt : BitVec 4
  sr : Bool
  stride : BitVec 6
  disp : BitVec 24
deriving DecidableEq, Repr

/-- DCOPY (R234). -/
structure FmtDC where
  hd : Head
  d : BitVec 5
  s : BitVec 5
  n : BitVec 5
  rsv : BitVec 36
deriving DecidableEq, Repr

/-- DMOVE (R234). -/
structure FmtDM where
  hd : Head
  dspace : BitVec 2
  sspace : BitVec 2
  d : BitVec 5
  s : BitVec 5
  n : BitVec 5
  dc : BitVec 3
  rsv : BitVec 29
deriving DecidableEq, Repr

/-- DSTR (R234) but for SUB, which the constructor gives. -/
structure FmtDS where
  hd : Head
  h : BitVec 5
  dc : BitVec 3
  rsv : BitVec 40
deriving DecidableEq, Repr

/-- DWAIT (R234). -/
structure FmtDW where
  hd : Head
  dc : BitVec 3
  i : Bool
  a : BitVec 5
  rsv : BitVec 10
  imm : BitVec 32
deriving DecidableEq, Repr

/-- DFLAGW (R234). -/
structure FmtDF where
  hd : Head
  h : BitVec 5
  flag : BitVec 3
  val : Bool
  slot : BitVec 6
  rsv : BitVec 36
deriving DecidableEq, Repr

/-- The commands of the block, one per row of the opcode table. -/
inductive Instr where
  /-- The later of the 48 V and 3.3 V supplies becomes valid; this is the device's one reset, and start-up begins without further action.
  (R415) -/
  | supplyValid (main : Bool) (slot : Fin 16)
  /-- Only the auxiliary supply is valid, so the device enters standby and answers nothing. (R414) -/
  | auxStandby (slot : Fin 16)
  /-- Die power-on reset is released; both fuse copies are sensed and DEV_STATUS.SLOT is sampled. (R415) -/
  | diePorRelease (slot : Fin 16)
  /-- Gondola core 0 runs the boot ROM, reads the identity region and sets ETH_MAC, or keeps Ethernet disabled when the identity is lost.
  (R415) -/
  | bootRomStart
  /-- The flash controller mounts every journal class, repairs missing copies and counts torn records. (R430) -/
  | journalMount
  /-- A supply leaves its valid range, and volatile state is lost as Table 6 of the power chapter states. (R433) -/
  | powerFailure (main : Bool) (blown : Nat) (stage : Fin 4)
  /-- Overcurrent for 10 µs, overvoltage or a bus below its floor for 100 µs turns the input stage off. (R425) -/
  | electricalTrip (blown : Nat) (stage : Fin 4)
  /-- After an electrical trip, the 48 V input leaves and re-enters its valid range, and the input stage comes back on. (R464) -/
  | tripRecovery
  /-- A die or HBM sensor reaches its trip temperature; the ripcord is pulled, all jobs are killed and CORE_EN is held at 0. (R425) -/
  | thermalTrip (x : Sensors)
  /-- A firmware write of PWR_CTRL.TRIP_CLR clears a thermal trip when every sensor reads below its threshold. (R425) -/
  | tripClr (t : Tag) (v : Word)
  /-- At each boundary, or every 100 µs with no domain, the governor raises or lowers the throttle level. (R424) -/
  | throttleEval (x : Sensors)
  /-- Demand exceeds T by more than the bus holds, and every array freezes until the bus recovers. (R423) -/
  | busHold
  /-- The bus recovers and the arrays leave bus hold. (R423) -/
  | busHoldEnd
  /-- Ballast fills the gap between real demand and T, and is restored within 64 cc after demand falls. (R422) -/
  | ballastFill (demand : BitVec 16)
  /-- A stack crosses 85 °C, and its refresh doubles or returns to normal. (R318) -/
  | refreshDoubling (k : StackId) (temp : BitVec 8)
  /-- A write to a register without behaviour of its own applies access codes, reserved-bit, reserved-value and lock checks. (R7) -/
  | registerWrite (t : Tag) (off : BitVec 24) (width : Nat) (v : Word)
  /-- A write of TCK_CTRL.ELECT = 1 with RUN = 0 starts a master election and floods the device's candidate. (R26) -/
  | elect (t : Tag) (v : Word)
  /-- An election message arrives; a better candidate is adopted and forwarded, and an idle device joins the election. (R26) -/
  | electionMessage (p : PortId) (domain : BitVec 16) (c : Candidate)
  /-- The best candidate has been unchanged for 2 ms, so ELECTED, the master coordinates and IS_MASTER are set. (R26) -/
  | electionComplete
  /-- A write of RUN = 1 on a device other than the master puts it in the armed state. (R39) -/
  | arm (t : Tag) (v : Word)
  /-- A write of RUN = 0 on an armed device returns STATE to idle. (R40) -/
  | disarm (t : Tag) (v : Word)
  /-- A write of RUN = 1 on the master sends the start marker for the first boundary at the set time plus LEAD_NS. (R39) -/
  | domainStart (t : Tag) (v : Word)
  /-- A write of RUN = 0 on the master sets the stop flag in the first marker not yet sent. (R40) -/
  | domainStop (t : Tag) (v : Word)
  /-- A period write is checked against the mode, the ceiling and the running state, and on the master it takes effect at the next unsent
  marker. (R50) -/
  | tckPeriodWrite (t : Tag) (v : Word)
  /-- At a boundary's time less LEAD_NS, the master sends the marker carrying flags and any new period. (R29) -/
  | tickMarkerSend
  /-- A marker arrives; the device adds link delay and residence, forwards it down the tree and schedules its boundary. (R29) -/
  | tickMarker (p : PortId) (m : Marker) (residence : Nat)
  /-- GRACE_US passes after a predicted boundary with no marker; no boundary fires and the ripcord is pulled. (R33) -/
  | markerMissing
  /-- A boundary fires; the tick number and schedule index advance, spools commit, and slip, stop, period and mode effects apply. (R29) -/
  | tickBoundary (demand : BitVec 16)
  /-- The last 500 ns of a tick begins, and every due item of R41 is checked for completion. (R42) -/
  | settleWindowOpen
  /-- The last item incomplete at a miss completes, and TCK_MISS.OVERRUN is written. (R42) -/
  | missOverrun
  /-- A miss notice arrives; it is forwarded, or the master sets a slip flag SLIP_LAG ticks on or absorbs it. (R44) -/
  | missNotice (p : PortId) (domain : BitVec 16) (tick : BitVec 32) (sources : BitVec 7)
  /-- Slip flags have been set for 8 of 16 consecutive ticks, so SLIP_LIMIT is raised and the ripcord is pulled. (R47) -/
  | slipLimit
  /-- The governed slip count reaches MISS_THRESH, and the master announces a period lengthened by 1%. (R49) -/
  | governedLengthening
  /-- Every 1 ms, and at training, a port sends a delay probe. (R30) -/
  | delayProbe (p : PortId)
  /-- A probe reply arrives, and TCK_LINK_DELAY is set to half the round trip. (R30) -/
  | probeReply (p : PortId) (time : BitVec 48) (turnaround : BitVec 32)
  /-- A delay probe arrives, and the device answers with a probe reply that carries its turnaround. (R30) -/
  | probeReceived (p : PortId) (time : BitVec 48) (turnaround : BitVec 32)
  /-- An IEEE 1588 message arrives, and the master adjusts its frequency toward TAI. (R36) -/
  | ptpMessage (seq : Nat) (m : PtpMsg)
  /-- PTP lock is lost; PTP_LOCK clears and the time base runs free. (R37) -/
  | ptpLoss
  /-- A write of TTH_CTRL.ENABLE = 1 is refused unless N and both ring ports are valid and Up. (R54) -/
  | tthEnable (t : Tag) (v : Word)
  /-- A write of TTH_MODE_REQ sets PENDING, or is refused with CONFIG_ERR. (R78) -/
  | modeRequest (t : Tag) (v : Word)
  /-- In tick A + rN − 1 the station reads its list entry, writes the header and stages the body from HBM. (R62) -/
  | spoolStaging (dir : Dir)
  /-- The staged spool's last byte is written, and the slot becomes Arrived. (R62) -/
  | stagingComplete (dir : Dir)
  /-- The last header byte of an arriving spool is in, and the header is checked against the expected values. (R65) -/
  | spoolHeaderIn (dir : Dir) (header : BitVec 512)
  /-- The last byte of a spool arrives; the slot becomes Arrived and its directory is checked. (R68) -/
  | spoolLastByte (dir : Dir) (bytes : List Byte)
  /-- An arrival or staging begins writing a slot once its DRAINED is 1, or waits and raises BACKPRESSURE. (R69) -/
  | arrivalStart (dir : Dir) (staging : Bool)
  /-- Forwarding of a spool completes; FORWARDED sets, and DRAINED sets when expansion is also done. (R68) -/
  | forwardingComplete (slot : Fin 6)
  /-- Every section of a spool is expanded or skipped and its tail is satisfied, so EXPANDED sets. (R257) -/
  | expansionComplete (slot : Fin 6)
  /-- A return hop carrying header and tail arrives at the spool's home and is checked. (R64) -/
  | returnHop (dir : Dir) (header : BitVec 512) (blocks : List Byte)
  /-- A packer reads, checks, adds to, converts and rewrites one tail block, then releases it. (R86) -/
  | tailBlock (slot : Fin 6) (b : Nat)
  /-- The last trailer byte of a tail arrives; its CRC, version, format and ADDED are checked, with the ripcord on failure. (R87) -/
  | tailTrailerIn (dir : Dir) (back : Bool) (trailer : BitVec 512)
  /-- Every gradient write has completed; KCMD is submitted and GRAD_DONE is raised. (R91) -/
  | gradientWritesDone (dir : Dir)
  /-- TTH_RELAY_CMD LAUNCH sends the vector as the next packet in both directions, or is refused. (R100) -/
  | relayLaunch (t : Tag) (v : Word)
  /-- TTH_RELAY_CMD APPEND adds the station's slice to a packet, or is refused. (R100) -/
  | relayAppend (t : Tag) (v : Word)
  /-- TTH_RELAY_CMD RELEASE marks the cores done with a slot and sets EXPANDED. (R100) -/
  | relayRelease (t : Tag) (v : Word)
  /-- A relay header arrives and is checked; cut-through forwarding begins. (R101) -/
  | relayHeaderIn (dir : Dir) (header : BitVec 512)
  /-- The header and vector region are in, so FULL sets. (R99) -/
  | relayVectorIn (dir : Dir) (vec : List Byte)
  /-- A relay slice arrives whole, is checked and is forwarded. (R98) -/
  | relaySliceIn (dir : Dir) (slice : List Byte)
  /-- An end marker arrives; it is forwarded after the own slice, or checked at the meeting station. (R98) -/
  | relayEndMarker (dir : Dir) (marker : BitVec 128)
  /-- A firmware write of TEL_RIPCORD_PULL.PULL pulls the ripcord with cause 13. (R440) -/
  | telRipcordPull (t : Tag) (v : Word)
  /-- A ripcord message arrives; a new one for the domain is acted on and forwarded, and duplicates are dropped. (R351) -/
  | ripcord (p : PortId) (domain : BitVec 16) (cause : BitVec 8) (x : BitVec 7) (y : BitVec 6) (serial : BitVec 16)
  /-- A fault report arrives; the first one naming a failed device is acted on and forwarded. (R351) -/
  | faultReport (p : PortId) (domain : BitVec 16) (x : BitVec 7) (y : BitVec 6) (cause : BitVec 8)
  /-- FAULT_WAIT expires; the survivors cut failed quads, rebuild ring, routes and tree, and report. (R355) -/
  | bridleRepair
  /-- S-slot no operation. (R212) -/
  | snop (n : CoreId) (f : FmtS0)
  /-- 64-bit add modulo 2⁶⁴. (R212) -/
  | sadd (n : CoreId) (f : FmtSA)
  /-- 64-bit subtract. (R212) -/
  | ssub (n : CoreId) (f : FmtSA)
  /-- Bitwise AND. (R212) -/
  | sand (n : CoreId) (f : FmtSA)
  /-- Bitwise OR. (R212) -/
  | sor (n : CoreId) (f : FmtSA)
  /-- Bitwise XOR. (R212) -/
  | sxor (n : CoreId) (f : FmtSA)
  /-- Shift left by b mod 64. (R212) -/
  | sshl (n : CoreId) (f : FmtSA)
  /-- Logical shift right. (R212) -/
  | sshr (n : CoreId) (f : FmtSA)
  /-- Arithmetic shift right. (R212) -/
  | ssra (n : CoreId) (f : FmtSA)
  /-- Signed minimum. (R212) -/
  | smin (n : CoreId) (f : FmtSA)
  /-- Signed maximum. (R212) -/
  | smax (n : CoreId) (f : FmtSA)
  /-- Unsigned minimum. (R212) -/
  | sminu (n : CoreId) (f : FmtSA)
  /-- Unsigned maximum. (R212) -/
  | smaxu (n : CoreId) (f : FmtSA)
  /-- Places the immediate in bits [63:32] of the destination. (R212) -/
  | slui (n : CoreId) (f : FmtSA)
  /-- Low 64 bits of a product. (R212) -/
  | smul (n : CoreId) (f : FmtSA)
  /-- High 64 bits of a signed product. (R212) -/
  | smulh (n : CoreId) (f : FmtSA)
  /-- High 64 bits of an unsigned product. (R212) -/
  | smulhu (n : CoreId) (f : FmtSA)
  /-- Signed 64-bit quotient, with the edge cases of R213. (R213) -/
  | sdiv (n : CoreId) (f : FmtSA)
  /-- Unsigned 64-bit quotient. (R213) -/
  | sdivu (n : CoreId) (f : FmtSA)
  /-- Signed remainder. (R213) -/
  | srem (n : CoreId) (f : FmtSA)
  /-- Unsigned remainder. (R213) -/
  | sremu (n : CoreId) (f : FmtSA)
  /-- Integer compare into a predicate. (R212) -/
  | scmp (n : CoreId) (f : FmtSA)
  /-- Predicate logic. (R212) -/
  | plog (n : CoreId) (f : FmtSA)
  /-- FP32 add. (R213) -/
  | sfadd (n : CoreId) (f : FmtSA)
  /-- FP32 subtract. (R213) -/
  | sfsub (n : CoreId) (f : FmtSA)
  /-- FP32 multiply. (R213) -/
  | sfmul (n : CoreId) (f : FmtSA)
  /-- FP32 fused multiply-add with one rounding. (R212) -/
  | sfma (n : CoreId) (f : FmtSA)
  /-- Scalar conversion between integer, FP32 and BF16. (R213) -/
  | sfcvt (n : CoreId) (f : FmtSA)
  /-- FP32 compare into a predicate. (R213) -/
  | sfcmp (n : CoreId) (f : FmtSA)
  /-- Scalar load in any space, local, cached or scoreboarded. (R214) -/
  | sld (n : CoreId) (f : FmtSM)
  /-- Scalar store of W bytes. (R214) -/
  | sst (n : CoreId) (f : FmtSM)
  /-- Reads a selector value such as the cycle, tick or a dc counter. (R215) -/
  | srds (n : CoreId) (f : FmtSA)
  /-- Predicated branch with two delay bundles. (R186) -/
  | sbr (n : CoreId) (f : FmtSB)
  /-- Call that writes s31. (R186) -/
  | scall (n : CoreId) (f : FmtSB)
  /-- Branch to s31. (R186) -/
  | sret (n : CoreId) (f : FmtS0)
  /-- Repeats the next L bundles n times, nesting up to four levels. (R187) -/
  | sloop (n : CoreId) (f : FmtSL)
  /-- Delays the next bundle by n cc. (R188) -/
  | swait (n : CoreId) (f : FmtSW)
  /-- The tick wait, ending at the next new-index boundary or at once when that boundary has fired. (R192) -/
  | syncTick (n : CoreId) (f : FmtSY)
  /-- Waits until the named engines' earlier instructions have completed. (R193) -/
  | syncEng (n : CoreId) (f : FmtSY)
  /-- Realigns the next bundle to frame slot 0. (R178) -/
  | syncFrame (n : CoreId) (f : FmtSY)
  /-- Stalls until earlier remote writes of the set have been performed. (R217) -/
  | fencePush (n : CoreId) (f : FmtS0)
  /-- Release store, performed after every earlier write of its set. (R218) -/
  | flagRel (n : CoreId) (f : FmtSM)
  /-- Acquire load, optionally waiting on a condition; invalidates the scalar cache. (R218) -/
  | flagAcq (n : CoreId) (f : FmtSM)
  /-- A waiting FLAG.ACQ rereads its location 32 cc after each value arrives. (R218) -/
  | flagAcqReread (n : CoreId)
  /-- Atomic add at the home, integer or FP32. (R219) -/
  | atomAdd (n : CoreId) (f : FmtSX)
  /-- Atomic signed or FP32 minimum. (R219) -/
  | atomMin (n : CoreId) (f : FmtSX)
  /-- Atomic signed or FP32 maximum. (R219) -/
  | atomMax (n : CoreId) (f : FmtSX)
  /-- Atomic unsigned minimum. (R219) -/
  | atomMinu (n : CoreId) (f : FmtSX)
  /-- Atomic unsigned maximum. (R219) -/
  | atomMaxu (n : CoreId) (f : FmtSX)
  /-- Atomic swap. (R219) -/
  | atomSwap (n : CoreId) (f : FmtSX)
  /-- Atomic compare-and-swap. (R219) -/
  | atomCas (n : CoreId) (f : FmtSX)
  /-- Ends the kernel; no later bundle issues. (R198) -/
  | endKernel (n : CoreId) (f : FmtS0)
  /-- Every engine's work and every write of the kernel is done, and the completion store is made. (R198) -/
  | endComplete (n : CoreId)
  /-- An error returns after its instruction has issued and is recorded with ASYNC set. (R202) -/
  | asyncFault (n : CoreId)
  /-- Scoreboarded load or atomic data arrives, releasing any stalled reader. (R191) -/
  | scoreboardArrival (n : CoreId) (line : List Byte)
  /-- V-slot no operation. (R222) -/
  | vnop (n : CoreId) (f : FmtS0)
  /-- Lane-wise add. (R222) -/
  | vadd (n : CoreId) (f : FmtVA)
  /-- Lane-wise subtract. (R222) -/
  | vsub (n : CoreId) (f : FmtVA)
  /-- Lane-wise multiply. (R222) -/
  | vmul (n : CoreId) (f : FmtVA)
  /-- Lane-wise fused multiply-add. (R222) -/
  | vfma (n : CoreId) (f : FmtVA)
  /-- Lane-wise minimumNumber. (R165) -/
  | vmin (n : CoreId) (f : FmtVA)
  /-- Lane-wise maximumNumber. (R165) -/
  | vmax (n : CoreId) (f : FmtVA)
  /-- Lane-wise absolute value. (R222) -/
  | vabs (n : CoreId) (f : FmtVA)
  /-- Lane-wise negation. (R222) -/
  | vneg (n : CoreId) (f : FmtVA)
  /-- Lane-wise AND. (R222) -/
  | vand (n : CoreId) (f : FmtVA)
  /-- Lane-wise OR. (R222) -/
  | vor (n : CoreId) (f : FmtVA)
  /-- Lane-wise XOR. (R222) -/
  | vxor (n : CoreId) (f : FmtVA)
  /-- INT32 shift left. (R222) -/
  | vshl (n : CoreId) (f : FmtVA)
  /-- INT32 logical shift right. (R222) -/
  | vshr (n : CoreId) (f : FmtVA)
  /-- INT32 arithmetic shift right. (R222) -/
  | vsra (n : CoreId) (f : FmtVA)
  /-- Lane-wise compare into masks. (R222) -/
  | vcmp (n : CoreId) (f : FmtVA)
  /-- Lane-wise select. (R222) -/
  | vsel (n : CoreId) (f : FmtVA)
  /-- Format conversion, including MX scaling. (R224) -/
  | vcvt (n : CoreId) (f : FmtVA)
  /-- Tree reduction into lane 0 of each beat. (R225) -/
  | vred (n : CoreId) (f : FmtVA)
  /-- Broadcasts a scalar to every lane. (R226) -/
  | vbcast (n : CoreId) (f : FmtVA)
  /-- Extracts one lane into a scalar register. (R226) -/
  | vext (n : CoreId) (f : FmtVA)
  /-- Correctly rounded division. (R222) -/
  | vdiv (n : CoreId) (f : FmtVA)
  /-- Correctly rounded square root. (R222) -/
  | vsqrt (n : CoreId) (f : FmtVA)
  /-- Reciprocal. (R167) -/
  | vrcp (n : CoreId) (f : FmtVA)
  /-- Reciprocal square root. (R167) -/
  | vrsqrt (n : CoreId) (f : FmtVA)
  /-- Power of two. (R167) -/
  | vexp2 (n : CoreId) (f : FmtVA)
  /-- Natural exponential. (R167) -/
  | vexp (n : CoreId) (f : FmtVA)
  /-- Base-2 logarithm. (R167) -/
  | vlog2 (n : CoreId) (f : FmtVA)
  /-- Natural logarithm. (R167) -/
  | vlog (n : CoreId) (f : FmtVA)
  /-- Sine. (R167) -/
  | vsin (n : CoreId) (f : FmtVA)
  /-- Cosine. (R167) -/
  | vcos (n : CoreId) (f : FmtVA)
  /-- Hyperbolic tangent. (R167) -/
  | vtanh (n : CoreId) (f : FmtVA)
  /-- Sigmoid. (R167) -/
  | vsigm (n : CoreId) (f : FmtVA)
  /-- Error function. (R167) -/
  | verf (n : CoreId) (f : FmtVA)
  /-- Reseeds the vector and drain-out generators after earlier MDRAINs have completed. (R172) -/
  | vseed (n : CoreId) (f : FmtVA)
  /-- Vector load from local scratchpad. (R227) -/
  | vld (n : CoreId) (f : FmtVM)
  /-- Vector store to local scratchpad. (R227) -/
  | vst (n : CoreId) (f : FmtVM)
  /-- Loads accumulator rows into a vector register. (R227) -/
  | vldacc (n : CoreId) (f : FmtVC)
  /-- Stores a vector register into accumulator rows. (R227) -/
  | vstacc (n : CoreId) (f : FmtVC)
  /-- M-slot no operation. (R228) -/
  | mnop (n : CoreId) (f : FmtS0)
  /-- Accepts a weight-tile load into the array queue. (R133) -/
  | mload (n : CoreId) (f : FmtML)
  /-- Accepts a weight-stationary stream of m rows. (R139) -/
  | mstream (n : CoreId) (f : FmtMS)
  /-- Accepts a transposed stream. (R139) -/
  | mstreamT (n : CoreId) (f : FmtMS)
  /-- Accepts an output-stationary pass over K k-steps. (R140) -/
  | mstreamOs (n : CoreId) (f : FmtMO)
  /-- Accepts a distance-form stream. (R149) -/
  | mdist (n : CoreId) (f : FmtMD)
  /-- Accepts a transposed distance-form stream. (R149) -/
  | mdistT (n : CoreId) (f : FmtMD)
  /-- Accepts a conversion of accumulator rows to scratchpad. (R142) -/
  | mdrain (n : CoreId) (f : FmtMR)
  /-- An accepted array instruction begins once its lead, a free array and a primed feeder are all met. (R137) -/
  | arrayInstructionBegin (n : CoreId) (half : Bool)
  /-- A result row is written or accumulated into accumulator memory at its fixed latency. (R140) -/
  | resultRowWrite (n : CoreId) (half : Bool)
  /-- A feeder is empty or the drain is backed up, so the array freezes for one cycle. (R146) -/
  | freezeCycle (n : CoreId) (half : Bool) (cause : FreezeCause)
  /-- MDRAIN's last row and scale word have been performed in scratchpad. (R142) -/
  | mdrainComplete (n : CoreId) (half : Bool)
  /-- D-slot no operation. (R234) -/
  | dnop (n : CoreId) (f : FmtS0)
  /-- Queues a local scratchpad word copy. (R236) -/
  | dcopy (n : CoreId) (f : FmtDC)
  /-- A DCOPY's last word has been written. (R236) -/
  | dcopyComplete (n : CoreId)
  /-- Creates one descriptor for a copy between spaces, stalling when no descriptor is free. (R237) -/
  | dmove (n : CoreId) (f : FmtDM)
  /-- DSTR PUSH on a channel: issues a transfer, releases a slot or readies a command entry. (R239) -/
  | dstrPush (n : CoreId) (f : FmtDS)
  /-- DSTR ARM starts or holds a persistent stream run. (R282) -/
  | dstrArm (n : CoreId) (f : FmtDS)
  /-- DSTR CANCEL cancels the channel's outstanding work. (R283) -/
  | dstrCancel (n : CoreId) (f : FmtDS)
  /-- Stalls until a completion counter reaches a value. (R238) -/
  | dwait (n : CoreId) (f : FmtDW)
  /-- Stalls until a channel slot flag reads the awaited value. (R240) -/
  | dflagw (n : CoreId) (f : FmtDF)
  /-- Bundle 0 of the next command issues once image, zeroing, enable and the END gap are satisfied; the record is checked. (R196) -/
  | commandLaunch (n : CoreId)
  /-- A kernel image has loaded into the idle half of the instruction buffer. (R194) -/
  | imageLoadComplete (n : CoreId) (peer : Option (List Byte))
  /-- An expander write, remote access or keel return reaches a core port, is checked by tag and hole, and is performed in slot 6. (R114)
  -/
  | networkPortRequest (i : Nat)
  /-- A corrected single-bit error is written back in the bank's next idle cycle. (R123) -/
  | eccWriteback (n : CoreId) (bank : Fin 32)
  /-- After GAP idle cycles, a bank scrubs one row and records any uncorrectable error. (R124) -/
  | scrubRead (n : CoreId) (bank : Fin 32)
  /-- Writing 1 to an SCP_PWR.SEG_OFF bit powers the segment down. (R125) -/
  | segPowerDown (t : Tag) (n : CoreId) (k : Fin 6)
  /-- Writing 0 to an SEG_OFF bit starts waking and zeroing the segment. (R126) -/
  | segWake (t : Tag) (n : CoreId) (k : Fin 6)
  /-- 4,096 cc after a wake, SEG_READY sets and any held write is applied. (R126) -/
  | segWakeComplete (n : CoreId) (k : Fin 6)
  /-- A write of SC_INV invalidates the scalar data cache. (R129) -/
  | scInv (t : Tag) (n : CoreId) (v : Word)
  /-- A write of MTX_CORE_CTRL.SPLIT enters or leaves split mode, clearing the cells, or is refused. (R155) -/
  | splitWrite (n : CoreId) (v : Word)
  /-- CDC_TBL_CMD BUILD derives a code table from a histogram. (R246) -/
  | build (t : Tag) (v : Word)
  /-- CDC_TBL_CMD INSTALL copies a table into a slot and advances its generation. (R248) -/
  | install (t : Tag) (v : Word)
  /-- CDC_TBL_CMD RETIRE frees a slot and keeps its generation. (R248) -/
  | retire (t : Tag) (v : Word)
  /-- CDC_TBL_CMD BUILD_INSTALL builds a table and installs it. (R248) -/
  | buildInstall (t : Tag) (v : Word)
  /-- A table command completes, and TBL_DONE is raised. (R248) -/
  | tableCommandDone
  /-- A write of CDC_SEED reseeds the named packers' generators. (R262) -/
  | cdcSeed (t : Tag) (v : Word)
  /-- An expander checks and decodes one block to its core's ring, or skips it after a fault. (R257) -/
  | blockExpand (k : ClusterId)
  /-- A unit fetches a table it does not hold; the miss is counted and MISS is raised. (R251) -/
  | tableFetch (k : ClusterId) (packer : Bool) (cc : Fin 1025)
  /-- The packer cuts and codes one block of a PACK descriptor. (R260) -/
  | packBlock (k : ClusterId)
  /-- STR_CTX_CMD ALLOC moves a free context to ALLOCATED for a job. (R266) -/
  | alloc (t : Tag) (v : Word)
  /-- STR_CTX_CMD RELEASE destroys channels, clears sets and zeroes the context's state. (R288) -/
  | release (t : Tag) (v : Word)
  /-- STR_CTX_CMD KILL stops every core, context and channel of a job and zeroes them. (R289) -/
  | kill (t : Tag) (v : Word)
  /-- The zeroing of a released or killed context's memories completes. (R290) -/
  | zeroingComplete (ctx : BitVec 11)
  /-- Every step of a KILL is done; KILL_DONE is raised and ZEROING clears. (R289) -/
  | killDone (job : BitVec 16)
  /-- STR_CHAN_CMD CREATE makes a channel from a record and writes the reply. (R272) -/
  | create (t : Tag) (v : Word)
  /-- STR_CHAN_CMD DESTROY cancels and stales a channel. (R272) -/
  | destroy (t : Tag) (v : Word)
  /-- A firmware PUSH through the STR_PUSH register. (R293) -/
  | strPush (t : Tag) (v : Word)
  /-- A firmware ARM through STR_PUSH. (R282) -/
  | strArm (t : Tag) (v : Word)
  /-- A firmware CANCEL through STR_PUSH. (R283) -/
  | strCancel (t : Tag) (v : Word)
  /-- Every 16 cc a mover chooses a class by shares and the unit with the earliest deadline. (R278) -/
  | moverUnitStart (m : Fin 24) (peer : Option (List Byte))
  /-- Every byte of a descriptor has been performed, and its dc counter is incremented. (R237) -/
  | descriptorComplete (i : Nat)
  /-- A stream fill's last byte is performed, so FULL sets; a held re-arm may start. (R280) -/
  | streamFillComplete (i : Fin 8192)
  /-- With no domain running, the last dropped read completes, and descriptors, slots and the index return. (R285) -/
  | cancelledReturn
  /-- A request from a peer device arrives and is admitted by job tag. (R298) -/
  | peerRequest (x : BitVec 7) (y : BitVec 6) (t : Tag) (a : BitVec 44) (q : Access)
  /-- A far-aperture request arrives at its target and is checked against the window. (R300) -/
  | farRequest (x : BitVec 7) (y : BitVec 6) (t : Tag) (k : Fin 64) (a : BitVec 34) (q : Access)
  /-- An access to a far aperture is sent to its target, or refused with CAUSE 7 or 8. (R299) -/
  | apertureAccess (i : Nat)
  /-- A write of DEV_WINk_CTL with VALID = 1 is checked for range and size. (R301) -/
  | windowWrite (t : Tag) (k : Fin 64) (v : Word)
  /-- A grant register write with VALID = 1 is admitted only over clean or owned GiB, or lies in the firmware reserve. (R390) -/
  | grantWrite (t : Tag) (g : GrantReg) (v : Word)
  /-- A load, store or atomic reaches its keel home and is performed in order of arrival. (R325) -/
  | hbmRequest (i : Nat)
  /-- A keel engine reads the next line in its patrol pass. (R321) -/
  | patrolScrub (k : StackId)
  /-- A write covering byte 63 of a command line submits that line to the stack queues. (R327) -/
  | commandSubmit (t : Tag) (k : StackId) (line : Fin 4096) (bytes : List Byte)
  /-- An 8-byte store to region offset 0x4_0000 submits the command stored at the given HBM offset. (R327) -/
  | commandSubmitIndirect (t : Tag) (k : StackId) (addr : Word)
  /-- The keel FILL operation writes a pattern repeatedly. (R328) -/
  | fill (k : StackId)
  /-- The keel COPY operation copies lines. (R328) -/
  | copy (k : StackId)
  /-- Elementwise reduction of sources. (R328) -/
  | reduce (k : StackId)
  /-- Gathers table rows by index. (R328) -/
  | gather (k : StackId)
  /-- Adds source rows into table rows by index. (R328) -/
  | scatterAdd (k : StackId)
  /-- Byte histogram with atomic adds. (R328) -/
  | hist (k : StackId)
  /-- SGD, AdamW or Lion optimizer step over elements. (R330) -/
  | opt (k : StackId)
  /-- Memory test that lists failing lines and leaves the range zero. (R328) -/
  | mtest (k : StackId) (failing : List Nat)
  /-- Replaces a DRAM row with a soft or hard spare. (R322) -/
  | repair (k : StackId)
  /-- A stack's part of a command ends, and it adds to DONE with release semantics. (R334) -/
  | commandPartEnd (k : StackId)
  /-- A write of KEL_CTRL.ILV changes the interleave and clears every CLEAN bit, or is refused. (R317) -/
  | ilvWrite (t : Tag) (v : Word)
  /-- Firmware finishes training and soft repair, and the stack becomes ready. (R324) -/
  | stackReady (k : StackId) (soft : List (BitVec 5 × BitVec 6))
  /-- A write of LNK_PCTRL.ENABLE = 1 starts port training. (R347) -/
  | portEnable (t : Tag) (p : PortId) (v : Word)
  /-- All lanes pass equalisation, deskew and test, and the port starts negotiating. (R347) -/
  | trainingComplete (p : PortId) (lane : BitVec 4) (margin : BitVec 16)
  /-- The peers exchange serial, position and versions; the version is chosen or the port becomes Miswired or Failed. (R347) -/
  | negotiation (p : PortId) (serial : Word) (x : BitVec 7) (y : BitVec 6) (port : BitVec 2) (valid : Bool) (lo : BitVec 16) (hi : BitVec 16)
  /-- The peer's key exchange message is verified, link keys are derived and the port goes Up. (R384) -/
  | linkKeyExchange (p : PortId) (pub : List Byte) (certs : List Byte) (sig : List Byte)
  /-- A port has not reached Up within 20 ms of ENABLE and ends Failed. (R347) -/
  | trainingTimeout (p : PortId)
  /-- A write of LNK_COORD with VALID is discarded when it contradicts the slot number. (R339) -/
  | coordWrite (t : Tag) (v : Word)
  /-- A port sends a frame every 25.6 ns, with payload, credits, ACK and a short message by priority. (R342) -/
  | frameSend (p : PortId)
  /-- A frame arrives, is accepted when it passes every check and is in sequence, or triggers a replay request. (R345) -/
  | frameReceived (p : PortId) (decoded : Bool) (crc : Bool) (tag : Bool) (fec : Nat) (seq : BitVec 16) (ack : BitVec 16) (vl : Fin 5) (cells : Nat) (creditVl : BitVec 3) (credit : BitVec 8) (replay : Bool)
  /-- One frame has been resent REPLAY_MAX times, and the link is lost. (R346) -/
  | replayLimit (p : PortId)
  /-- No frame is accepted for LOSS_US; the port goes Lost and an in-region loss pulls the ripcord and floods a report. (R349) -/
  | linkLoss (p : PortId)
  /-- The Ethernet link comes up after training. (R359) -/
  | ethLinkUp
  /-- The Ethernet link is lost while queue pairs keep their state. (R359) -/
  | ethLinkDown
  /-- An Ethernet frame is received, classified or dropped, and counted toward PFC thresholds. (R358) -/
  | ethFrameReceived (f : EthFrame)
  /-- A received PFC frame pauses or resumes a priority. (R360) -/
  | pfcReceived (p : Fin 8) (xoff : Bool)
  /-- An ARP or neighbour solicitation is answered. (R358) -/
  | arpRequest (v6 : Bool) (target : BitVec 128) (sender : BitVec 128)
  /-- An ICMP echo request is answered. (R358) -/
  | icmpEcho (v6 : Bool) (target : BitVec 128) (sender : BitVec 128) (data : List Byte)
  /-- A congestion notification cuts the queue pair's rate by one eighth. (R361) -/
  | cnpReceived (n : BitVec 24)
  /-- After 50 µs without a CNP, a queue pair's rate rises by 5 GB/s. (R361) -/
  | rateRecovery (n : BitVec 24)
  /-- A RoCEv2 SEND arrives on a queue pair. (R362) -/
  | send (n : BitVec 24) (psn : BitVec 24) (len : Nat)
  /-- An RDMA WRITE is checked against the R_Key region and performed. (R364) -/
  | rdmaWrite (n : BitVec 24) (psn : BitVec 24) (rkey : BitVec 32) (addr : Word) (bytes : List Byte)
  /-- An RDMA READ is checked against the R_Key region and answered. (R364) -/
  | rdmaRead (n : BitVec 24) (psn : BitVec 24) (rkey : BitVec 32) (addr : Word) (len : Nat)
  /-- A queue pair's retransmission timer expires, and it resends go-back-N. (R358) -/
  | roceRetransmit (n : BitVec 24)
  /-- A boot request connects the load queue pair and is answered with BOOT_ACK. (R397) -/
  | bootReq (ip : BitVec 128) (bytes : List Byte)
  /-- An image chunk arrives in order; the LAST chunk triggers the image check and RESULT. (R397) -/
  | chunk (ip : BitVec 128) (bytes : List Byte)
  /-- The boot loader extends MEAS1 to MEAS7, LOCKs, copies the image and starts the components. (R399) -/
  | bootLoaderStart
  /-- A write of ETH_DEPOT_TAIL submits records, or is refused with DEPOT_ERR. (R367) -/
  | depotTailWrite (t : Tag) (v : Word)
  /-- The engine takes the next depot record, checks its key and advances HEAD. (R367) -/
  | depotRecordStart
  /-- A chunk's read completes; its tag is verified and the plaintext written, or the record ends failed. (R368) -/
  | depotChunkArrival (i : Nat) (bytes : List Byte)
  /-- A depot record's writes have been performed, and 1 is added to DONE. (R368) -/
  | depotWritesDone (i : Nat)
  /-- A service OPEN derives session keys and is answered with OPEN_ACK, or refused with ERROR. (R387) -/
  | openMsg (ep : Fin 16) (ip : BitVec 128) (port : BitVec 16) (bytes : List Byte)
  /-- An accepted SUBMIT is written into the request ring, or left unacknowledged when the ring is full. (R371) -/
  | submit (ep : Fin 16) (bytes : List Byte)
  /-- A service ACK confirms messages sent. (R370) -/
  | ack (ep : Fin 16) (bytes : List Byte)
  /-- A service CLOSE appends a CANCEL and discards the session's pending tokens. (R372) -/
  | close (ep : Fin 16) (bytes : List Byte)
  /-- A KEEPALIVE keeps the session from timing out. (R370) -/
  | keepalive (ep : Fin 16) (bytes : List Byte)
  /-- A response TAIL advance makes the engine send each entry as TOKENS and advance HEAD. (R371) -/
  | responseEntry (ep : Fin 16)
  /-- An unacknowledged message is resent after 2 ms, and the session closes after 8 resends. (R370) -/
  | serviceResend (session : BitVec 32)
  /-- A session has received nothing for 30 s and is closed with code 5. (R370) -/
  | sessionIdle (session : BitVec 32)
  /-- The SEC command SVN_ADV blows fuse bits up to version v. (R382) -/
  | svnAdv (t : Tag) (v : Word)
  /-- The SEC command KEY_IMPORT unwraps a key record into the store. (R389) -/
  | keyImport (t : Tag) (v : Word)
  /-- The SEC command KEY_DESTROY zeroes an entry and advances its generation. (R389) -/
  | keyDestroy (t : Tag) (v : Word)
  /-- The SEC command MEAS_EXTEND extends a measurement register. (R380) -/
  | measExtend (t : Tag) (v : Word)
  /-- The SEC command MEAS_RESET zeroes one of MEAS8 to MEAS15. (R380) -/
  | measReset (t : Tag) (v : Word)
  /-- The SEC command ATTEST writes a signed report. (R383) -/
  | attest (t : Tag) (v : Word)
  /-- The SEC command ZERO clears GiB ranges with keel fills. (R391) -/
  | zero (t : Tag) (v : Word)
  /-- The fills of a ZERO complete; CLEAN sets and ZERO_DONE is raised. (R391) -/
  | zeroComplete
  /-- The SEC command LOCK freezes MEAS0 to MEAS6 and derives CDI and the alias key. (R380) -/
  | lock (t : Tag) (v : Word)
  /-- A security command completes, and CMD_DONE is raised. (R392) -/
  | secCommandDone
  /-- A write of SEC_DECOM with the code blows UDS and the decommission bit. (R379) -/
  | decommission (t : Tag) (v : Word)
  /-- A mailbox HELLO opens or reclaims the driver session. (R401) -/
  | hello (h : MboxHdr) (lo : BitVec 16) (hi : BitVec 16)
  /-- A mailbox RENEW renews the lease. (R400) -/
  | renew (h : MboxHdr)
  /-- A mailbox RECLAIM returns held jobs to the driver. (R410) -/
  | reclaim (h : MboxHdr)
  /-- A mailbox GOODBYE ends the lease at once. (R409) -/
  | goodbye (h : MboxHdr)
  /-- The mailbox creates a queue pair. (R363) -/
  | qpCreate (h : MboxHdr) (role : BitVec 8) (peer : BitVec 24) (psn : BitVec 24) (ip : BitVec 128)
  /-- The mailbox destroys a queue pair. (R400) -/
  | qpDestroy (h : MboxHdr) (n : BitVec 24)
  /-- The mailbox creates a job with its region, resources and error policy. (R404) -/
  | jobCreate (h : MboxHdr) (j : JobSpec)
  /-- The mailbox starts a job. (R400) -/
  | jobStart (h : MboxHdr) (job : BitVec 16)
  /-- The mailbox pauses a job through its tick master. (R405) -/
  | jobPause (h : MboxHdr) (job : BitVec 16)
  /-- The mailbox resumes a job from its latest resume point. (R406) -/
  | jobResume (h : MboxHdr) (job : BitVec 16)
  /-- The mailbox kills a job. (R400) -/
  | jobKill (h : MboxHdr) (job : BitVec 16)
  /-- The mailbox sets an ETH_MR entry other than 255. (R400) -/
  | regionSet (h : MboxHdr) (i : Fin 256) (base : Word) (ctl : Word)
  /-- The mailbox sets the trace enable bitmap. (R403) -/
  | traceSet (h : MboxHdr) (bits : List Word)
  /-- The mailbox returns the trace catalogue. (R400) -/
  | traceInfo (h : MboxHdr)
  /-- The mailbox ATTEST returns an attestation report. (R400) -/
  | mailboxAttest (h : MboxHdr) (nonce : List Byte)
  /-- The mailbox KEY_IMPORT imports a wrapped key and returns its handle. (R400) -/
  | mailboxKeyImport (h : MboxHdr) (rec_ : List Byte)
  /-- The mailbox announces a live update image length. (R411) -/
  | updateBegin (h : MboxHdr) (len : BitVec 32)
  /-- The mailbox writes a piece of the staged image. (R411) -/
  | updateChunk (h : MboxHdr) (offset : BitVec 32) (bytes : List Byte)
  /-- The mailbox checks the staged image and starts the swaps, or refuses. (R411) -/
  | updateCommit (h : MboxHdr)
  /-- The mailbox discards the staged image. (R411) -/
  | updateAbort (h : MboxHdr)
  /-- At a boundary, one changed component is replaced through its state record. (R412) -/
  | componentSwap
  /-- A firmware message arrives in the inbox and is acted on or forwarded along the tree. (R396) -/
  | inboxMessage (x : BitVec 7) (y : BitVec 6) (m : FwMsg)
  /-- The master's scheduler receives a pause request and writes RUN = 0. (R405) -/
  | pauseRequest (job : BitVec 16)
  /-- A component traps, asserts, misses its 10 ms heartbeat or suffers an SRAM error, and is stopped. (R407) -/
  | componentCrash (c : Fin 8) (cause : Fin 4)
  /-- The supervisor restarts a component, or fails and pulls the ripcord. (R408) -/
  | componentRestart (c : Fin 8) (digestOk : Bool)
  /-- A write of GND_CTRL.CORE_RUN releases gondola cores from reset. (R393) -/
  | coreRun (t : Tag) (v : Word)
  /-- A write of GND_LEASE.RENEW reloads the lease. (R409) -/
  | leaseRenew (t : Tag) (v : Word)
  /-- The lease runs out; jobs are paused and the hold begins. (R409) -/
  | leaseExpiry
  /-- A write of GND_HOLD.START starts the hold countdown. (R409) -/
  | holdStart (t : Tag) (v : Word)
  /-- The hold runs out, and every held job is killed. (R410) -/
  | holdExpiry
  /-- A write of GND_WDOG.FEED restarts the watchdog. (R408) -/
  | wdogFeed (t : Tag) (v : Word)
  /-- The watchdog expires; the ripcord is pulled, jobs are killed and the gondola is reset. (R408) -/
  | watchdogExpiry
  /-- An enabled trace point is reached and a rate-limited record is written. (R403) -/
  | tracePoint (t : Fin 1024) (args : List Byte) (full : Bool)
  /-- NVS APPEND journals a record into both copies, compacting when needed. (R429) -/
  | nvsAppend (t : Tag) (v : Word)
  /-- NVS READ writes a class's live records to a buffer. (R435) -/
  | nvsRead (t : Tag) (v : Word)
  /-- A flash command completes with its RESULT. (R429) -/
  | nvsCommandDone (failed : Nat)
  /-- A router finds a flit header parity error, drops the flit and raises a device-fatal error. (R438) -/
  | networkHeaderParity (i : Nat)
  /-- A data byte parity error at the destination port returns an error to the requester. (R438) -/
  | networkDataParity (at_ : ParityAt)
  /-- A write of TEL_CTRL.FATAL_CLR ends the CORE_EN hold and clears the fatal cause. (R439) -/
  | fatalClr (t : Tag) (v : Word)
  /-- A read of TEL_EVQ_LO returns the head record's time and removes the record. (R443) -/
  | evqPop (t : Tag)
  /-- An SMBus byte read; a read of PIN_LO latches PIN_HI. (R467) -/
  | mgmtByteRead (a : BitVec 8)
  /-- An SMBus byte write clears ALERT bits by writing 1. (R467) -/
  | mgmtByteWrite (a : BitVec 8) (v : BitVec 8)
  /-- An uncorrectable SRAM error is found in the Chituell kernel or supervisor data, which is device-fatal with cause 4: ripcord, kill of
  every job and CORE_EN hold. (R439) -/
  | kernelSramUncorrectable
deriving DecidableEq, Repr

end Sys2Proof
end

