-- ==== Sys2Proof/Decode.lean ====
section
/-! DEFINITION. Decoding. No row of the opcode table gives bits, so no word spells a command by the table. The slot instructions of a core have
64-bit words in an image, which are read and written here (R205 to R240). -/

namespace Sys2Proof

/-- The command a word spells by the table's bits: the table gives none. -/
def decodeTableWord (_nbits _w : Nat) : Option Instr := none

/-! ## Fields common to every slot instruction (R205) -/

/-- A one-bit field as a number. -/
def bitNum (b : Bool) : Nat := if b then 1 else 0

/-- Fields put side by side, the lowest first: each a width and a value. -/
def packBits : List (Nat × Nat) → Nat
  | [] => 0
  | (w, v) :: fs => v + 2 ^ w * packBits fs

/-- The word of some fields. -/
def packWord (fs : List (Nat × Nat)) : Word := BitVec.ofNat 64 (packBits fs)

/-- INV, P and SET or HALF of a word. -/
def Head.of (w : Word) : Head := ⟨w.getLsbD 55, w.extractLsb' 52 3, w.getLsbD 51⟩

/-- Bits [63:51], lowest field first. -/
def Head.fields (op : Nat) (h : Head) : List (Nat × Nat) := [(1, bitNum h.set), (3, h.p.toNat), (1, bitNum h.inv), (8, op)]

/-! ## Layouts of bits [50:0] (R211, R221, R228, R234) -/

/-- Fields of a word: SA layout (R211): integer, FP32, compare, predicate logic, SRDS, SLUI. -/
def FmtSA.of (w : Word) : FmtSA := ⟨Head.of w, w.extractLsb' 46 5, w.extractLsb' 41 5, w.getLsbD 40, w.extractLsb' 35 5, w.extractLsb'
  32 3, w.extractLsb' 0 32⟩

/-- The word of an instruction in this layout. -/
def FmtSA.word (op : Nat) (f : FmtSA) : Word :=
  packWord ([(32, f.imm.toNat), (3, f.sub.toNat), (5, f.b.toNat), (1, bitNum f.i), (5, f.a.toNat), (5, f.d.toNat)] ++ f.hd.fields op)

/-- Fields of a word: SM layout (R211): SLD, SST, FLAG.REL, FLAG.ACQ. -/
def FmtSM.of (w : Word) : FmtSM := ⟨Head.of w, w.extractLsb' 49 2, w.extractLsb' 47 2, w.extractLsb' 42 5, w.extractLsb' 37 5,
  w.extractLsb' 32 5, w.extractLsb' 29 3, w.extractLsb' 27 2, w.getLsbD 26, w.extractLsb' 24 2, w.extractLsb' 0 24⟩

/-- The word of an instruction in this layout. -/
def FmtSM.word (op : Nat) (f : FmtSM) : Word :=
  packWord ([(24, f.disp.toNat), (2, f.cond.toNat), (1, bitNum f.sx), (2, f.w.toNat), (3, f.sh.toNat), (5, f.x.toNat), (5, f.b.toNat),
    (5, f.d.toNat), (2, f.upd.toNat), (2, f.space.toNat)] ++ f.hd.fields op)

/-- Fields of a word: SX layout (R211) but for AOP, which the constructor gives. -/
def FmtSX.of (w : Word) : FmtSX := ⟨Head.of w, w.extractLsb' 49 2, w.extractLsb' 47 2, w.extractLsb' 42 5, w.extractLsb' 37 5,
  w.extractLsb' 32 5, w.extractLsb' 27 5, w.getLsbD 23, w.getLsbD 22, w.extractLsb' 0 22⟩

/-- The word of an instruction in this layout. -/
def FmtSX.word (op : Nat) (aop : Nat) (f : FmtSX) : Word :=
  packWord ([(22, f.disp.toNat), (1, bitNum f.fp), (1, bitNum f.w64), (3, aop), (5, f.c.toNat), (5, f.v.toNat), (5, f.b.toNat), (5,
    f.d.toNat), (2, f.upd.toNat), (2, f.space.toNat)] ++ f.hd.fields op)

/-- Fields of a word: SB layout (R211): SBR, SCALL. -/
def FmtSB.of (w : Word) : FmtSB := ⟨Head.of w, w.extractLsb' 11 40, w.extractLsb' 0 11⟩

/-- The word of an instruction in this layout. -/
def FmtSB.word (op : Nat) (f : FmtSB) : Word :=
  packWord ([(11, f.t.toNat), (40, f.rsv.toNat)] ++ f.hd.fields op)

/-- Fields of a word: SL layout (R211): SLOOP; `l` is L − 1. -/
def FmtSL.of (w : Word) : FmtSL := ⟨Head.of w, w.getLsbD 50, w.extractLsb' 45 5, w.extractLsb' 43 2, w.extractLsb' 32 11, w.extractLsb'
  0 32⟩

/-- The word of an instruction in this layout. -/
def FmtSL.word (op : Nat) (f : FmtSL) : Word :=
  packWord ([(32, f.cnt.toNat), (11, f.l.toNat), (2, f.rsv.toNat), (5, f.n.toNat), (1, bitNum f.reg)] ++ f.hd.fields op)

/-- Fields of a word: SW layout (R211): SWAIT. -/
def FmtSW.of (w : Word) : FmtSW := ⟨Head.of w, w.getLsbD 50, w.extractLsb' 45 5, w.extractLsb' 16 29, w.extractLsb' 0 16⟩

/-- The word of an instruction in this layout. -/
def FmtSW.word (op : Nat) (f : FmtSW) : Word :=
  packWord ([(16, f.cnt.toNat), (29, f.rsv.toNat), (5, f.n.toNat), (1, bitNum f.reg)] ++ f.hd.fields op)

/-- Fields of a word: SY layout (R211) but for FORM, which the constructor gives. -/
def FmtSY.of (w : Word) : FmtSY := ⟨Head.of w, w.extractLsb' 45 3, w.extractLsb' 0 45⟩

/-- The word of an instruction in this layout. -/
def FmtSY.word (op : Nat) (form : Nat) (f : FmtSY) : Word :=
  packWord ([(45, f.rsv.toNat), (3, f.mask.toNat), (3, form)] ++ f.hd.fields op)

/-- Fields of a word: S0 layout (R211): SNOP, SRET, FENCE.PUSH, END; also VNOP, MNOP and DNOP. -/
def FmtS0.of (w : Word) : FmtS0 := ⟨Head.of w, w.extractLsb' 0 51⟩

/-- The word of an instruction in this layout. -/
def FmtS0.word (op : Nat) (f : FmtS0) : Word :=
  packWord ([(51, f.rsv.toNat)] ++ f.hd.fields op)

/-- Fields of a word: VA layout (R221); `beats` is BEATS − 1. -/
def FmtVA.of (w : Word) : FmtVA := ⟨Head.of w, w.extractLsb' 48 3, w.extractLsb' 42 6, w.extractLsb' 36 6, w.extractLsb' 30 6,
  w.extractLsb' 24 6, w.extractLsb' 20 4, w.extractLsb' 16 4, w.getLsbD 15, w.getLsbD 14, w.getLsbD 13, w.extractLsb' 10 3,
  w.extractLsb' 0 10⟩

/-- The word of an instruction in this layout. -/
def FmtVA.word (op : Nat) (f : FmtVA) : Word :=
  packWord ([(10, f.lane.toNat), (3, f.sub.toNat), (1, bitNum f.bs), (1, bitNum f.sr), (1, bitNum f.sat), (4, f.fmt2.toNat), (4,
    f.fmt.toNat), (6, f.c.toNat), (6, f.b.toNat), (6, f.a.toNat), (6, f.d.toNat), (3, f.beats.toNat)] ++ f.hd.fields op)

/-- Fields of a word: VM layout (R221): VLD, VST; `beats` is BEATS − 1. -/
def FmtVM.of (w : Word) : FmtVM := ⟨Head.of w, w.extractLsb' 48 3, w.extractLsb' 42 6, w.extractLsb' 40 2, w.extractLsb' 38 2,
  w.extractLsb' 33 5, w.extractLsb' 28 5, w.extractLsb' 25 3, w.extractLsb' 0 25⟩

/-- The word of an instruction in this layout. -/
def FmtVM.word (op : Nat) (f : FmtVM) : Word :=
  packWord ([(25, f.disp.toNat), (3, f.sh.toNat), (5, f.x.toNat), (5, f.b.toNat), (2, f.upd.toNat), (2, f.rsv.toNat), (6, f.v.toNat),
    (3, f.beats.toNat)] ++ f.hd.fields op)

/-- Fields of a word: VC layout (R221): VLDACC, VSTACC; `beats` is BEATS − 1. -/
def FmtVC.of (w : Word) : FmtVC := ⟨Head.of w, w.extractLsb' 48 3, w.extractLsb' 42 6, w.extractLsb' 37 5, w.extractLsb' 26 11,
  w.extractLsb' 0 26⟩

/-- The word of an instruction in this layout. -/
def FmtVC.word (op : Nat) (f : FmtVC) : Word :=
  packWord ([(26, f.rsv.toNat), (11, f.row.toNat), (5, f.r.toNat), (6, f.v.toNat), (3, f.beats.toNat)] ++ f.hd.fields op)

/-- Fields of a word: MLOAD (R228); `klen` and `nlen` are KLEN − 1 and NLEN − 1. -/
def FmtML.of (w : Word) : FmtML := ⟨Head.of w, w.getLsbD 50, w.extractLsb' 45 5, w.extractLsb' 40 5, w.extractLsb' 37 3, w.extractLsb'
  35 2, w.extractLsb' 31 4, w.extractLsb' 24 7, w.extractLsb' 17 7, w.extractLsb' 0 17⟩

/-- The word of an instruction in this layout. -/
def FmtML.word (op : Nat) (f : FmtML) : Word :=
  packWord ([(17, f.disp.toNat), (7, f.nlen.toNat), (7, f.klen.toNat), (4, f.fmt.toNat), (2, f.upd.toNat), (3, f.sh.toNat), (5,
    f.x.toNat), (5, f.b.toNat), (1, bitNum f.k2)] ++ f.hd.fields op)

/-- Fields of a word: MSTREAM and MSTREAM.T (R228). -/
def FmtMS.of (w : Word) : FmtMS := ⟨Head.of w, w.getLsbD 50, w.extractLsb' 45 5, w.extractLsb' 40 5, w.extractLsb' 37 3, w.extractLsb'
  35 2, w.extractLsb' 31 4, w.extractLsb' 26 5, w.extractLsb' 21 5, w.extractLsb' 15 6, w.extractLsb' 0 15⟩

/-- The word of an instruction in this layout. -/
def FmtMS.word (op : Nat) (f : FmtMS) : Word :=
  packWord ([(15, f.disp.toNat), (6, f.stride.toNat), (5, f.r.toNat), (5, f.m.toNat), (4, f.fmt.toNat), (2, f.upd.toNat), (3,
    f.sh.toNat), (5, f.x.toNat), (5, f.b.toNat), (1, bitNum f.acc)] ++ f.hd.fields op)

/-- Fields of a word: MDIST and MDIST.T (R228). -/
def FmtMD.of (w : Word) : FmtMD := ⟨Head.of w, w.getLsbD 50, w.extractLsb' 45 5, w.extractLsb' 40 5, w.extractLsb' 37 3, w.extractLsb'
  35 2, w.extractLsb' 31 4, w.extractLsb' 26 5, w.extractLsb' 21 5, w.extractLsb' 15 6, w.extractLsb' 12 3, w.extractLsb' 0 12⟩

/-- The word of an instruction in this layout. -/
def FmtMD.word (op : Nat) (f : FmtMD) : Word :=
  packWord ([(12, f.disp.toNat), (3, f.form.toNat), (6, f.stride.toNat), (5, f.r.toNat), (5, f.m.toNat), (4, f.fmt.toNat), (2,
    f.upd.toNat), (3, f.sh.toNat), (5, f.x.toNat), (5, f.b.toNat), (1, bitNum f.acc)] ++ f.hd.fields op)

/-- Fields of a word: MSTREAM.OS (R228). -/
def FmtMO.of (w : Word) : FmtMO := ⟨Head.of w, w.getLsbD 50, w.extractLsb' 45 5, w.extractLsb' 40 5, w.extractLsb' 36 4, w.extractLsb'
  32 4, w.extractLsb' 27 5, w.extractLsb' 22 5, w.extractLsb' 16 6, w.extractLsb' 0 16⟩

/-- The word of an instruction in this layout. -/
def FmtMO.word (op : Nat) (f : FmtMO) : Word :=
  packWord ([(16, f.rsv.toNat), (6, f.stride.toNat), (5, f.r.toNat), (5, f.k.toNat), (4, f.fmtb.toNat), (4, f.fmta.toNat), (5,
    f.b.toNat), (5, f.a.toNat), (1, bitNum f.acc)] ++ f.hd.fields op)

/-- Fields of a word: MDRAIN (R228). -/
def FmtMR.of (w : Word) : FmtMR := ⟨Head.of w, w.getLsbD 50, w.extractLsb' 45 5, w.extractLsb' 40 5, w.extractLsb' 35 5, w.extractLsb'
  31 4, w.getLsbD 30, w.extractLsb' 24 6, w.extractLsb' 0 24⟩

/-- The word of an instruction in this layout. -/
def FmtMR.word (op : Nat) (f : FmtMR) : Word :=
  packWord ([(24, f.disp.toNat), (6, f.stride.toNat), (1, bitNum f.sr), (4, f.ofmt.toNat), (5, f.n.toNat), (5, f.r.toNat), (5,
    f.b.toNat), (1, bitNum f.sat)] ++ f.hd.fields op)

/-- Fields of a word: DCOPY (R234). -/
def FmtDC.of (w : Word) : FmtDC := ⟨Head.of w, w.extractLsb' 46 5, w.extractLsb' 41 5, w.extractLsb' 36 5, w.extractLsb' 0 36⟩

/-- The word of an instruction in this layout. -/
def FmtDC.word (op : Nat) (f : FmtDC) : Word :=
  packWord ([(36, f.rsv.toNat), (5, f.n.toNat), (5, f.s.toNat), (5, f.d.toNat)] ++ f.hd.fields op)

/-- Fields of a word: DMOVE (R234). -/
def FmtDM.of (w : Word) : FmtDM := ⟨Head.of w, w.extractLsb' 49 2, w.extractLsb' 47 2, w.extractLsb' 42 5, w.extractLsb' 37 5,
  w.extractLsb' 32 5, w.extractLsb' 29 3, w.extractLsb' 0 29⟩

/-- The word of an instruction in this layout. -/
def FmtDM.word (op : Nat) (f : FmtDM) : Word :=
  packWord ([(29, f.rsv.toNat), (3, f.dc.toNat), (5, f.n.toNat), (5, f.s.toNat), (5, f.d.toNat), (2, f.sspace.toNat), (2,
    f.dspace.toNat)] ++ f.hd.fields op)

/-- Fields of a word: DSTR (R234) but for SUB, which the constructor gives. -/
def FmtDS.of (w : Word) : FmtDS := ⟨Head.of w, w.extractLsb' 46 5, w.extractLsb' 40 3, w.extractLsb' 0 40⟩

/-- The word of an instruction in this layout. -/
def FmtDS.word (op : Nat) (sub : Nat) (f : FmtDS) : Word :=
  packWord ([(40, f.rsv.toNat), (3, f.dc.toNat), (3, sub), (5, f.h.toNat)] ++ f.hd.fields op)

/-- Fields of a word: DWAIT (R234). -/
def FmtDW.of (w : Word) : FmtDW := ⟨Head.of w, w.extractLsb' 48 3, w.getLsbD 47, w.extractLsb' 42 5, w.extractLsb' 32 10, w.extractLsb'
  0 32⟩

/-- The word of an instruction in this layout. -/
def FmtDW.word (op : Nat) (f : FmtDW) : Word :=
  packWord ([(32, f.imm.toNat), (10, f.rsv.toNat), (5, f.a.toNat), (1, bitNum f.i), (3, f.dc.toNat)] ++ f.hd.fields op)

/-- Fields of a word: DFLAGW (R234). -/
def FmtDF.of (w : Word) : FmtDF := ⟨Head.of w, w.extractLsb' 46 5, w.extractLsb' 43 3, w.getLsbD 42, w.extractLsb' 36 6, w.extractLsb' 0
  36⟩

/-- The word of an instruction in this layout. -/
def FmtDF.word (op : Nat) (f : FmtDF) : Word :=
  packWord ([(36, f.rsv.toNat), (6, f.slot.toNat), (1, bitNum f.val), (3, f.flag.toNat), (5, f.h.toNat)] ++ f.hd.fields op)

/-! ## Opcodes (R206, R212, R222, R228, R234) -/

/-- The command a slot word issues on a core; none for an unassigned opcode, or a reserved code of SYNC, ATOM or DSTR (R207). -/
def decodeSlot (n : CoreId) (w : Word) : Option Instr :=
  match (w.extractLsb' 56 8).toNat with
  | 0x00 => some (.snop n (.of w))
  | 0x01 => some (.sadd n (.of w))
  | 0x02 => some (.ssub n (.of w))
  | 0x03 => some (.sand n (.of w))
  | 0x04 => some (.sor n (.of w))
  | 0x05 => some (.sxor n (.of w))
  | 0x06 => some (.sshl n (.of w))
  | 0x07 => some (.sshr n (.of w))
  | 0x08 => some (.ssra n (.of w))
  | 0x09 => some (.smin n (.of w))
  | 0x0A => some (.smax n (.of w))
  | 0x0B => some (.sminu n (.of w))
  | 0x0C => some (.smaxu n (.of w))
  | 0x0D => some (.slui n (.of w))
  | 0x10 => some (.smul n (.of w))
  | 0x11 => some (.smulh n (.of w))
  | 0x12 => some (.smulhu n (.of w))
  | 0x13 => some (.sdiv n (.of w))
  | 0x14 => some (.sdivu n (.of w))
  | 0x15 => some (.srem n (.of w))
  | 0x16 => some (.sremu n (.of w))
  | 0x18 => some (.scmp n (.of w))
  | 0x19 => some (.plog n (.of w))
  | 0x1A => some (.sfadd n (.of w))
  | 0x1B => some (.sfsub n (.of w))
  | 0x1C => some (.sfmul n (.of w))
  | 0x1D => some (.sfma n (.of w))
  | 0x1E => some (.sfcvt n (.of w))
  | 0x1F => some (.sfcmp n (.of w))
  | 0x20 => some (.sld n (.of w))
  | 0x21 => some (.sst n (.of w))
  | 0x22 => some (.srds n (.of w))
  | 0x28 => some (.sbr n (.of w))
  | 0x29 => some (.scall n (.of w))
  | 0x2A => some (.sret n (.of w))
  | 0x2B => some (.sloop n (.of w))
  | 0x2C => some (.swait n (.of w))
  | 0x30 => match (w.extractLsb' 48 3).toNat with
    | 0 => some (.syncTick n (.of w))
    | 1 => some (.syncEng n (.of w))
    | 2 => some (.syncFrame n (.of w))
    | _ => none
  | 0x31 => some (.fencePush n (.of w))
  | 0x32 => some (.flagRel n (.of w))
  | 0x33 => some (.flagAcq n (.of w))
  | 0x34 => match (w.extractLsb' 24 3).toNat with
    | 0 => some (.atomAdd n (.of w))
    | 1 => some (.atomMin n (.of w))
    | 2 => some (.atomMax n (.of w))
    | 3 => some (.atomMinu n (.of w))
    | 4 => some (.atomMaxu n (.of w))
    | 5 => some (.atomSwap n (.of w))
    | 6 => some (.atomCas n (.of w))
    | _ => none
  | 0x3F => some (.endKernel n (.of w))
  | 0x40 => some (.vnop n (.of w))
  | 0x41 => some (.vadd n (.of w))
  | 0x42 => some (.vsub n (.of w))
  | 0x43 => some (.vmul n (.of w))
  | 0x44 => some (.vfma n (.of w))
  | 0x45 => some (.vmin n (.of w))
  | 0x46 => some (.vmax n (.of w))
  | 0x47 => some (.vabs n (.of w))
  | 0x48 => some (.vneg n (.of w))
  | 0x49 => some (.vand n (.of w))
  | 0x4A => some (.vor n (.of w))
  | 0x4B => some (.vxor n (.of w))
  | 0x4C => some (.vshl n (.of w))
  | 0x4D => some (.vshr n (.of w))
  | 0x4E => some (.vsra n (.of w))
  | 0x4F => some (.vcmp n (.of w))
  | 0x50 => some (.vsel n (.of w))
  | 0x51 => some (.vcvt n (.of w))
  | 0x52 => some (.vred n (.of w))
  | 0x53 => some (.vbcast n (.of w))
  | 0x54 => some (.vext n (.of w))
  | 0x55 => some (.vdiv n (.of w))
  | 0x56 => some (.vsqrt n (.of w))
  | 0x58 => some (.vrcp n (.of w))
  | 0x59 => some (.vrsqrt n (.of w))
  | 0x5A => some (.vexp2 n (.of w))
  | 0x5B => some (.vexp n (.of w))
  | 0x5C => some (.vlog2 n (.of w))
  | 0x5D => some (.vlog n (.of w))
  | 0x5E => some (.vsin n (.of w))
  | 0x5F => some (.vcos n (.of w))
  | 0x60 => some (.vtanh n (.of w))
  | 0x61 => some (.vsigm n (.of w))
  | 0x62 => some (.verf n (.of w))
  | 0x68 => some (.vseed n (.of w))
  | 0x70 => some (.vld n (.of w))
  | 0x71 => some (.vst n (.of w))
  | 0x72 => some (.vldacc n (.of w))
  | 0x73 => some (.vstacc n (.of w))
  | 0x80 => some (.mnop n (.of w))
  | 0x81 => some (.mload n (.of w))
  | 0x82 => some (.mstream n (.of w))
  | 0x83 => some (.mstreamT n (.of w))
  | 0x84 => some (.mstreamOs n (.of w))
  | 0x85 => some (.mdist n (.of w))
  | 0x86 => some (.mdistT n (.of w))
  | 0x87 => some (.mdrain n (.of w))
  | 0xA0 => some (.dnop n (.of w))
  | 0xA1 => some (.dcopy n (.of w))
  | 0xA2 => some (.dmove n (.of w))
  | 0xA3 => match (w.extractLsb' 43 3).toNat with
    | 0 => some (.dstrPush n (.of w))
    | 1 => some (.dstrArm n (.of w))
    | 2 => some (.dstrCancel n (.of w))
    | _ => none
  | 0xA4 => some (.dwait n (.of w))
  | 0xA5 => some (.dflagw n (.of w))
  | _ => none

/-- The word of a slot instruction; none for any other command. -/
def encodeSlot (i : Instr) : Option Word :=
  match i with
  | .snop _ f => some (f.word 0x00)
  | .sadd _ f => some (f.word 0x01)
  | .ssub _ f => some (f.word 0x02)
  | .sand _ f => some (f.word 0x03)
  | .sor _ f => some (f.word 0x04)
  | .sxor _ f => some (f.word 0x05)
  | .sshl _ f => some (f.word 0x06)
  | .sshr _ f => some (f.word 0x07)
  | .ssra _ f => some (f.word 0x08)
  | .smin _ f => some (f.word 0x09)
  | .smax _ f => some (f.word 0x0A)
  | .sminu _ f => some (f.word 0x0B)
  | .smaxu _ f => some (f.word 0x0C)
  | .slui _ f => some (f.word 0x0D)
  | .smul _ f => some (f.word 0x10)
  | .smulh _ f => some (f.word 0x11)
  | .smulhu _ f => some (f.word 0x12)
  | .sdiv _ f => some (f.word 0x13)
  | .sdivu _ f => some (f.word 0x14)
  | .srem _ f => some (f.word 0x15)
  | .sremu _ f => some (f.word 0x16)
  | .scmp _ f => some (f.word 0x18)
  | .plog _ f => some (f.word 0x19)
  | .sfadd _ f => some (f.word 0x1A)
  | .sfsub _ f => some (f.word 0x1B)
  | .sfmul _ f => some (f.word 0x1C)
  | .sfma _ f => some (f.word 0x1D)
  | .sfcvt _ f => some (f.word 0x1E)
  | .sfcmp _ f => some (f.word 0x1F)
  | .sld _ f => some (f.word 0x20)
  | .sst _ f => some (f.word 0x21)
  | .srds _ f => some (f.word 0x22)
  | .sbr _ f => some (f.word 0x28)
  | .scall _ f => some (f.word 0x29)
  | .sret _ f => some (f.word 0x2A)
  | .sloop _ f => some (f.word 0x2B)
  | .swait _ f => some (f.word 0x2C)
  | .syncTick _ f => some (f.word 0x30 0)
  | .syncEng _ f => some (f.word 0x30 1)
  | .syncFrame _ f => some (f.word 0x30 2)
  | .fencePush _ f => some (f.word 0x31)
  | .flagRel _ f => some (f.word 0x32)
  | .flagAcq _ f => some (f.word 0x33)
  | .atomAdd _ f => some (f.word 0x34 0)
  | .atomMin _ f => some (f.word 0x34 1)
  | .atomMax _ f => some (f.word 0x34 2)
  | .atomMinu _ f => some (f.word 0x34 3)
  | .atomMaxu _ f => some (f.word 0x34 4)
  | .atomSwap _ f => some (f.word 0x34 5)
  | .atomCas _ f => some (f.word 0x34 6)
  | .endKernel _ f => some (f.word 0x3F)
  | .vnop _ f => some (f.word 0x40)
  | .vadd _ f => some (f.word 0x41)
  | .vsub _ f => some (f.word 0x42)
  | .vmul _ f => some (f.word 0x43)
  | .vfma _ f => some (f.word 0x44)
  | .vmin _ f => some (f.word 0x45)
  | .vmax _ f => some (f.word 0x46)
  | .vabs _ f => some (f.word 0x47)
  | .vneg _ f => some (f.word 0x48)
  | .vand _ f => some (f.word 0x49)
  | .vor _ f => some (f.word 0x4A)
  | .vxor _ f => some (f.word 0x4B)
  | .vshl _ f => some (f.word 0x4C)
  | .vshr _ f => some (f.word 0x4D)
  | .vsra _ f => some (f.word 0x4E)
  | .vcmp _ f => some (f.word 0x4F)
  | .vsel _ f => some (f.word 0x50)
  | .vcvt _ f => some (f.word 0x51)
  | .vred _ f => some (f.word 0x52)
  | .vbcast _ f => some (f.word 0x53)
  | .vext _ f => some (f.word 0x54)
  | .vdiv _ f => some (f.word 0x55)
  | .vsqrt _ f => some (f.word 0x56)
  | .vrcp _ f => some (f.word 0x58)
  | .vrsqrt _ f => some (f.word 0x59)
  | .vexp2 _ f => some (f.word 0x5A)
  | .vexp _ f => some (f.word 0x5B)
  | .vlog2 _ f => some (f.word 0x5C)
  | .vlog _ f => some (f.word 0x5D)
  | .vsin _ f => some (f.word 0x5E)
  | .vcos _ f => some (f.word 0x5F)
  | .vtanh _ f => some (f.word 0x60)
  | .vsigm _ f => some (f.word 0x61)
  | .verf _ f => some (f.word 0x62)
  | .vseed _ f => some (f.word 0x68)
  | .vld _ f => some (f.word 0x70)
  | .vst _ f => some (f.word 0x71)
  | .vldacc _ f => some (f.word 0x72)
  | .vstacc _ f => some (f.word 0x73)
  | .mnop _ f => some (f.word 0x80)
  | .mload _ f => some (f.word 0x81)
  | .mstream _ f => some (f.word 0x82)
  | .mstreamT _ f => some (f.word 0x83)
  | .mstreamOs _ f => some (f.word 0x84)
  | .mdist _ f => some (f.word 0x85)
  | .mdistT _ f => some (f.word 0x86)
  | .mdrain _ f => some (f.word 0x87)
  | .dnop _ f => some (f.word 0xA0)
  | .dcopy _ f => some (f.word 0xA1)
  | .dmove _ f => some (f.word 0xA2)
  | .dstrPush _ f => some (f.word 0xA3 0)
  | .dstrArm _ f => some (f.word 0xA3 1)
  | .dstrCancel _ f => some (f.word 0xA3 2)
  | .dwait _ f => some (f.word 0xA4)
  | .dflagw _ f => some (f.word 0xA5)
  | _ => none

/-- The core a slot instruction issues on; none for any other command. -/
def slotCore (i : Instr) : Option CoreId :=
  match i with
  | .snop n _ => some n
  | .sadd n _ => some n
  | .ssub n _ => some n
  | .sand n _ => some n
  | .sor n _ => some n
  | .sxor n _ => some n
  | .sshl n _ => some n
  | .sshr n _ => some n
  | .ssra n _ => some n
  | .smin n _ => some n
  | .smax n _ => some n
  | .sminu n _ => some n
  | .smaxu n _ => some n
  | .slui n _ => some n
  | .smul n _ => some n
  | .smulh n _ => some n
  | .smulhu n _ => some n
  | .sdiv n _ => some n
  | .sdivu n _ => some n
  | .srem n _ => some n
  | .sremu n _ => some n
  | .scmp n _ => some n
  | .plog n _ => some n
  | .sfadd n _ => some n
  | .sfsub n _ => some n
  | .sfmul n _ => some n
  | .sfma n _ => some n
  | .sfcvt n _ => some n
  | .sfcmp n _ => some n
  | .sld n _ => some n
  | .sst n _ => some n
  | .srds n _ => some n
  | .sbr n _ => some n
  | .scall n _ => some n
  | .sret n _ => some n
  | .sloop n _ => some n
  | .swait n _ => some n
  | .syncTick n _ => some n
  | .syncEng n _ => some n
  | .syncFrame n _ => some n
  | .fencePush n _ => some n
  | .flagRel n _ => some n
  | .flagAcq n _ => some n
  | .atomAdd n _ => some n
  | .atomMin n _ => some n
  | .atomMax n _ => some n
  | .atomMinu n _ => some n
  | .atomMaxu n _ => some n
  | .atomSwap n _ => some n
  | .atomCas n _ => some n
  | .endKernel n _ => some n
  | .vnop n _ => some n
  | .vadd n _ => some n
  | .vsub n _ => some n
  | .vmul n _ => some n
  | .vfma n _ => some n
  | .vmin n _ => some n
  | .vmax n _ => some n
  | .vabs n _ => some n
  | .vneg n _ => some n
  | .vand n _ => some n
  | .vor n _ => some n
  | .vxor n _ => some n
  | .vshl n _ => some n
  | .vshr n _ => some n
  | .vsra n _ => some n
  | .vcmp n _ => some n
  | .vsel n _ => some n
  | .vcvt n _ => some n
  | .vred n _ => some n
  | .vbcast n _ => some n
  | .vext n _ => some n
  | .vdiv n _ => some n
  | .vsqrt n _ => some n
  | .vrcp n _ => some n
  | .vrsqrt n _ => some n
  | .vexp2 n _ => some n
  | .vexp n _ => some n
  | .vlog2 n _ => some n
  | .vlog n _ => some n
  | .vsin n _ => some n
  | .vcos n _ => some n
  | .vtanh n _ => some n
  | .vsigm n _ => some n
  | .verf n _ => some n
  | .vseed n _ => some n
  | .vld n _ => some n
  | .vst n _ => some n
  | .vldacc n _ => some n
  | .vstacc n _ => some n
  | .mnop n _ => some n
  | .mload n _ => some n
  | .mstream n _ => some n
  | .mstreamT n _ => some n
  | .mstreamOs n _ => some n
  | .mdist n _ => some n
  | .mdistT n _ => some n
  | .mdrain n _ => some n
  | .dnop n _ => some n
  | .dcopy n _ => some n
  | .dmove n _ => some n
  | .dstrPush n _ => some n
  | .dstrArm n _ => some n
  | .dstrCancel n _ => some n
  | .dwait n _ => some n
  | .dflagw n _ => some n
  | _ => none

end Sys2Proof
end

