-- ==== Sys2Proof/Config.lean ====
section
/-! DEFINITION. What an implementation fixes, and the free values: constants without a body, so that no proof can rest on one of their values. -/

namespace Sys2Proof.Config

/-- A free byte, one for each value of the free counter (log 2): contents the manual calls unspecified. -/
opaque freeByte : Nat → Byte

/-- A free 64-bit word (log 2). -/
opaque freeWord : Nat → Word

/-- What a byte of HBM holds after the n-th change of the interleave, until it is written (R317). -/
opaque hbmByte : Nat → Nat → Byte

/-- The FP32 result of a transcendental instruction (function number, input bits), before the special cases and
the bound of R167 are applied (log 9). -/
opaque transcendental : Nat → Nat → Nat

/-- Receive buffers, in frames, of a virtual lane of a port (R343 gives each lane its own and no number; log 22). -/
opaque laneBuffers : Nat → Nat

/-- Resends of a queue pair before it enters the error state (R359, R368 give no number; log 26). -/
opaque retryLimit : Nat

/-- SHAKE256 with the given number of output bytes (R375; FIPS 202 is not in the manual, log 10). -/
opaque shake256 : List Byte → Nat → List Byte

/-- Ed448 public key of a seed, signature of a message by a seed, and verification (R375, log 10). -/
opaque ed448Public : List Byte → List Byte
opaque ed448Sign : List Byte → List Byte → List Byte
opaque ed448Verify : List Byte → List Byte → List Byte → Bool

/-- X448 of a private and a public key (R375, log 10). -/
opaque x448 : List Byte → List Byte → List Byte
/-- The X448 public key of a private key (log 10). -/
opaque x448Public : List Byte → List Byte

/-- Byte i of the AES-256-GCM key stream under a key and nonce, and the 128-bit tag of a key, nonce, additional data and plain text (R375; the
cipher itself is not in the manual, log 10). -/
opaque gcmPad : List Byte → List Byte → Nat → Byte
opaque gcmTagWord : List Byte → List Byte → List Byte → List Byte → BitVec 128

/-- Bytes under the key stream from its byte i on. -/
def gcmPads (key nonce : List Byte) : Nat → List Byte → List Byte
  | _, [] => []
  | i, b :: bs => (b ^^^ gcmPad key nonce i) :: gcmPads key nonce (i + 1) bs

/-- AES-256-GCM (R375): the key stream covers the text in either direction; the additional data goes into the tag alone. -/
def gcmEncrypt (key nonce _aad text : List Byte) : List Byte := gcmPads key nonce 0 text
def gcmDecrypt (key nonce _aad text : List Byte) : List Byte := gcmPads key nonce 0 text
def gcmTag (key nonce aad text : List Byte) : List Byte := leBytes 16 (gcmTagWord key nonce aad text).toNat

/-- The certificate an identity seed signs for a public key (X.509, R380; log 10). -/
opaque certificate : List Byte → List Byte → List Byte

/-- Whether a DER certificate chain is valid to the root hash, and the public key its leaf carries (R378, log 10). -/
opaque chainValid : List Byte → List Byte → Bool
opaque chainKey : List Byte → List Byte

end Sys2Proof.Config
end

