-- ==== Sys2Proof/Machine/Num.lean ====
section
/-! DEFINITION. Number formats and numerics (07_numerics.md): exact dyadic values, the formats of R159, rounding under R169 to R173
and the arithmetic of R162 to R166. -/

namespace Sys2Proof.Machine

/-- A number of a float format: NaN, an infinity, or (−1)^neg × m × 2^e exactly. -/
inductive Fval where
  | nan
  | inf (neg : Bool)
  | fin (neg : Bool) (m : Nat) (e : Int)
deriving DecidableEq, Repr

/-- A float format (R159, Table 1): exponent and mantissa bits, bias, the magnitude code of the largest finite value, and the codes of
infinity and of the canonical NaN (R160), `none` where the format has none. -/
structure FloatFmt where
  eb : Nat
  mb : Nat
  bias : Nat
  maxCode : Nat
  infCode : Option Nat
  nanCode : Option Nat
deriving DecidableEq, Repr

/-- FP32, BF16, FP16, E5M2, E4M3 and the float elements of the microscaling formats (R159). -/
def fmtFP32 : FloatFmt := ⟨8, 23, 127, 0x7F7FFFFF, some 0x7F800000, some 0x7FC00000⟩
def fmtBF16 : FloatFmt := ⟨8, 7, 127, 0x7F7F, some 0x7F80, some 0x7FC0⟩
def fmtFP16 : FloatFmt := ⟨5, 10, 15, 0x7BFF, some 0x7C00, some 0x7E00⟩
def fmtE5M2 : FloatFmt := ⟨5, 2, 15, 0x7B, some 0x7C, some 0x7E⟩
def fmtE4M3 : FloatFmt := ⟨4, 3, 7, 0x7E, none, some 0x7F⟩
def fmtE3M2 : FloatFmt := ⟨3, 2, 3, 0x1F, none, none⟩
def fmtE2M3 : FloatFmt := ⟨2, 3, 1, 0x1F, none, none⟩
def fmtE2M1 : FloatFmt := ⟨2, 1, 1, 0x7, none, none⟩

/-- Decode the bits of a float format (R159). -/
def FloatFmt.decode (f : FloatFmt) (bits : Nat) : Fval :=
  let mag := bits % 2 ^ (f.eb + f.mb)
  let neg := bitOf bits (f.eb + f.mb)
  if f.maxCode < mag then (if f.infCode = some mag then .inf neg else .nan)
  else
    let ex := mag / 2 ^ f.mb
    let ma := mag % 2 ^ f.mb
    if ex = 0 then .fin neg ma (1 - (f.bias : Int) - f.mb)
    else .fin neg (2 ^ f.mb + ma) ((ex : Int) - f.bias - f.mb)

/-- How an inexact result rounds: to nearest even, or stochastically with the 24-bit value of R171. -/
inductive Rnd where
  | even
  | stoch (r : Nat)
deriving DecidableEq, Repr

/-- Round m × 2^e to a multiple of 2^u; the result counts units of 2^u (R169, R173). -/
def roundUnits (rnd : Rnd) (m : Nat) (e u : Int) : Nat :=
  if u ≤ e then m * 2 ^ (e - u).toNat
  else
    let d := (u - e).toNat
    let q := m / 2 ^ d
    let f := m % 2 ^ d
    match rnd with
    | .even =>
      let h := 2 ^ (d - 1)
      if f > h ∨ (f = h ∧ q % 2 = 1) then q + 1 else q
    | .stoch r =>
      let f' := if d ≤ 24 then f + r / 2 ^ (24 - d) else f + r * 2 ^ (d - 24)
      if 2 ^ d ≤ f' then q + 1 else q

/-- floor(log2 (m × 2^e)) for m ≠ 0. -/
def Fval.exponent (m : Nat) (e : Int) : Int := (Nat.log2 m : Int) + e

/-- The sign bit in place. -/
def FloatFmt.sign (f : FloatFmt) (neg : Bool) : Nat := b2n neg * 2 ^ (f.eb + f.mb)

/-- Encode a value, rounding once (R169). `sat` selects the saturating behaviour of Table 3. -/
def FloatFmt.encode (f : FloatFmt) (sat : Bool) (rnd : Rnd) : Fval → Nat
  | .nan => f.nanCode.getD 0
  | .inf neg =>
    match f.infCode with
    | some c => f.sign neg + c
    | none => match f.nanCode with
      | some c => if sat then f.sign neg + f.maxCode else c
      | none => f.sign neg + f.maxCode
  | .fin neg m e =>
    if m = 0 then f.sign neg
    else
      let emin : Int := 1 - (f.bias : Int)
      let u := max (Fval.exponent m e) emin - f.mb
      let code := (u - (emin - f.mb)).toNat * 2 ^ f.mb + roundUnits rnd m e u
      if code ≤ f.maxCode then f.sign neg + code
      else if sat then f.sign neg + f.maxCode
      else match f.infCode with
        | some c => f.sign neg + c
        | none => f.nanCode.getD (f.sign neg + f.maxCode)

/-- Round to FP32, to nearest even, with overflow to an infinity (R162, R165). -/
def toFP32 (v : Fval) : Nat := fmtFP32.encode false .even v
/-- The value of FP32 bits. -/
def ofFP32 (b : Nat) : Fval := fmtFP32.decode b

/-- Sign change. -/
def Fval.neg : Fval → Fval
  | .nan => .nan
  | .inf n => .inf (!n)
  | .fin n m e => .fin (!n) m e

/-- Exact product; the product of a zero and an infinity is NaN (R164, R165). -/
def Fval.mul : Fval → Fval → Fval
  | .nan, _ => .nan
  | _, .nan => .nan
  | .inf a, .inf b => .inf (a != b)
  | .inf a, .fin b m _ => if m = 0 then .nan else .inf (a != b)
  | .fin a m _, .inf b => if m = 0 then .nan else .inf (a != b)
  | .fin a m e, .fin b n f => .fin (a != b) (m * n) (e + f)

/-- The signed significand of a finite value at exponent e0 ≤ e. -/
def signedAt (neg : Bool) (m : Nat) (e e0 : Int) : Int :=
  let k : Int := (m * 2 ^ (e - e0).toNat : Nat)
  if neg then -k else k

/-- Exact sum; +∞ with −∞ is NaN, and an exact zero sum is +0 unless both are −0 (R164, R165). -/
def Fval.add : Fval → Fval → Fval
  | .nan, _ => .nan
  | _, .nan => .nan
  | .inf a, .inf b => if a = b then .inf a else .nan
  | .inf a, .fin _ _ _ => .inf a
  | .fin _ _ _, .inf b => .inf b
  | .fin a m e, .fin b n f =>
    let e0 := min e f
    let k := signedAt a m e e0 + signedAt b n f e0
    if k = 0 then .fin (a && b) 0 e0 else .fin (decide (k < 0)) k.natAbs e0

/-- Exact a × b + c. -/
def Fval.fma (a b c : Fval) : Fval := (a.mul b).add c

/-- Quotient with enough bits and a sticky bit that one later rounding is correct (R165). -/
def Fval.div : Fval → Fval → Fval
  | .nan, _ => .nan
  | _, .nan => .nan
  | .inf _, .inf _ => .nan
  | .inf a, .fin b _ _ => .inf (a != b)
  | .fin a _ _, .inf b => .fin (a != b) 0 0
  | .fin a m e, .fin b n f =>
    if n = 0 then (if m = 0 then .nan else .inf (a != b))
    else
      let k := 64 + Nat.log2 n
      let q := m * 2 ^ k / n
      .fin (a != b) (2 * q + b2n (m * 2 ^ k % n != 0)) (e - f - k - 1)

/-- Integer square root, one bit at a time from bit k − 1. -/
def isqrt : Nat → Nat → Nat → Nat
  | 0, _, r => r
  | k + 1, x, r => if (r + 2 ^ k) * (r + 2 ^ k) ≤ x then isqrt k x (r + 2 ^ k) else isqrt k x r

/-- Square root with a sticky bit (R165). -/
def Fval.sqrt : Fval → Fval
  | .nan => .nan
  | .inf neg => if neg then .nan else .inf false
  | .fin neg m e =>
    if m = 0 then .fin neg 0 e
    else if neg then .nan
    else
      let m' := if e % 2 = 0 then m * 2 ^ 64 else m * 2 ^ 65
      let e' := if e % 2 = 0 then e - 64 else e - 65
      let r := isqrt (Nat.log2 m' / 2 + 1) m' 0
      .fin false (2 * r + b2n (r * r != m')) (e' / 2 - 1)

/-- Order of two numbers that are not NaN, −0 below +0. -/
def Fval.key : Fval → Int × Nat × Int
  | .nan => (0, 0, 0)
  | .inf neg => (if neg then -2 else 2, 0, 0)
  | .fin neg m e => (if neg then -1 else 1, m, e)

/-- a < b as real numbers (zeros equal); false with a NaN. -/
def Fval.lt (a b : Fval) : Bool :=
  match a, b with
  | .nan, _ => false
  | _, .nan => false
  | .inf x, .inf y => x && !y
  | .inf x, .fin _ _ _ => x
  | .fin _ _ _, .inf y => !y
  | .fin x m e, .fin y n f => decide (signedAt x m e (min e f) < signedAt y n f (min e f))

/-- a = b as real numbers (zeros equal); false with a NaN. -/
def Fval.eq (a b : Fval) : Bool :=
  match a, b with
  | .inf x, .inf y => x == y
  | .fin x m e, .fin y n f => decide (signedAt x m e (min e f) = signedAt y n f (min e f))
  | _, _ => false

/-- Whether a number is NaN. -/
def Fval.isNan : Fval → Bool
  | .nan => true
  | _ => false

/-- Whether a number is an infinity or NaN. -/
def Fval.special : Fval → Bool
  | .fin _ _ _ => false
  | _ => true

/-- Whether a number is a zero. -/
def Fval.isZero : Fval → Bool
  | .fin _ m _ => m == 0
  | _ => false

/-- Sign of a number. -/
def Fval.sgn : Fval → Bool
  | .nan => false
  | .inf n => n
  | .fin n _ _ => n

/-- maximumNumber and minimumNumber (R165): a NaN gives way to the other operand, −0 lies below +0. -/
def Fval.maxNum (a b : Fval) : Fval :=
  if a.isNan then b else if b.isNan then a
  else if a.lt b then b else if b.lt a then a
  else if a.sgn && !b.sgn then b else a
def Fval.minNum (a b : Fval) : Fval :=
  if a.isNan then b else if b.isNan then a
  else if a.lt b then a else if b.lt a then b
  else if a.sgn then a else b

/-- Round a number to an integer, to nearest even, saturating to [lo, hi]; NaN gives 0 (R213, R224). -/
def Fval.toInt (rnd : Rnd) (lo hi : Int) : Fval → Int
  | .nan => 0
  | .inf neg => if neg then lo else hi
  | .fin neg m e =>
    let k : Int := (roundUnits rnd m e 0 : Nat)
    max lo (min hi (if neg then -k else k))

/-- An integer as an exact number. -/
def Fval.ofInt (k : Int) : Fval := .fin (decide (k < 0)) k.natAbs 0

/-! FP32 operations on bits (R165). -/
def fp32Add (a b : Nat) : Nat := toFP32 ((ofFP32 a).add (ofFP32 b))
def fp32Sub (a b : Nat) : Nat := toFP32 ((ofFP32 a).add (ofFP32 b).neg)
def fp32Mul (a b : Nat) : Nat := toFP32 ((ofFP32 a).mul (ofFP32 b))
def fp32Fma (a b c : Nat) : Nat := toFP32 (Fval.fma (ofFP32 a) (ofFP32 b) (ofFP32 c))
def fp32Div (a b : Nat) : Nat := toFP32 ((ofFP32 a).div (ofFP32 b))
def fp32Sqrt (a : Nat) : Nat := toFP32 (ofFP32 a).sqrt
def fp32Min (a b : Nat) : Nat := toFP32 ((ofFP32 a).minNum (ofFP32 b))
def fp32Max (a b : Nat) : Nat := toFP32 ((ofFP32 a).maxNum (ofFP32 b))

/-! ## Format codes (R209, Table 3) -/

/-- The float format of a code: 0 E4M3, 1 E5M2, 2 E2M3, 3 E3M2, 5 E2M1, 7 BF16, 8 FP16, 9 FP32. -/
def floatOf : Nat → Option FloatFmt
  | 0 => some fmtE4M3
  | 1 => some fmtE5M2
  | 2 => some fmtE2M3
  | 3 => some fmtE3M2
  | 5 => some fmtE2M1
  | 7 => some fmtBF16
  | 8 => some fmtFP16
  | 9 => some fmtFP32
  | _ => none

/-- Bits of one element of a format code. -/
def elemBits : Nat → Nat
  | 0 => 8
  | 1 => 8
  | 2 => 6
  | 3 => 6
  | 4 => 8
  | 5 => 4
  | 6 => 8
  | 7 => 16
  | 8 => 16
  | _ => 32

/-- Whether a code is a microscaling format (R161). -/
def isMX (c : Nat) : Bool := c == 2 || c == 3 || c == 4 || c == 5

/-- The value of one element: a float, MXINT8 with its implicit 2⁻⁶, INT8 or INT32 (R159). -/
def elemDecode (c bits : Nat) : Fval :=
  match floatOf c with
  | some f => f.decode bits
  | none =>
    if c = 4 then (let k := signed 8 bits; .fin (decide (k < 0)) k.natAbs (-6))
    else if c = 6 then Fval.ofInt (signed 8 bits)
    else Fval.ofInt (signed 32 bits)

/-- One element narrowed to a format code (R169, Table 3; INT32 under R224). -/
def elemEncode (c : Nat) (sat : Bool) (rnd : Rnd) (v : Fval) : Nat :=
  match floatOf c with
  | some f => f.encode sat rnd v
  | none =>
    if c = 4 then
      match v with
      | .fin neg m e =>
        let k : Int := (roundUnits rnd m e (-6) : Nat)
        wrap 8 (max (-127) (min 127 (if neg then -k else k)))
      | _ => 0
    else if c = 6 then wrap 8 (v.toInt rnd (-128) 127)
    else wrap 32 (v.toInt rnd (-2147483648) 2147483647)

/-- Multiply by a power of two exactly. -/
def Fval.scale (k : Int) : Fval → Fval
  | .fin n m e => .fin n m (e + k)
  | v => v

/-- An element of a microscaling block widens as value × 2^(s − 127); scale 0xFF is a NaN block (R161, R168). -/
def mxDecode (c s bits : Nat) : Fval :=
  if s = 0xFF then .nan else (elemDecode c bits).scale ((s : Int) - 127)

/-- Exponent of a microscaling element format's largest finite value (R170). -/
def mxEmax : Nat → Int
  | 2 => 2
  | 3 => 4
  | 5 => 2
  | _ => 0

/-- Greatest exponent floor(log2 |v|) over a block, `none` when every value is zero. -/
def blockExp : List Fval → Option Int
  | [] => none
  | .fin _ m e :: vs =>
    if m = 0 then blockExp vs
    else match blockExp vs with
      | none => some (Fval.exponent m e)
      | some x => some (max x (Fval.exponent m e))
  | _ :: vs => blockExp vs

/-- The scale of a block of 32 FP32 values: 0xFF for a block that holds a NaN or an infinity, 0 for a block of zeros (R170). -/
def mxScale (c : Nat) (vs : List Fval) : Nat :=
  if vs.any Fval.special then 0xFF
  else match blockExp vs with
    | none => 0
    | some x => (max (-127) (min 127 (x - mxEmax c)) + 127).toNat

/-- One element of a block with the given scale (R170). -/
def mxElem (c s : Nat) (rnd : Rnd) (v : Fval) : Nat :=
  if s = 0xFF then 0
  else if v.isZero then elemEncode c true .even v
  else elemEncode c true rnd (v.scale (127 - (s : Int)))

/-! ## Stochastic rounding (R171) -/

/-- Advance one Galois generator. -/
def genNext (st : Nat) : Nat := if st % 2 = 1 then (st / 2) ^^^ 0xE10000 else st / 2

/-- The state generator i is loaded with for the operand s (R172); never 0. -/
def genSeed (s i : Nat) : Nat :=
  let x := (s ^^^ (i * 0x010101)) % 2 ^ 24
  if x = 0 then 0xFFFFFF else x

end Sys2Proof.Machine
end

