-- ==== Sys2Proof/Machine/RegMap.lean ====
section
/-! DEFINITION. The register map: the key of every register (its offset within the register space, R448, or a key of its own for
each instance of a register that a select register shows one at a time), its fields, its write masks and its reset value.
The names, bits, access codes and resets are those of the chapters' register tables and of Table 2 of the register map (R452). -/

namespace Sys2Proof.Machine

/-- A field of a register: the register's key and the field's bit range. -/
structure Fld where
  reg : Nat
  hi : Nat
  lo : Nat
deriving DecidableEq, Repr

/-- One row of the register map. `vis` is the offset of instance 0 in the register space, `base` its key; instances lie `stride` apart.
`one` rows show only the instance that a select register names. `rw`, `w1c`, `wo` are the bits of each access code (R7). -/
structure RegRow where
  vis : Nat
  base : Nat
  stride : Nat
  count : Nat
  one : Bool
  rw : Nat
  w1c : Nat
  wo : Nat
deriving DecidableEq, Repr

namespace R
def TCK_CTRL : Nat := 0x0
def TCK_PERIOD : Nat := 0x8
def TCK_LEAD : Nat := 0x10
def TCK_GOVERN : Nat := 0x18
def TCK_NUMBER : Nat := 0x20
def TCK_SCHED : Nat := 0x28
def TCK_START : Nat := 0x30
def TCK_BASE_TIME : Nat := 0x38
def TCK_BASE_TICK : Nat := 0x40
def TCK_LINK_DELAY : Nat := 0x48
def TCK_MISS : Nat := 0x50
def TCK_MISS_COUNT : Nat := 0x58
def TCK_STATUS : Nat := 0x60
def TCK_EVENT : Nat := 0x68
def TTH_CTRL : Nat := 0x10000
def TTH_STATION : Nat := 0x10008
def TTH_LIST_CW : Nat := 0x10010
def TTH_LIST_CCW : Nat := 0x10018
def TTH_ROT : Nat := 0x10020
def TTH_MODE_REQ : Nat := 0x10028
def TTH_SLOT_FLAGS : Nat := 0x10030
def TTH_POS : Nat := 0x10038
def TTH_STATUS : Nat := 0x10040
def TTH_EVENT : Nat := 0x10048
def TTH_SPOOLS_IN : Nat := 0x10050
def TTH_SPOOLS_OUT : Nat := 0x10058
def TTH_WAIT : Nat := 0x10060
def TTH_SLOT (n : Nat) : Nat := 0x10068 + 0x8 * n
def TTH_TAIL_CW : Nat := 0x10098
def TTH_TAIL_CCW : Nat := 0x100a0
def TTH_GRAD_CW : Nat := 0x100a8
def TTH_GRAD_CCW : Nat := 0x100b0
def TTH_RELAY_CTRL : Nat := 0x100b8
def TTH_RELAY_CMD : Nat := 0x100c0
def TTH_RELAY_STATUS : Nat := 0x100c8
def TTH_RIDE_EVENT : Nat := 0x100d0
def LNK_CTRL : Nat := 0x20000
def LNK_COORD : Nat := 0x20008
def LNK_REGION : Nat := 0x20010
def LNK_ROUTE_SEL : Nat := 0x20018
def LNK_ROUTE_DATA (n : Nat) : Nat := 0x1200000 + 0x8 * n
def LNK_VERSION : Nat := 0x20028
def LNK_DEV_EVENT : Nat := 0x20030
def LNK_EVT_SUM : Nat := 0x20038
def LNK_PCTRL (n : Nat) : Nat := 0x21000 + 0x100 * n
def LNK_PSTATUS (n : Nat) : Nat := 0x21008 + 0x100 * n
def LNK_PEER_ID (n : Nat) : Nat := 0x21010 + 0x100 * n
def LNK_PEER_POS (n : Nat) : Nat := 0x21018 + 0x100 * n
def LNK_FEC_CW (n : Nat) : Nat := 0x21020 + 0x100 * n
def LNK_ERR_COUNT (n : Nat) : Nat := 0x21028 + 0x100 * n
def LNK_ERR_COUNT2 (n : Nat) : Nat := 0x21030 + 0x100 * n
def LNK_FRAMES_TX (n : Nat) : Nat := 0x21038 + 0x100 * n
def LNK_FRAMES_RX (n : Nat) : Nat := 0x21040 + 0x100 * n
def LNK_MARGIN (n : Nat) : Nat := 0x21048 + 0x100 * n
def LNK_EVENT (n : Nat) : Nat := 0x21050 + 0x100 * n
def CDC_CTRL : Nat := 0x30000
def CDC_TDIR : Nat := 0x30008
def CDC_TBL_ARG : Nat := 0x30010
def CDC_TBL_CMD : Nat := 0x30018
def CDC_TBL_STATUS : Nat := 0x30020
def CDC_SLOT_SEL : Nat := 0x30028
def CDC_SLOT_GEN (n : Nat) : Nat := 0x1100000 + 0x8 * n
def CDC_SEED : Nat := 0x30038
def CDC_X_IN : Nat := 0x30040
def CDC_X_OUT : Nat := 0x30048
def CDC_X_WAIT : Nat := 0x30050
def CDC_MISS_CC : Nat := 0x30058
def CDC_PACK_IN : Nat := 0x30060
def CDC_PACK_OUT : Nat := 0x30068
def CDC_ERR_COUNT : Nat := 0x30070
def CDC_FAULT : Nat := 0x30078
def CDC_EVENT : Nat := 0x30080
def CDC_RING (n : Nat) : Nat := 0x31000 + 0x8 * n
def KEL_CTRL : Nat := 0x40000
def KEL_SCRUB : Nat := 0x40008
def KEL_EVT_SUM : Nat := 0x40010
def KEL_JR (n : Nat) : Nat := 0x40100 + 0x8 * n
def KEL_STATUS (n : Nat) : Nat := 0x41000 + 0x100 * n
def KEL_ECC_COUNT (n : Nat) : Nat := 0x41008 + 0x100 * n
def KEL_ECC_ADDR (n : Nat) : Nat := 0x41010 + 0x100 * n
def KEL_CMD_ERR (n : Nat) : Nat := 0x41018 + 0x100 * n
def KEL_CMDS (n : Nat) : Nat := 0x41020 + 0x100 * n
def KEL_BYTES (n : Nat) : Nat := 0x41028 + 0x100 * n
def KEL_EVENT (n : Nat) : Nat := 0x41030 + 0x100 * n
def SCP_CORE_CTRL (n : Nat) : Nat := 0x50000 + 0x100 * n
def SCP_CORE_STATUS (n : Nat) : Nat := 0x50008 + 0x100 * n
def SCP_PWR (n : Nat) : Nat := 0x50010 + 0x100 * n
def SCP_CTX0 (n : Nat) : Nat := 0x50018 + 0x100 * n
def SCP_CTX0_SCP (n : Nat) : Nat := 0x50020 + 0x100 * n
def SCP_CTX0_HBM_BASE (n : Nat) : Nat := 0x50028 + 0x100 * n
def SCP_CTX0_HBM_BOUND (n : Nat) : Nat := 0x50030 + 0x100 * n
def SCP_CTX1 (n : Nat) : Nat := 0x50038 + 0x100 * n
def SCP_CTX1_SCP (n : Nat) : Nat := 0x50040 + 0x100 * n
def SCP_CTX1_HBM_BASE (n : Nat) : Nat := 0x50048 + 0x100 * n
def SCP_CTX1_HBM_BOUND (n : Nat) : Nat := 0x50050 + 0x100 * n
def SCP_ECC_COUNT (n : Nat) : Nat := 0x50058 + 0x100 * n
def SCP_FAULT (n : Nat) : Nat := 0x50060 + 0x100 * n
def SCP_EVENT (n : Nat) : Nat := 0x50068 + 0x100 * n
def SCP_CYCLE (n : Nat) : Nat := 0x50070 + 0x100 * n
def SCP_SLOT_WAIT (n : Nat) : Nat := 0x50078 + 0x100 * n
def SCP_SCRUB : Nat := 0x59000
def SCP_EVT_SUM (n : Nat) : Nat := 0x59008 + 0x8 * n
def MTX_CORE_CTRL (n : Nat) : Nat := 0x60000 + 0x100 * n
def MTX_CORE_STATUS (n : Nat) : Nat := 0x60008 + 0x100 * n
def MTX_RUN_CC (n : Nat) : Nat := 0x60010 + 0x100 * n
def MTX_FREEZE_CC (n : Nat) : Nat := 0x60018 + 0x100 * n
def MTX_DRAIN_FREEZE_CC (n : Nat) : Nat := 0x60020 + 0x100 * n
def MTX_GATED (n : Nat) : Nat := 0x60028 + 0x100 * n
def MTX_ERR_COUNT (n : Nat) : Nat := 0x60030 + 0x100 * n
def MTX_FAULT (n : Nat) : Nat := 0x60038 + 0x100 * n
def MTX_EVENT (n : Nat) : Nat := 0x60040 + 0x100 * n
def MTX_EVT_SUM (n : Nat) : Nat := 0x69000 + 0x8 * n
def STR_CTRL : Nat := 0x70000
def STR_CTX_CMD : Nat := 0x70008
def STR_CTX_SEL : Nat := 0x70010
def STR_CTX (n : Nat) : Nat := 0x1000000 + 0x8 * n
def STR_CHAN_CMD : Nat := 0x70020
def STR_PUSH : Nat := 0x70028
def STR_STATUS : Nat := 0x70030
def STR_FAULT : Nat := 0x70038
def STR_EVENT : Nat := 0x70040
def STR_UNITS_READ : Nat := 0x70048
def STR_UNITS_WRITE : Nat := 0x70050
def STR_UNITS_REMOTE : Nat := 0x70058
def STR_SHORT : Nat := 0x70060
def STR_CACHE_HIT : Nat := 0x70068
def STR_ERR_COUNT : Nat := 0x70070
def ETH_CTRL : Nat := 0x80000
def ETH_STATUS : Nat := 0x80008
def ETH_MAC : Nat := 0x80010
def ETH_IP4 : Nat := 0x80018
def ETH_IP6_HI : Nat := 0x80020
def ETH_IP6_LO : Nat := 0x80028
def ETH_PRIO : Nat := 0x80030
def ETH_PFC : Nat := 0x80038
def ETH_MR_SEL : Nat := 0x80040
def ETH_MR_CTL (n : Nat) : Nat := 0x1310000 + 0x8 * n
def ETH_DEPOT_RING : Nat := 0x80050
def ETH_DEPOT_TAIL : Nat := 0x80058
def ETH_RX_BYTES : Nat := 0x80060
def ETH_TX_BYTES : Nat := 0x80068
def ETH_ERR_COUNT : Nat := 0x80070
def ETH_EVENT : Nat := 0x80078
def ETH_MR_BASE (n : Nat) : Nat := 0x1300000 + 0x8 * n
def ETH_SVC (n : Nat) : Nat := 0x80100 + 0x8 * n
def SEC_CTRL : Nat := 0x90000
def SEC_STATUS : Nat := 0x90008
def SEC_SVN : Nat := 0x90010
def SEC_SVN_RUN : Nat := 0x90018
def SEC_CMD : Nat := 0x90020
def SEC_CMD_ARG : Nat := 0x90028
def SEC_CMD_STATUS : Nat := 0x90030
def SEC_GIB_SEL : Nat := 0x90038
def SEC_GIB (n : Nat) : Nat := 0x1400000 + 0x8 * n
def SEC_SERIAL : Nat := 0x90048
def SEC_ERR_COUNT : Nat := 0x90050
def SEC_EVENT : Nat := 0x90058
def SEC_DECOM : Nat := 0x90060
def GND_CTRL : Nat := 0xa0000
def GND_STATUS : Nat := 0xa0008
def GND_LEASE : Nat := 0xa0010
def GND_HOLD : Nat := 0xa0018
def GND_WDOG : Nat := 0xa0020
def GND_COMP_SEL : Nat := 0xa0028
def GND_COMP (n : Nat) : Nat := 0x1500000 + 0x8 * n
def GND_LOG : Nat := 0xa0038
def GND_LOG_DROP : Nat := 0xa0040
def GND_TRACE_CTRL : Nat := 0xa0048
def GND_ERR_COUNT : Nat := 0xa0050
def GND_EVENT : Nat := 0xa0058
def GND_TRACE_EN (n : Nat) : Nat := 0xa0100 + 0x8 * n
def PWR_CTRL : Nat := 0xb0000
def PWR_STATUS : Nat := 0xb0008
def PWR_PROFILE : Nat := 0xb0010
def PWR_LIMIT : Nat := 0xb0018
def PWR_THERM : Nat := 0xb0020
def PWR_THROTTLE : Nat := 0xb0028
def PWR_IN : Nat := 0xb0030
def PWR_TARGET : Nat := 0xb0038
def PWR_TEMP : Nat := 0xb0040
def PWR_ENERGY : Nat := 0xb0048
def PWR_ERR_COUNT : Nat := 0xb0050
def PWR_EVENT : Nat := 0xb0058
def NVS_STATUS : Nat := 0xc0000
def NVS_CMD : Nat := 0xc0008
def NVS_ARG : Nat := 0xc0010
def NVS_CMD_STATUS : Nat := 0xc0018
def NVS_WEAR : Nat := 0xc0020
def NVS_ERR_COUNT : Nat := 0xc0028
def NVS_EVENT : Nat := 0xc0030
def NVS_CLASS (n : Nat) : Nat := 0xc0040 + 0x8 * n
def TEL_CTRL : Nat := 0xd0000
def TEL_EVT_SUM : Nat := 0xd0008
def TEL_EVQ_HI : Nat := 0xd0010
def TEL_EVQ_LO : Nat := 0xd0018
def TEL_EVQ_STATUS : Nat := 0xd0020
def TEL_RIPCORD : Nat := 0xd0028
def TEL_RIPCORD_PULL : Nat := 0xd0030
def TEL_FATAL : Nat := 0xd0038
def TEL_ERR_COUNT : Nat := 0xd0040
def TEL_EVENT : Nat := 0xd0048
def TEL_SNAP_TICK : Nat := 0xd0050
def TEL_PMSEL (n : Nat) : Nat := 0xd0100 + 0x8 * n
def TEL_PMC (n : Nat) : Nat := 0xd0200 + 0x8 * n
def TEL_PMS (n : Nat) : Nat := 0xd0300 + 0x8 * n
def DEV_ID : Nat := 0xe0000
def DEV_CAPS : Nat := 0xe0008
def DEV_STATUS : Nat := 0xe0010
def DEV_EVENT : Nat := 0xe0018
def DEV_RSV_ADDR : Nat := 0xe0020
def DEV_APER (n : Nat) : Nat := 0xe1000 + 0x8 * n
def DEV_WIN_BASE (n : Nat) : Nat := 0xe1200 + 0x10 * n
def DEV_WIN_CTL (n : Nat) : Nat := 0xe1208 + 0x10 * n
def DEV_WIN_FAULT : Nat := 0xe1600
def DEV_WIN_EVENT : Nat := 0xe1608

end R

namespace F
def TCK_CTRL_DOMAIN_ID : Fld := ⟨R.TCK_CTRL, 63, 48⟩
def TCK_CTRL_GRACE_US : Fld := ⟨R.TCK_CTRL, 47, 40⟩
def TCK_CTRL_PRIORITY : Fld := ⟨R.TCK_CTRL, 39, 32⟩
def TCK_CTRL_UP_PORT : Fld := ⟨R.TCK_CTRL, 31, 28⟩
def TCK_CTRL_DOWN_MASK : Fld := ⟨R.TCK_CTRL, 27, 24⟩
def TCK_CTRL_SLIP_LAG : Fld := ⟨R.TCK_CTRL, 23, 16⟩
def TCK_CTRL_ELECT : Fld := ⟨R.TCK_CTRL, 3, 3⟩
def TCK_CTRL_IS_MASTER : Fld := ⟨R.TCK_CTRL, 2, 2⟩
def TCK_CTRL_MODE : Fld := ⟨R.TCK_CTRL, 1, 1⟩
def TCK_CTRL_RUN : Fld := ⟨R.TCK_CTRL, 0, 0⟩
def TCK_PERIOD_CURRENT_NS : Fld := ⟨R.TCK_PERIOD, 51, 32⟩
def TCK_PERIOD_PERIOD_NS : Fld := ⟨R.TCK_PERIOD, 19, 0⟩
def TCK_LEAD_LEAD_NS : Fld := ⟨R.TCK_LEAD, 15, 0⟩
def TCK_GOVERN_CEILING_NS : Fld := ⟨R.TCK_GOVERN, 51, 32⟩
def TCK_GOVERN_WINDOW : Fld := ⟨R.TCK_GOVERN, 15, 8⟩
def TCK_GOVERN_MISS_THRESH : Fld := ⟨R.TCK_GOVERN, 3, 0⟩
def TCK_NUMBER_NUMBER : Fld := ⟨R.TCK_NUMBER, 63, 0⟩
def TCK_SCHED_INDEX : Fld := ⟨R.TCK_SCHED, 63, 0⟩
def TCK_START_START : Fld := ⟨R.TCK_START, 63, 0⟩
def TCK_BASE_TIME_TIME : Fld := ⟨R.TCK_BASE_TIME, 63, 0⟩
def TCK_BASE_TICK_TICK : Fld := ⟨R.TCK_BASE_TICK, 63, 0⟩
def TCK_LINK_DELAY_WEST : Fld := ⟨R.TCK_LINK_DELAY, 63, 48⟩
def TCK_LINK_DELAY_SOUTH : Fld := ⟨R.TCK_LINK_DELAY, 47, 32⟩
def TCK_LINK_DELAY_EAST : Fld := ⟨R.TCK_LINK_DELAY, 31, 16⟩
def TCK_LINK_DELAY_NORTH : Fld := ⟨R.TCK_LINK_DELAY, 15, 0⟩
def TCK_MISS_LAST_TICK : Fld := ⟨R.TCK_MISS, 63, 32⟩
def TCK_MISS_RELAY : Fld := ⟨R.TCK_MISS, 22, 22⟩
def TCK_MISS_STREAM : Fld := ⟨R.TCK_MISS, 21, 21⟩
def TCK_MISS_KEEL : Fld := ⟨R.TCK_MISS, 20, 20⟩
def TCK_MISS_EXPAND : Fld := ⟨R.TCK_MISS, 19, 19⟩
def TCK_MISS_ARRIVAL : Fld := ⟨R.TCK_MISS, 18, 18⟩
def TCK_MISS_TETHER_FWD : Fld := ⟨R.TCK_MISS, 17, 17⟩
def TCK_MISS_CORE : Fld := ⟨R.TCK_MISS, 16, 16⟩
def TCK_MISS_OVERRUN : Fld := ⟨R.TCK_MISS, 15, 0⟩
def TCK_MISS_COUNT_SLIPS : Fld := ⟨R.TCK_MISS_COUNT, 63, 32⟩
def TCK_MISS_COUNT_MISSES : Fld := ⟨R.TCK_MISS_COUNT, 31, 0⟩
def TCK_STATUS_MASTER_X : Fld := ⟨R.TCK_STATUS, 30, 24⟩
def TCK_STATUS_MASTER_Y : Fld := ⟨R.TCK_STATUS, 21, 16⟩
def TCK_STATUS_PTP_LOCK : Fld := ⟨R.TCK_STATUS, 7, 7⟩
def TCK_STATUS_SLIP_PENDING : Fld := ⟨R.TCK_STATUS, 6, 6⟩
def TCK_STATUS_ELECTED : Fld := ⟨R.TCK_STATUS, 3, 3⟩
def TCK_STATUS_STATE : Fld := ⟨R.TCK_STATUS, 2, 0⟩
def TCK_EVENT_SLIP_LIMIT : Fld := ⟨R.TCK_EVENT, 9, 9⟩
def TCK_EVENT_PTP_LOSS : Fld := ⟨R.TCK_EVENT, 8, 8⟩
def TCK_EVENT_COUNT_SAT : Fld := ⟨R.TCK_EVENT, 7, 7⟩
def TCK_EVENT_LOCKED_WRITE : Fld := ⟨R.TCK_EVENT, 6, 6⟩
def TCK_EVENT_MARKER_MISSING : Fld := ⟨R.TCK_EVENT, 5, 5⟩
def TCK_EVENT_MARKER_LATE : Fld := ⟨R.TCK_EVENT, 4, 4⟩
def TCK_EVENT_CEILING : Fld := ⟨R.TCK_EVENT, 3, 3⟩
def TCK_EVENT_PERIOD_CHANGE : Fld := ⟨R.TCK_EVENT, 2, 2⟩
def TCK_EVENT_SLIP : Fld := ⟨R.TCK_EVENT, 1, 1⟩
def TCK_EVENT_MISS : Fld := ⟨R.TCK_EVENT, 0, 0⟩
def TTH_CTRL_SLOT_FAULT : Fld := ⟨R.TTH_CTRL, 7, 7⟩
def TTH_CTRL_CCW_EN : Fld := ⟨R.TTH_CTRL, 5, 5⟩
def TTH_CTRL_CW_EN : Fld := ⟨R.TTH_CTRL, 4, 4⟩
def TTH_CTRL_MODE : Fld := ⟨R.TTH_CTRL, 1, 1⟩
def TTH_CTRL_ENABLE : Fld := ⟨R.TTH_CTRL, 0, 0⟩
def TTH_STATION_N : Fld := ⟨R.TTH_STATION, 45, 32⟩
def TTH_STATION_NEXT_PORT : Fld := ⟨R.TTH_STATION, 23, 20⟩
def TTH_STATION_PREV_PORT : Fld := ⟨R.TTH_STATION, 19, 16⟩
def TTH_STATION_STATION : Fld := ⟨R.TTH_STATION, 12, 0⟩
def TTH_LIST_CW_LEN : Fld := ⟨R.TTH_LIST_CW, 63, 48⟩
def TTH_LIST_CW_BASE : Fld := ⟨R.TTH_LIST_CW, 43, 5⟩
def TTH_LIST_CCW_LEN : Fld := ⟨R.TTH_LIST_CCW, 63, 48⟩
def TTH_LIST_CCW_BASE : Fld := ⟨R.TTH_LIST_CCW, 43, 5⟩
def TTH_ROT_START_INDEX : Fld := ⟨R.TTH_ROT, 63, 0⟩
def TTH_MODE_REQ_PENDING : Fld := ⟨R.TTH_MODE_REQ, 60, 60⟩
def TTH_MODE_REQ_TARGET : Fld := ⟨R.TTH_MODE_REQ, 56, 56⟩
def TTH_MODE_REQ_AT_INDEX : Fld := ⟨R.TTH_MODE_REQ, 47, 0⟩
def TTH_SLOT_FLAGS_ARRIVING (n : Nat) : Fld := ⟨R.TTH_SLOT_FLAGS, 8 * n + 4, 8 * n + 4⟩
def TTH_SLOT_FLAGS_FULL (n : Nat) : Fld := ⟨R.TTH_SLOT_FLAGS, 8 * n + 3, 8 * n + 3⟩
def TTH_SLOT_FLAGS_EXPANDED (n : Nat) : Fld := ⟨R.TTH_SLOT_FLAGS, 8 * n + 2, 8 * n + 2⟩
def TTH_SLOT_FLAGS_FORWARDED (n : Nat) : Fld := ⟨R.TTH_SLOT_FLAGS, 8 * n + 1, 8 * n + 1⟩
def TTH_SLOT_FLAGS_DRAINED (n : Nat) : Fld := ⟨R.TTH_SLOT_FLAGS, 8 * n + 0, 8 * n + 0⟩
def TTH_POS_ROUND : Fld := ⟨R.TTH_POS, 63, 48⟩
def TTH_POS_OFFSET : Fld := ⟨R.TTH_POS, 44, 32⟩
def TTH_STATUS_FWD_WAIT_CCW : Fld := ⟨R.TTH_STATUS, 7, 7⟩
def TTH_STATUS_FWD_WAIT_CW : Fld := ⟨R.TTH_STATUS, 6, 6⟩
def TTH_STATUS_STAGING : Fld := ⟨R.TTH_STATUS, 5, 5⟩
def TTH_STATUS_RETURN : Fld := ⟨R.TTH_STATUS, 4, 4⟩
def TTH_STATUS_DRAINING : Fld := ⟨R.TTH_STATUS, 1, 1⟩
def TTH_STATUS_ACTIVE : Fld := ⟨R.TTH_STATUS, 0, 0⟩
def TTH_EVENT_SLOT_WRITE : Fld := ⟨R.TTH_EVENT, 9, 9⟩
def TTH_EVENT_LOCKED_WRITE : Fld := ⟨R.TTH_EVENT, 8, 8⟩
def TTH_EVENT_CONFIG_ERR : Fld := ⟨R.TTH_EVENT, 7, 7⟩
def TTH_EVENT_MODE_ERR : Fld := ⟨R.TTH_EVENT, 6, 6⟩
def TTH_EVENT_OVERSIZE : Fld := ⟨R.TTH_EVENT, 5, 5⟩
def TTH_EVENT_SEQ_ERR : Fld := ⟨R.TTH_EVENT, 4, 4⟩
def TTH_EVENT_HDR_ERR : Fld := ⟨R.TTH_EVENT, 3, 3⟩
def TTH_EVENT_BACKPRESSURE : Fld := ⟨R.TTH_EVENT, 2, 2⟩
def TTH_EVENT_LATE_COMMIT : Fld := ⟨R.TTH_EVENT, 1, 1⟩
def TTH_EVENT_LIST_END : Fld := ⟨R.TTH_EVENT, 0, 0⟩
def TTH_SPOOLS_IN_COUNT : Fld := ⟨R.TTH_SPOOLS_IN, 63, 0⟩
def TTH_SPOOLS_OUT_COUNT : Fld := ⟨R.TTH_SPOOLS_OUT, 63, 0⟩
def TTH_WAIT_NS : Fld := ⟨R.TTH_WAIT, 63, 0⟩
def TTH_SLOT_HOME (n : Nat) : Fld := ⟨R.TTH_SLOT n, 63, 51⟩
def TTH_SLOT_DIR (n : Nat) : Fld := ⟨R.TTH_SLOT n, 50, 50⟩
def TTH_SLOT_NULL (n : Nat) : Fld := ⟨R.TTH_SLOT n, 49, 49⟩
def TTH_SLOT_TAIL (n : Nat) : Fld := ⟨R.TTH_SLOT n, 48, 48⟩
def TTH_SLOT_SEQ (n : Nat) : Fld := ⟨R.TTH_SLOT n, 47, 32⟩
def TTH_SLOT_TOTAL_LEN (n : Nat) : Fld := ⟨R.TTH_SLOT n, 25, 0⟩
def TTH_TAIL_CW_FMT : Fld := ⟨R.TTH_TAIL_CW, 57, 56⟩
def TTH_TAIL_CW_SR : Fld := ⟨R.TTH_TAIL_CW, 55, 55⟩
def TTH_TAIL_CW_EF : Fld := ⟨R.TTH_TAIL_CW, 54, 54⟩
def TTH_TAIL_CW_GROUP : Fld := ⟨R.TTH_TAIL_CW, 50, 48⟩
def TTH_TAIL_CW_PART_OFF : Fld := ⟨R.TTH_TAIL_CW, 22, 12⟩
def TTH_TAIL_CCW_FMT : Fld := ⟨R.TTH_TAIL_CCW, 57, 56⟩
def TTH_TAIL_CCW_SR : Fld := ⟨R.TTH_TAIL_CCW, 55, 55⟩
def TTH_TAIL_CCW_EF : Fld := ⟨R.TTH_TAIL_CCW, 54, 54⟩
def TTH_TAIL_CCW_GROUP : Fld := ⟨R.TTH_TAIL_CCW, 50, 48⟩
def TTH_TAIL_CCW_PART_OFF : Fld := ⟨R.TTH_TAIL_CCW, 22, 12⟩
def TTH_GRAD_CW_BASE : Fld := ⟨R.TTH_GRAD_CW, 43, 5⟩
def TTH_GRAD_CW_VALID : Fld := ⟨R.TTH_GRAD_CW, 0, 0⟩
def TTH_GRAD_CCW_BASE : Fld := ⟨R.TTH_GRAD_CCW, 43, 5⟩
def TTH_GRAD_CCW_VALID : Fld := ⟨R.TTH_GRAD_CCW, 0, 0⟩
def TTH_RELAY_CTRL_FIRST_LEAD : Fld := ⟨R.TTH_RELAY_CTRL, 44, 32⟩
def TTH_RELAY_CTRL_SLICE_MAX : Fld := ⟨R.TTH_RELAY_CTRL, 14, 0⟩
def TTH_RELAY_CMD_OP : Fld := ⟨R.TTH_RELAY_CMD, 63, 62⟩
def TTH_RELAY_CMD_SLOT : Fld := ⟨R.TTH_RELAY_CMD, 61, 59⟩
def TTH_RELAY_CMD_LEN64 : Fld := ⟨R.TTH_RELAY_CMD, 58, 44⟩
def TTH_RELAY_CMD_ADDR : Fld := ⟨R.TTH_RELAY_CMD, 43, 6⟩
def TTH_RELAY_STATUS_NEXT_SEQ : Fld := ⟨R.TTH_RELAY_STATUS, 63, 48⟩
def TTH_RELAY_STATUS_NEXT_LEAD : Fld := ⟨R.TTH_RELAY_STATUS, 44, 32⟩
def TTH_RELAY_STATUS_INFLIGHT : Fld := ⟨R.TTH_RELAY_STATUS, 13, 8⟩
def TTH_RELAY_STATUS_COMPLETE : Fld := ⟨R.TTH_RELAY_STATUS, 5, 0⟩
def TTH_RIDE_EVENT_CMD_ERR : Fld := ⟨R.TTH_RIDE_EVENT, 6, 6⟩
def TTH_RIDE_EVENT_RELAY_ERR : Fld := ⟨R.TTH_RIDE_EVENT, 5, 5⟩
def TTH_RIDE_EVENT_NO_GRAD : Fld := ⟨R.TTH_RIDE_EVENT, 4, 4⟩
def TTH_RIDE_EVENT_GRAD_SKIP : Fld := ⟨R.TTH_RIDE_EVENT, 3, 3⟩
def TTH_RIDE_EVENT_TAIL_POISON : Fld := ⟨R.TTH_RIDE_EVENT, 2, 2⟩
def TTH_RIDE_EVENT_TAIL_ERR : Fld := ⟨R.TTH_RIDE_EVENT, 1, 1⟩
def TTH_RIDE_EVENT_GRAD_DONE : Fld := ⟨R.TTH_RIDE_EVENT, 0, 0⟩
def LNK_CTRL_FAULT_WAIT : Fld := ⟨R.LNK_CTRL, 27, 16⟩
def LNK_CTRL_LOSS_US : Fld := ⟨R.LNK_CTRL, 11, 8⟩
def LNK_CTRL_REPLAY_MAX : Fld := ⟨R.LNK_CTRL, 4, 0⟩
def LNK_COORD_VALID : Fld := ⟨R.LNK_COORD, 63, 63⟩
def LNK_COORD_Y : Fld := ⟨R.LNK_COORD, 21, 16⟩
def LNK_COORD_X : Fld := ⟨R.LNK_COORD, 6, 0⟩
def LNK_REGION_VALID : Fld := ⟨R.LNK_REGION, 63, 63⟩
def LNK_REGION_Y1 : Fld := ⟨R.LNK_REGION, 61, 56⟩
def LNK_REGION_Y0 : Fld := ⟨R.LNK_REGION, 53, 48⟩
def LNK_REGION_X1 : Fld := ⟨R.LNK_REGION, 46, 40⟩
def LNK_REGION_X0 : Fld := ⟨R.LNK_REGION, 38, 32⟩
def LNK_REGION_DOMAIN_ID : Fld := ⟨R.LNK_REGION, 15, 0⟩
def LNK_ROUTE_SEL_INDEX : Fld := ⟨R.LNK_ROUTE_SEL, 12, 0⟩
def LNK_ROUTE_DATA_MODE (n : Nat) : Fld := ⟨R.LNK_ROUTE_DATA n, 15, 14⟩
def LNK_ROUTE_DATA_VIA_Y (n : Nat) : Fld := ⟨R.LNK_ROUTE_DATA n, 13, 8⟩
def LNK_ROUTE_DATA_VIA_X (n : Nat) : Fld := ⟨R.LNK_ROUTE_DATA n, 6, 0⟩
def LNK_VERSION_MAX_MAJOR : Fld := ⟨R.LNK_VERSION, 31, 24⟩
def LNK_VERSION_MAX_MINOR : Fld := ⟨R.LNK_VERSION, 23, 16⟩
def LNK_VERSION_MIN_MAJOR : Fld := ⟨R.LNK_VERSION, 15, 8⟩
def LNK_VERSION_MIN_MINOR : Fld := ⟨R.LNK_VERSION, 7, 0⟩
def LNK_DEV_EVENT_RIPCORD_SEEN : Fld := ⟨R.LNK_DEV_EVENT, 3, 3⟩
def LNK_DEV_EVENT_RIPCORD_SENT : Fld := ⟨R.LNK_DEV_EVENT, 2, 2⟩
def LNK_DEV_EVENT_LOCKED_WRITE : Fld := ⟨R.LNK_DEV_EVENT, 1, 1⟩
def LNK_DEV_EVENT_CONFIG_ERR : Fld := ⟨R.LNK_DEV_EVENT, 0, 0⟩
def LNK_EVT_SUM_PORTS : Fld := ⟨R.LNK_EVT_SUM, 3, 0⟩
def LNK_PCTRL_CHECK_PEER (n : Nat) : Fld := ⟨R.LNK_PCTRL n, 1, 1⟩
def LNK_PCTRL_ENABLE (n : Nat) : Fld := ⟨R.LNK_PCTRL n, 0, 0⟩
def LNK_PSTATUS_VER_MAJOR (n : Nat) : Fld := ⟨R.LNK_PSTATUS n, 63, 56⟩
def LNK_PSTATUS_VER_MINOR (n : Nat) : Fld := ⟨R.LNK_PSTATUS n, 55, 48⟩
def LNK_PSTATUS_IN_REGION (n : Nat) : Fld := ⟨R.LNK_PSTATUS n, 8, 8⟩
def LNK_PSTATUS_STATE (n : Nat) : Fld := ⟨R.LNK_PSTATUS n, 3, 0⟩
def LNK_PEER_ID_SERIAL (n : Nat) : Fld := ⟨R.LNK_PEER_ID n, 63, 0⟩
def LNK_PEER_POS_Y (n : Nat) : Fld := ⟨R.LNK_PEER_POS n, 21, 16⟩
def LNK_PEER_POS_PORT (n : Nat) : Fld := ⟨R.LNK_PEER_POS n, 9, 8⟩
def LNK_PEER_POS_X (n : Nat) : Fld := ⟨R.LNK_PEER_POS n, 6, 0⟩
def LNK_FEC_CW_COUNT (n : Nat) : Fld := ⟨R.LNK_FEC_CW n, 63, 0⟩
def LNK_ERR_COUNT_UNCORR (n : Nat) : Fld := ⟨R.LNK_ERR_COUNT n, 63, 32⟩
def LNK_ERR_COUNT_CRC (n : Nat) : Fld := ⟨R.LNK_ERR_COUNT n, 31, 0⟩
def LNK_ERR_COUNT2_TAG (n : Nat) : Fld := ⟨R.LNK_ERR_COUNT2 n, 63, 32⟩
def LNK_ERR_COUNT2_REPLAYS (n : Nat) : Fld := ⟨R.LNK_ERR_COUNT2 n, 31, 0⟩
def LNK_FRAMES_TX_COUNT (n : Nat) : Fld := ⟨R.LNK_FRAMES_TX n, 63, 0⟩
def LNK_FRAMES_RX_COUNT (n : Nat) : Fld := ⟨R.LNK_FRAMES_RX n, 63, 0⟩
def LNK_MARGIN_LANE (n : Nat) : Fld := ⟨R.LNK_MARGIN n, 43, 40⟩
def LNK_MARGIN_MARGIN (n : Nat) : Fld := ⟨R.LNK_MARGIN n, 15, 0⟩
def LNK_EVENT_COUNT_SAT (n : Nat) : Fld := ⟨R.LNK_EVENT n, 7, 7⟩
def LNK_EVENT_TAG (n : Nat) : Fld := ⟨R.LNK_EVENT n, 6, 6⟩
def LNK_EVENT_REPLAY (n : Nat) : Fld := ⟨R.LNK_EVENT n, 5, 5⟩
def LNK_EVENT_TRAIN_FAIL (n : Nat) : Fld := ⟨R.LNK_EVENT n, 4, 4⟩
def LNK_EVENT_VERSION (n : Nat) : Fld := ⟨R.LNK_EVENT n, 3, 3⟩
def LNK_EVENT_MISWIRED (n : Nat) : Fld := ⟨R.LNK_EVENT n, 2, 2⟩
def LNK_EVENT_LOST (n : Nat) : Fld := ⟨R.LNK_EVENT n, 1, 1⟩
def LNK_EVENT_UP (n : Nat) : Fld := ⟨R.LNK_EVENT n, 0, 0⟩
def CDC_CTRL_SPOOL_CTX : Fld := ⟨R.CDC_CTRL, 42, 32⟩
def CDC_CTRL_RING_FAULT : Fld := ⟨R.CDC_CTRL, 0, 0⟩
def CDC_TDIR_BASE : Fld := ⟨R.CDC_TDIR, 43, 22⟩
def CDC_TDIR_VALID : Fld := ⟨R.CDC_TDIR, 0, 0⟩
def CDC_TBL_ARG_ADDR : Fld := ⟨R.CDC_TBL_ARG, 43, 7⟩
def CDC_TBL_CMD_OP : Fld := ⟨R.CDC_TBL_CMD, 63, 60⟩
def CDC_TBL_CMD_CTX : Fld := ⟨R.CDC_TBL_CMD, 58, 48⟩
def CDC_TBL_CMD_SLOT : Fld := ⟨R.CDC_TBL_CMD, 47, 44⟩
def CDC_TBL_CMD_ADDR : Fld := ⟨R.CDC_TBL_CMD, 43, 7⟩
def CDC_TBL_STATUS_BUSY : Fld := ⟨R.CDC_TBL_STATUS, 63, 63⟩
def CDC_TBL_STATUS_GEN : Fld := ⟨R.CDC_TBL_STATUS, 55, 48⟩
def CDC_TBL_STATUS_RESULT : Fld := ⟨R.CDC_TBL_STATUS, 35, 32⟩
def CDC_SLOT_SEL_CTX : Fld := ⟨R.CDC_SLOT_SEL, 14, 4⟩
def CDC_SLOT_SEL_SLOT : Fld := ⟨R.CDC_SLOT_SEL, 3, 0⟩
def CDC_SLOT_GEN_STATE (n : Nat) : Fld := ⟨R.CDC_SLOT_GEN n, 57, 56⟩
def CDC_SLOT_GEN_GEN (n : Nat) : Fld := ⟨R.CDC_SLOT_GEN n, 55, 48⟩
def CDC_SLOT_GEN_REFS (n : Nat) : Fld := ⟨R.CDC_SLOT_GEN n, 15, 0⟩
def CDC_SEED_PACKER : Fld := ⟨R.CDC_SEED, 63, 60⟩
def CDC_SEED_SEED : Fld := ⟨R.CDC_SEED, 23, 0⟩
def CDC_X_IN_BYTES : Fld := ⟨R.CDC_X_IN, 63, 0⟩
def CDC_X_OUT_BYTES : Fld := ⟨R.CDC_X_OUT, 63, 0⟩
def CDC_X_WAIT_CC : Fld := ⟨R.CDC_X_WAIT, 63, 0⟩
def CDC_MISS_CC_CC : Fld := ⟨R.CDC_MISS_CC, 63, 0⟩
def CDC_PACK_IN_BYTES : Fld := ⟨R.CDC_PACK_IN, 63, 0⟩
def CDC_PACK_OUT_BYTES : Fld := ⟨R.CDC_PACK_OUT, 63, 0⟩
def CDC_ERR_COUNT_CONSIST : Fld := ⟨R.CDC_ERR_COUNT, 63, 32⟩
def CDC_ERR_COUNT_CRC : Fld := ⟨R.CDC_ERR_COUNT, 31, 0⟩
def CDC_FAULT_KIND : Fld := ⟨R.CDC_FAULT, 63, 56⟩
def CDC_FAULT_UNIT : Fld := ⟨R.CDC_FAULT, 55, 52⟩
def CDC_FAULT_PACKER : Fld := ⟨R.CDC_FAULT, 51, 51⟩
def CDC_FAULT_SLOT : Fld := ⟨R.CDC_FAULT, 47, 44⟩
def CDC_FAULT_GEN : Fld := ⟨R.CDC_FAULT, 43, 36⟩
def CDC_FAULT_INDEX : Fld := ⟨R.CDC_FAULT, 31, 0⟩
def CDC_EVENT_COUNT_SAT : Fld := ⟨R.CDC_EVENT, 10, 10⟩
def CDC_EVENT_LOCKED_WRITE : Fld := ⟨R.CDC_EVENT, 9, 9⟩
def CDC_EVENT_TBL_ERR : Fld := ⟨R.CDC_EVENT, 8, 8⟩
def CDC_EVENT_TBL_DONE : Fld := ⟨R.CDC_EVENT, 7, 7⟩
def CDC_EVENT_DIR_ERR : Fld := ⟨R.CDC_EVENT, 6, 6⟩
def CDC_EVENT_MISS : Fld := ⟨R.CDC_EVENT, 5, 5⟩
def CDC_EVENT_RING_WAIT : Fld := ⟨R.CDC_EVENT, 4, 4⟩
def CDC_EVENT_STALE : Fld := ⟨R.CDC_EVENT, 3, 3⟩
def CDC_EVENT_CONSIST : Fld := ⟨R.CDC_EVENT, 2, 2⟩
def CDC_EVENT_CRC : Fld := ⟨R.CDC_EVENT, 1, 1⟩
def CDC_EVENT_FAULT : Fld := ⟨R.CDC_EVENT, 0, 0⟩
def CDC_RING_HANDLE (n : Nat) : Fld := ⟨R.CDC_RING n, 63, 32⟩
def CDC_RING_TILE128 (n : Nat) : Fld := ⟨R.CDC_RING n, 31, 22⟩
def CDC_RING_BASE128 (n : Nat) : Fld := ⟨R.CDC_RING n, 15, 0⟩
def KEL_CTRL_CMD_SHARE : Fld := ⟨R.KEL_CTRL, 11, 8⟩
def KEL_CTRL_ILV : Fld := ⟨R.KEL_CTRL, 1, 0⟩
def KEL_SCRUB_HOURS : Fld := ⟨R.KEL_SCRUB, 16, 1⟩
def KEL_SCRUB_EN : Fld := ⟨R.KEL_SCRUB, 0, 0⟩
def KEL_EVT_SUM_STACKS : Fld := ⟨R.KEL_EVT_SUM, 11, 0⟩
def KEL_JR_VALID (n : Nat) : Fld := ⟨R.KEL_JR n, 63, 63⟩
def KEL_JR_JOB (n : Nat) : Fld := ⟨R.KEL_JR n, 47, 32⟩
def KEL_JR_LAST_GIB (n : Nat) : Fld := ⟨R.KEL_JR n, 24, 16⟩
def KEL_JR_FIRST_GIB (n : Nat) : Fld := ⟨R.KEL_JR n, 8, 0⟩
def KEL_STATUS_TEMP (n : Nat) : Fld := ⟨R.KEL_STATUS n, 63, 56⟩
def KEL_STATUS_REFRESH (n : Nat) : Fld := ⟨R.KEL_STATUS n, 49, 48⟩
def KEL_STATUS_QUEUE (n : Nat) : Fld := ⟨R.KEL_STATUS n, 24, 16⟩
def KEL_STATUS_OP (n : Nat) : Fld := ⟨R.KEL_STATUS n, 15, 8⟩
def KEL_STATUS_STATE (n : Nat) : Fld := ⟨R.KEL_STATUS n, 2, 0⟩
def KEL_ECC_COUNT_UE (n : Nat) : Fld := ⟨R.KEL_ECC_COUNT n, 63, 32⟩
def KEL_ECC_COUNT_CE (n : Nat) : Fld := ⟨R.KEL_ECC_COUNT n, 31, 0⟩
def KEL_ECC_ADDR_SEV (n : Nat) : Fld := ⟨R.KEL_ECC_ADDR n, 63, 62⟩
def KEL_ECC_ADDR_ADDR (n : Nat) : Fld := ⟨R.KEL_ECC_ADDR n, 43, 0⟩
def KEL_CMD_ERR_CODE (n : Nat) : Fld := ⟨R.KEL_CMD_ERR n, 63, 56⟩
def KEL_CMD_ERR_OP (n : Nat) : Fld := ⟨R.KEL_CMD_ERR n, 55, 48⟩
def KEL_CMD_ERR_JOB (n : Nat) : Fld := ⟨R.KEL_CMD_ERR n, 47, 32⟩
def KEL_CMD_ERR_LINES (n : Nat) : Fld := ⟨R.KEL_CMD_ERR n, 31, 0⟩
def KEL_CMDS_COUNT (n : Nat) : Fld := ⟨R.KEL_CMDS n, 63, 0⟩
def KEL_BYTES_BYTES (n : Nat) : Fld := ⟨R.KEL_BYTES n, 63, 0⟩
def KEL_EVENT_NOT_READY (n : Nat) : Fld := ⟨R.KEL_EVENT n, 7, 7⟩
def KEL_EVENT_STAGE_UE (n : Nat) : Fld := ⟨R.KEL_EVENT n, 6, 6⟩
def KEL_EVENT_LOCKED_WRITE (n : Nat) : Fld := ⟨R.KEL_EVENT n, 5, 5⟩
def KEL_EVENT_COUNT_SAT (n : Nat) : Fld := ⟨R.KEL_EVENT n, 4, 4⟩
def KEL_EVENT_CMD_ERR (n : Nat) : Fld := ⟨R.KEL_EVENT n, 3, 3⟩
def KEL_EVENT_REPAIR_DONE (n : Nat) : Fld := ⟨R.KEL_EVENT n, 2, 2⟩
def KEL_EVENT_UE (n : Nat) : Fld := ⟨R.KEL_EVENT n, 1, 1⟩
def KEL_EVENT_CE (n : Nat) : Fld := ⟨R.KEL_EVENT n, 0, 0⟩
def SCP_CORE_CTRL_SC_INV (n : Nat) : Fld := ⟨R.SCP_CORE_CTRL n, 7, 7⟩
def SCP_CORE_CTRL_SLOT_FAULT (n : Nat) : Fld := ⟨R.SCP_CORE_CTRL n, 4, 4⟩
def SCP_CORE_CTRL_SCRUB_EN (n : Nat) : Fld := ⟨R.SCP_CORE_CTRL n, 3, 3⟩
def SCP_CORE_CTRL_FREE_RUN (n : Nat) : Fld := ⟨R.SCP_CORE_CTRL n, 2, 2⟩
def SCP_CORE_CTRL_CORE_EN (n : Nat) : Fld := ⟨R.SCP_CORE_CTRL n, 0, 0⟩
def SCP_CORE_STATUS_WAKING (n : Nat) : Fld := ⟨R.SCP_CORE_STATUS n, 5, 5⟩
def SCP_CORE_STATUS_SPLIT (n : Nat) : Fld := ⟨R.SCP_CORE_STATUS n, 4, 4⟩
def SCP_CORE_STATUS_STATE (n : Nat) : Fld := ⟨R.SCP_CORE_STATUS n, 2, 0⟩
def SCP_PWR_SEG_READY (n : Nat) : Fld := ⟨R.SCP_PWR n, 13, 8⟩
def SCP_PWR_SEG_OFF (n : Nat) : Fld := ⟨R.SCP_PWR n, 5, 0⟩
def SCP_CTX0_VALID (n : Nat) : Fld := ⟨R.SCP_CTX0 n, 63, 63⟩
def SCP_CTX0_JOB (n : Nat) : Fld := ⟨R.SCP_CTX0 n, 47, 32⟩
def SCP_CTX0_CTX_ID (n : Nat) : Fld := ⟨R.SCP_CTX0 n, 10, 0⟩
def SCP_CTX0_SCP_BOUND4K (n : Nat) : Fld := ⟨R.SCP_CTX0_SCP n, 43, 32⟩
def SCP_CTX0_SCP_BASE4K (n : Nat) : Fld := ⟨R.SCP_CTX0_SCP n, 11, 0⟩
def SCP_CTX0_HBM_BASE_BASE (n : Nat) : Fld := ⟨R.SCP_CTX0_HBM_BASE n, 43, 16⟩
def SCP_CTX0_HBM_BOUND_SIZE (n : Nat) : Fld := ⟨R.SCP_CTX0_HBM_BOUND n, 43, 16⟩
def SCP_CTX1_VALID (n : Nat) : Fld := ⟨R.SCP_CTX1 n, 63, 63⟩
def SCP_CTX1_JOB (n : Nat) : Fld := ⟨R.SCP_CTX1 n, 47, 32⟩
def SCP_CTX1_CTX_ID (n : Nat) : Fld := ⟨R.SCP_CTX1 n, 10, 0⟩
def SCP_CTX1_SCP_BOUND4K (n : Nat) : Fld := ⟨R.SCP_CTX1_SCP n, 43, 32⟩
def SCP_CTX1_SCP_BASE4K (n : Nat) : Fld := ⟨R.SCP_CTX1_SCP n, 11, 0⟩
def SCP_CTX1_HBM_BASE_BASE (n : Nat) : Fld := ⟨R.SCP_CTX1_HBM_BASE n, 43, 16⟩
def SCP_CTX1_HBM_BOUND_SIZE (n : Nat) : Fld := ⟨R.SCP_CTX1_HBM_BOUND n, 43, 16⟩
def SCP_ECC_COUNT_UE (n : Nat) : Fld := ⟨R.SCP_ECC_COUNT n, 63, 32⟩
def SCP_ECC_COUNT_CE (n : Nat) : Fld := ⟨R.SCP_ECC_COUNT n, 31, 0⟩
def SCP_FAULT_KIND (n : Nat) : Fld := ⟨R.SCP_FAULT n, 63, 60⟩
def SCP_FAULT_ENGINE (n : Nat) : Fld := ⟨R.SCP_FAULT n, 59, 56⟩
def SCP_FAULT_SET (n : Nat) : Fld := ⟨R.SCP_FAULT n, 44, 44⟩
def SCP_FAULT_ADDR (n : Nat) : Fld := ⟨R.SCP_FAULT n, 43, 0⟩
def SCP_EVENT_LOCKED_WRITE (n : Nat) : Fld := ⟨R.SCP_EVENT n, 10, 10⟩
def SCP_EVENT_CONFIG_ERR (n : Nat) : Fld := ⟨R.SCP_EVENT n, 9, 9⟩
def SCP_EVENT_COUNT_SAT (n : Nat) : Fld := ⟨R.SCP_EVENT n, 8, 8⟩
def SCP_EVENT_SC_PARITY (n : Nat) : Fld := ⟨R.SCP_EVENT n, 7, 7⟩
def SCP_EVENT_FOREIGN (n : Nat) : Fld := ⟨R.SCP_EVENT n, 6, 6⟩
def SCP_EVENT_HOLE (n : Nat) : Fld := ⟨R.SCP_EVENT n, 5, 5⟩
def SCP_EVENT_SEG (n : Nat) : Fld := ⟨R.SCP_EVENT n, 4, 4⟩
def SCP_EVENT_BOUND (n : Nat) : Fld := ⟨R.SCP_EVENT n, 3, 3⟩
def SCP_EVENT_UE (n : Nat) : Fld := ⟨R.SCP_EVENT n, 2, 2⟩
def SCP_EVENT_CE (n : Nat) : Fld := ⟨R.SCP_EVENT n, 1, 1⟩
def SCP_EVENT_FAULT (n : Nat) : Fld := ⟨R.SCP_EVENT n, 0, 0⟩
def SCP_CYCLE_CYCLE (n : Nat) : Fld := ⟨R.SCP_CYCLE n, 63, 0⟩
def SCP_SLOT_WAIT_CC (n : Nat) : Fld := ⟨R.SCP_SLOT_WAIT n, 63, 0⟩
def SCP_SCRUB_GAP : Fld := ⟨R.SCP_SCRUB, 15, 0⟩
def SCP_EVT_SUM_CORES (n : Nat) : Fld := ⟨R.SCP_EVT_SUM n, 63, 0⟩
def MTX_CORE_CTRL_FREEZE_FAULT (n : Nat) : Fld := ⟨R.MTX_CORE_CTRL n, 3, 3⟩
def MTX_CORE_CTRL_GATE_EN (n : Nat) : Fld := ⟨R.MTX_CORE_CTRL n, 2, 2⟩
def MTX_CORE_CTRL_SPLIT (n : Nat) : Fld := ⟨R.MTX_CORE_CTRL n, 0, 0⟩
def MTX_CORE_STATUS_FORM0 (n : Nat) : Fld := ⟨R.MTX_CORE_STATUS n, 17, 15⟩
def MTX_CORE_STATUS_FORM1 (n : Nat) : Fld := ⟨R.MTX_CORE_STATUS n, 14, 12⟩
def MTX_CORE_STATUS_AQ0 (n : Nat) : Fld := ⟨R.MTX_CORE_STATUS n, 11, 10⟩
def MTX_CORE_STATUS_AQ1 (n : Nat) : Fld := ⟨R.MTX_CORE_STATUS n, 9, 8⟩
def MTX_CORE_STATUS_DQ0 (n : Nat) : Fld := ⟨R.MTX_CORE_STATUS n, 7, 6⟩
def MTX_CORE_STATUS_DQ1 (n : Nat) : Fld := ⟨R.MTX_CORE_STATUS n, 5, 4⟩
def MTX_CORE_STATUS_FENCED1 (n : Nat) : Fld := ⟨R.MTX_CORE_STATUS n, 3, 3⟩
def MTX_CORE_STATUS_FENCED0 (n : Nat) : Fld := ⟨R.MTX_CORE_STATUS n, 2, 2⟩
def MTX_CORE_STATUS_FROZEN (n : Nat) : Fld := ⟨R.MTX_CORE_STATUS n, 1, 1⟩
def MTX_CORE_STATUS_BALLAST (n : Nat) : Fld := ⟨R.MTX_CORE_STATUS n, 0, 0⟩
def MTX_RUN_CC_CC (n : Nat) : Fld := ⟨R.MTX_RUN_CC n, 63, 0⟩
def MTX_FREEZE_CC_CC (n : Nat) : Fld := ⟨R.MTX_FREEZE_CC n, 63, 0⟩
def MTX_DRAIN_FREEZE_CC_CC (n : Nat) : Fld := ⟨R.MTX_DRAIN_FREEZE_CC n, 63, 0⟩
def MTX_GATED_CELLS (n : Nat) : Fld := ⟨R.MTX_GATED n, 63, 0⟩
def MTX_ERR_COUNT_FENCES (n : Nat) : Fld := ⟨R.MTX_ERR_COUNT n, 63, 32⟩
def MTX_ERR_COUNT_PARITY (n : Nat) : Fld := ⟨R.MTX_ERR_COUNT n, 31, 0⟩
def MTX_FAULT_KIND (n : Nat) : Fld := ⟨R.MTX_FAULT n, 63, 60⟩
def MTX_FAULT_HALF (n : Nat) : Fld := ⟨R.MTX_FAULT n, 59, 59⟩
def MTX_FAULT_FORM (n : Nat) : Fld := ⟨R.MTX_FAULT n, 58, 56⟩
def MTX_FAULT_ROW (n : Nat) : Fld := ⟨R.MTX_FAULT n, 47, 32⟩
def MTX_FAULT_CYCLE (n : Nat) : Fld := ⟨R.MTX_FAULT n, 31, 0⟩
def MTX_EVENT_COUNT_SAT (n : Nat) : Fld := ⟨R.MTX_EVENT n, 7, 7⟩
def MTX_EVENT_LOCKED_WRITE (n : Nat) : Fld := ⟨R.MTX_EVENT n, 6, 6⟩
def MTX_EVENT_CONFIG_ERR (n : Nat) : Fld := ⟨R.MTX_EVENT n, 5, 5⟩
def MTX_EVENT_FENCE (n : Nat) : Fld := ⟨R.MTX_EVENT n, 4, 4⟩
def MTX_EVENT_PARITY (n : Nat) : Fld := ⟨R.MTX_EVENT n, 3, 3⟩
def MTX_EVENT_DRAIN_FREEZE (n : Nat) : Fld := ⟨R.MTX_EVENT n, 2, 2⟩
def MTX_EVENT_FREEZE (n : Nat) : Fld := ⟨R.MTX_EVENT n, 1, 1⟩
def MTX_EVENT_FAULT (n : Nat) : Fld := ⟨R.MTX_EVENT n, 0, 0⟩
def MTX_EVT_SUM_CORES (n : Nat) : Fld := ⟨R.MTX_EVT_SUM n, 63, 0⟩
def STR_CTRL_CACHE_EN : Fld := ⟨R.STR_CTRL, 32, 32⟩
def STR_CTRL_REMOTE_SHARE : Fld := ⟨R.STR_CTRL, 20, 16⟩
def STR_CTRL_WRITE_SHARE : Fld := ⟨R.STR_CTRL, 12, 8⟩
def STR_CTRL_READ_SHARE : Fld := ⟨R.STR_CTRL, 4, 0⟩
def STR_CTX_CMD_OP : Fld := ⟨R.STR_CTX_CMD, 63, 60⟩
def STR_CTX_CMD_CTX : Fld := ⟨R.STR_CTX_CMD, 58, 48⟩
def STR_CTX_CMD_JOB : Fld := ⟨R.STR_CTX_CMD, 47, 32⟩
def STR_CTX_SEL_CTX : Fld := ⟨R.STR_CTX_SEL, 10, 0⟩
def STR_CTX_STATE (n : Nat) : Fld := ⟨R.STR_CTX n, 63, 62⟩
def STR_CTX_FLAG_FAULT (n : Nat) : Fld := ⟨R.STR_CTX n, 61, 61⟩
def STR_CTX_JOB (n : Nat) : Fld := ⟨R.STR_CTX n, 47, 32⟩
def STR_CTX_IN_USE (n : Nat) : Fld := ⟨R.STR_CTX n, 30, 16⟩
def STR_CTX_QUOTA (n : Nat) : Fld := ⟨R.STR_CTX n, 14, 0⟩
def STR_CHAN_CMD_OP : Fld := ⟨R.STR_CHAN_CMD, 63, 62⟩
def STR_CHAN_CMD_CTX : Fld := ⟨R.STR_CHAN_CMD, 61, 51⟩
def STR_CHAN_CMD_ADDR : Fld := ⟨R.STR_CHAN_CMD, 43, 7⟩
def STR_PUSH_OP : Fld := ⟨R.STR_PUSH, 63, 62⟩
def STR_PUSH_HANDLE : Fld := ⟨R.STR_PUSH, 31, 0⟩
def STR_STATUS_DESC_FREE : Fld := ⟨R.STR_STATUS, 46, 32⟩
def STR_STATUS_CHAN_FREE : Fld := ⟨R.STR_STATUS, 29, 16⟩
def STR_STATUS_ZEROING : Fld := ⟨R.STR_STATUS, 1, 1⟩
def STR_STATUS_CACHE_ACTIVE : Fld := ⟨R.STR_STATUS, 0, 0⟩
def STR_FAULT_KIND : Fld := ⟨R.STR_FAULT, 63, 56⟩
def STR_FAULT_CTX : Fld := ⟨R.STR_FAULT, 50, 40⟩
def STR_FAULT_HANDLE : Fld := ⟨R.STR_FAULT, 31, 0⟩
def STR_EVENT_FLAG_WAIT : Fld := ⟨R.STR_EVENT, 9, 9⟩
def STR_EVENT_COUNT_SAT : Fld := ⟨R.STR_EVENT, 8, 8⟩
def STR_EVENT_POOL_EMPTY : Fld := ⟨R.STR_EVENT, 7, 7⟩
def STR_EVENT_REFUSED : Fld := ⟨R.STR_EVENT, 6, 6⟩
def STR_EVENT_REARM_HELD : Fld := ⟨R.STR_EVENT, 5, 5⟩
def STR_EVENT_KILL_DONE : Fld := ⟨R.STR_EVENT, 4, 4⟩
def STR_EVENT_RELEASED : Fld := ⟨R.STR_EVENT, 3, 3⟩
def STR_EVENT_CHAN_DONE : Fld := ⟨R.STR_EVENT, 2, 2⟩
def STR_EVENT_CMD_ERR : Fld := ⟨R.STR_EVENT, 1, 1⟩
def STR_EVENT_FAULT : Fld := ⟨R.STR_EVENT, 0, 0⟩
def STR_UNITS_READ_UNITS : Fld := ⟨R.STR_UNITS_READ, 63, 0⟩
def STR_UNITS_WRITE_UNITS : Fld := ⟨R.STR_UNITS_WRITE, 63, 0⟩
def STR_UNITS_REMOTE_UNITS : Fld := ⟨R.STR_UNITS_REMOTE, 63, 0⟩
def STR_SHORT_UNITS : Fld := ⟨R.STR_SHORT, 63, 0⟩
def STR_CACHE_HIT_UNITS : Fld := ⟨R.STR_CACHE_HIT, 63, 0⟩
def STR_ERR_COUNT_REFUSED : Fld := ⟨R.STR_ERR_COUNT, 63, 32⟩
def STR_ERR_COUNT_FAULTS : Fld := ⟨R.STR_ERR_COUNT, 31, 0⟩
def ETH_CTRL_VID : Fld := ⟨R.ETH_CTRL, 43, 32⟩
def ETH_CTRL_CNP_EN : Fld := ⟨R.ETH_CTRL, 1, 1⟩
def ETH_CTRL_ENABLE : Fld := ⟨R.ETH_CTRL, 0, 0⟩
def ETH_STATUS_FLOWS_FREE : Fld := ⟨R.ETH_STATUS, 60, 48⟩
def ETH_STATUS_LINK : Fld := ⟨R.ETH_STATUS, 1, 0⟩
def ETH_MAC_MAC : Fld := ⟨R.ETH_MAC, 47, 0⟩
def ETH_IP4_ADDR : Fld := ⟨R.ETH_IP4, 31, 0⟩
def ETH_IP6_HI_ADDR : Fld := ⟨R.ETH_IP6_HI, 63, 0⟩
def ETH_IP6_LO_ADDR : Fld := ⟨R.ETH_IP6_LO, 63, 0⟩
def ETH_PRIO_PTP : Fld := ⟨R.ETH_PRIO, 22, 20⟩
def ETH_PRIO_SVC : Fld := ⟨R.ETH_PRIO, 18, 16⟩
def ETH_PRIO_DEPOT : Fld := ⟨R.ETH_PRIO, 14, 12⟩
def ETH_PRIO_HOST : Fld := ⟨R.ETH_PRIO, 10, 8⟩
def ETH_PRIO_MGMT : Fld := ⟨R.ETH_PRIO, 6, 4⟩
def ETH_PRIO_BOOT : Fld := ⟨R.ETH_PRIO, 2, 0⟩
def ETH_PFC_MASK : Fld := ⟨R.ETH_PFC, 7, 0⟩
def ETH_MR_SEL_INDEX : Fld := ⟨R.ETH_MR_SEL, 7, 0⟩
def ETH_MR_CTL_VALID (n : Nat) : Fld := ⟨R.ETH_MR_CTL n, 63, 63⟩
def ETH_MR_CTL_WRITE (n : Nat) : Fld := ⟨R.ETH_MR_CTL n, 62, 62⟩
def ETH_MR_CTL_READ (n : Nat) : Fld := ⟨R.ETH_MR_CTL n, 61, 61⟩
def ETH_MR_CTL_SIZE_LOG2 (n : Nat) : Fld := ⟨R.ETH_MR_CTL n, 55, 50⟩
def ETH_MR_CTL_JOB (n : Nat) : Fld := ⟨R.ETH_MR_CTL n, 47, 32⟩
def ETH_MR_CTL_KEY (n : Nat) : Fld := ⟨R.ETH_MR_CTL n, 23, 0⟩
def ETH_DEPOT_RING_BASE : Fld := ⟨R.ETH_DEPOT_RING, 43, 16⟩
def ETH_DEPOT_RING_VALID : Fld := ⟨R.ETH_DEPOT_RING, 0, 0⟩
def ETH_DEPOT_TAIL_HEAD : Fld := ⟨R.ETH_DEPOT_TAIL, 25, 16⟩
def ETH_DEPOT_TAIL_TAIL : Fld := ⟨R.ETH_DEPOT_TAIL, 9, 0⟩
def ETH_RX_BYTES_BYTES : Fld := ⟨R.ETH_RX_BYTES, 63, 0⟩
def ETH_TX_BYTES_BYTES : Fld := ⟨R.ETH_TX_BYTES, 63, 0⟩
def ETH_ERR_COUNT_AUTH : Fld := ⟨R.ETH_ERR_COUNT, 63, 32⟩
def ETH_ERR_COUNT_DROP : Fld := ⟨R.ETH_ERR_COUNT, 31, 0⟩
def ETH_EVENT_LOCKED_WRITE : Fld := ⟨R.ETH_EVENT, 11, 11⟩
def ETH_EVENT_COUNT_SAT : Fld := ⟨R.ETH_EVENT, 10, 10⟩
def ETH_EVENT_VERSION : Fld := ⟨R.ETH_EVENT, 9, 9⟩
def ETH_EVENT_FLOWS_EMPTY : Fld := ⟨R.ETH_EVENT, 8, 8⟩
def ETH_EVENT_SVC_FULL : Fld := ⟨R.ETH_EVENT, 7, 7⟩
def ETH_EVENT_DEPOT_ERR : Fld := ⟨R.ETH_EVENT, 6, 6⟩
def ETH_EVENT_DEPOT_AUTH : Fld := ⟨R.ETH_EVENT, 5, 5⟩
def ETH_EVENT_QP_ERR : Fld := ⟨R.ETH_EVENT, 4, 4⟩
def ETH_EVENT_RKEY : Fld := ⟨R.ETH_EVENT, 3, 3⟩
def ETH_EVENT_LINK_DOWN : Fld := ⟨R.ETH_EVENT, 1, 1⟩
def ETH_EVENT_LINK_UP : Fld := ⟨R.ETH_EVENT, 0, 0⟩
def ETH_MR_BASE_BASE (n : Nat) : Fld := ⟨R.ETH_MR_BASE n, 43, 6⟩
def ETH_SVC_UDP_PORT (n : Nat) : Fld := ⟨R.ETH_SVC n, 63, 48⟩
def ETH_SVC_JOB (n : Nat) : Fld := ⟨R.ETH_SVC n, 47, 32⟩
def ETH_SVC_RING4K (n : Nat) : Fld := ⟨R.ETH_SVC n, 31, 0⟩
def SEC_CTRL_ZERO_ON_KILL : Fld := ⟨R.SEC_CTRL, 0, 0⟩
def SEC_STATUS_KEYS_FREE : Fld := ⟨R.SEC_STATUS, 26, 16⟩
def SEC_STATUS_LOCKED : Fld := ⟨R.SEC_STATUS, 8, 8⟩
def SEC_STATUS_BOOT : Fld := ⟨R.SEC_STATUS, 5, 4⟩
def SEC_STATUS_LIFECYCLE : Fld := ⟨R.SEC_STATUS, 1, 0⟩
def SEC_SVN_SVN (k : Nat) : Fld := ⟨R.SEC_SVN, 8 * k + 7, 8 * k⟩
def SEC_SVN_RUN_RUN (k : Nat) : Fld := ⟨R.SEC_SVN_RUN, 8 * k + 7, 8 * k⟩
def SEC_CMD_OP : Fld := ⟨R.SEC_CMD, 63, 60⟩
def SEC_CMD_IMM : Fld := ⟨R.SEC_CMD, 55, 32⟩
def SEC_CMD_ARG_ARG : Fld := ⟨R.SEC_CMD_ARG, 63, 0⟩
def SEC_CMD_STATUS_BUSY : Fld := ⟨R.SEC_CMD_STATUS, 63, 63⟩
def SEC_CMD_STATUS_RESULT : Fld := ⟨R.SEC_CMD_STATUS, 35, 32⟩
def SEC_CMD_STATUS_HANDLE : Fld := ⟨R.SEC_CMD_STATUS, 31, 0⟩
def SEC_GIB_SEL_GIB : Fld := ⟨R.SEC_GIB_SEL, 8, 0⟩
def SEC_GIB_CLEAN (n : Nat) : Fld := ⟨R.SEC_GIB n, 63, 63⟩
def SEC_GIB_ZEROING (n : Nat) : Fld := ⟨R.SEC_GIB n, 62, 62⟩
def SEC_GIB_OWNER (n : Nat) : Fld := ⟨R.SEC_GIB n, 47, 32⟩
def SEC_SERIAL_SERIAL : Fld := ⟨R.SEC_SERIAL, 63, 0⟩
def SEC_ERR_COUNT_AUTH : Fld := ⟨R.SEC_ERR_COUNT, 63, 32⟩
def SEC_ERR_COUNT_REJECT : Fld := ⟨R.SEC_ERR_COUNT, 31, 0⟩
def SEC_EVENT_COUNT_SAT : Fld := ⟨R.SEC_EVENT, 8, 8⟩
def SEC_EVENT_DIRTY_ALLOC : Fld := ⟨R.SEC_EVENT, 7, 7⟩
def SEC_EVENT_ZERO_DONE : Fld := ⟨R.SEC_EVENT, 6, 6⟩
def SEC_EVENT_CMD_ERR : Fld := ⟨R.SEC_EVENT, 5, 5⟩
def SEC_EVENT_CMD_DONE : Fld := ⟨R.SEC_EVENT, 4, 4⟩
def SEC_EVENT_IMAGE_REJECT : Fld := ⟨R.SEC_EVENT, 3, 3⟩
def SEC_EVENT_LINK_AUTH : Fld := ⟨R.SEC_EVENT, 2, 2⟩
def SEC_EVENT_SVN_ADVANCED : Fld := ⟨R.SEC_EVENT, 1, 1⟩
def SEC_EVENT_DECOMMISSIONED : Fld := ⟨R.SEC_EVENT, 0, 0⟩
def SEC_DECOM_CODE : Fld := ⟨R.SEC_DECOM, 31, 0⟩
def GND_CTRL_CORE_RUN : Fld := ⟨R.GND_CTRL, 5, 0⟩
def GND_STATUS_LEASE : Fld := ⟨R.GND_STATUS, 17, 16⟩
def GND_STATUS_CORE_TRAP : Fld := ⟨R.GND_STATUS, 13, 8⟩
def GND_STATUS_STATE : Fld := ⟨R.GND_STATUS, 2, 0⟩
def GND_LEASE_RENEW : Fld := ⟨R.GND_LEASE, 63, 63⟩
def GND_LEASE_REMAIN_MS : Fld := ⟨R.GND_LEASE, 62, 32⟩
def GND_LEASE_MS : Fld := ⟨R.GND_LEASE, 31, 0⟩
def GND_HOLD_START : Fld := ⟨R.GND_HOLD, 63, 63⟩
def GND_HOLD_REMAIN_S : Fld := ⟨R.GND_HOLD, 62, 32⟩
def GND_HOLD_SECONDS : Fld := ⟨R.GND_HOLD, 11, 0⟩
def GND_WDOG_FEED : Fld := ⟨R.GND_WDOG, 63, 63⟩
def GND_WDOG_EN : Fld := ⟨R.GND_WDOG, 16, 16⟩
def GND_WDOG_MS : Fld := ⟨R.GND_WDOG, 15, 0⟩
def GND_COMP_SEL_COMP : Fld := ⟨R.GND_COMP_SEL, 2, 0⟩
def GND_COMP_STATE (n : Nat) : Fld := ⟨R.GND_COMP n, 63, 60⟩
def GND_COMP_CAUSE (n : Nat) : Fld := ⟨R.GND_COMP n, 59, 56⟩
def GND_COMP_RESTARTS (n : Nat) : Fld := ⟨R.GND_COMP n, 55, 48⟩
def GND_COMP_STATE_VER (n : Nat) : Fld := ⟨R.GND_COMP n, 47, 32⟩
def GND_COMP_CRASHES (n : Nat) : Fld := ⟨R.GND_COMP n, 31, 0⟩
def GND_LOG_NEXT_SEQ : Fld := ⟨R.GND_LOG, 63, 0⟩
def GND_LOG_DROP_COUNT : Fld := ⟨R.GND_LOG_DROP, 63, 0⟩
def GND_TRACE_CTRL_RATE : Fld := ⟨R.GND_TRACE_CTRL, 15, 0⟩
def GND_ERR_COUNT_WDOG : Fld := ⟨R.GND_ERR_COUNT, 63, 32⟩
def GND_ERR_COUNT_CRASHES : Fld := ⟨R.GND_ERR_COUNT, 31, 0⟩
def GND_EVENT_COUNT_SAT : Fld := ⟨R.GND_EVENT, 10, 10⟩
def GND_EVENT_LOG_DROP : Fld := ⟨R.GND_EVENT, 9, 9⟩
def GND_EVENT_UPDATE_REFUSED : Fld := ⟨R.GND_EVENT, 8, 8⟩
def GND_EVENT_UPDATE_DONE : Fld := ⟨R.GND_EVENT, 7, 7⟩
def GND_EVENT_RECLAIMED : Fld := ⟨R.GND_EVENT, 6, 6⟩
def GND_EVENT_HOLD_EXPIRED : Fld := ⟨R.GND_EVENT, 5, 5⟩
def GND_EVENT_LEASE_EXPIRED : Fld := ⟨R.GND_EVENT, 4, 4⟩
def GND_EVENT_WDOG : Fld := ⟨R.GND_EVENT, 3, 3⟩
def GND_EVENT_RESTART_FAIL : Fld := ⟨R.GND_EVENT, 2, 2⟩
def GND_EVENT_RESTARTED : Fld := ⟨R.GND_EVENT, 1, 1⟩
def GND_EVENT_CRASH : Fld := ⟨R.GND_EVENT, 0, 0⟩
def GND_TRACE_EN_EN (n : Nat) : Fld := ⟨R.GND_TRACE_EN n, 63, 0⟩
def PWR_CTRL_SLEW : Fld := ⟨R.PWR_CTRL, 13, 8⟩
def PWR_CTRL_TRIP_CLR : Fld := ⟨R.PWR_CTRL, 2, 2⟩
def PWR_CTRL_GOV_EN : Fld := ⟨R.PWR_CTRL, 0, 0⟩
def PWR_STATUS_STATE : Fld := ⟨R.PWR_STATUS, 7, 4⟩
def PWR_STATUS_HOLD : Fld := ⟨R.PWR_STATUS, 2, 2⟩
def PWR_STATUS_AUX_OK : Fld := ⟨R.PWR_STATUS, 1, 1⟩
def PWR_STATUS_MAIN_OK : Fld := ⟨R.PWR_STATUS, 0, 0⟩
def PWR_PROFILE_VALID : Fld := ⟨R.PWR_PROFILE, 63, 63⟩
def PWR_PROFILE_LEN : Fld := ⟨R.PWR_PROFILE, 59, 48⟩
def PWR_PROFILE_BASE : Fld := ⟨R.PWR_PROFILE, 43, 1⟩
def PWR_LIMIT_PEAK_W : Fld := ⟨R.PWR_LIMIT, 43, 32⟩
def PWR_LIMIT_LIMIT_W : Fld := ⟨R.PWR_LIMIT, 11, 0⟩
def PWR_THERM_HBM_C : Fld := ⟨R.PWR_THERM, 15, 8⟩
def PWR_THERM_DIE_C : Fld := ⟨R.PWR_THERM, 7, 0⟩
def PWR_THROTTLE_CAUSE : Fld := ⟨R.PWR_THROTTLE, 11, 8⟩
def PWR_THROTTLE_LEVEL : Fld := ⟨R.PWR_THROTTLE, 2, 0⟩
def PWR_IN_VIN : Fld := ⟨R.PWR_IN, 63, 48⟩
def PWR_IN_IIN : Fld := ⟨R.PWR_IN, 47, 32⟩
def PWR_IN_PIN : Fld := ⟨R.PWR_IN, 15, 0⟩
def PWR_TARGET_BALLAST_W : Fld := ⟨R.PWR_TARGET, 47, 32⟩
def PWR_TARGET_DEMAND_W : Fld := ⟨R.PWR_TARGET, 31, 16⟩
def PWR_TARGET_TARGET_W : Fld := ⟨R.PWR_TARGET, 15, 0⟩
def PWR_TEMP_DIE_MAX : Fld := ⟨R.PWR_TEMP, 63, 56⟩
def PWR_TEMP_HBM_MAX : Fld := ⟨R.PWR_TEMP, 55, 48⟩
def PWR_TEMP_CORE : Fld := ⟨R.PWR_TEMP, 47, 40⟩
def PWR_ENERGY_MJ : Fld := ⟨R.PWR_ENERGY, 63, 0⟩
def PWR_ERR_COUNT_HOLDS : Fld := ⟨R.PWR_ERR_COUNT, 63, 32⟩
def PWR_ERR_COUNT_OVER : Fld := ⟨R.PWR_ERR_COUNT, 31, 0⟩
def PWR_EVENT_COUNT_SAT : Fld := ⟨R.PWR_EVENT, 6, 6⟩
def PWR_EVENT_LOCKED_WRITE : Fld := ⟨R.PWR_EVENT, 5, 5⟩
def PWR_EVENT_THERM_TRIP : Fld := ⟨R.PWR_EVENT, 4, 4⟩
def PWR_EVENT_THROTTLE_CLEAR : Fld := ⟨R.PWR_EVENT, 3, 3⟩
def PWR_EVENT_THROTTLE : Fld := ⟨R.PWR_EVENT, 2, 2⟩
def PWR_EVENT_BUS_HOLD : Fld := ⟨R.PWR_EVENT, 1, 1⟩
def PWR_EVENT_OVER_PROFILE : Fld := ⟨R.PWR_EVENT, 0, 0⟩
def NVS_STATUS_SPARES : Fld := ⟨R.NVS_STATUS, 26, 16⟩
def NVS_STATUS_ID_VALID : Fld := ⟨R.NVS_STATUS, 3, 3⟩
def NVS_STATUS_MOUNTED : Fld := ⟨R.NVS_STATUS, 2, 2⟩
def NVS_STATUS_LOCKED : Fld := ⟨R.NVS_STATUS, 1, 1⟩
def NVS_CMD_OP : Fld := ⟨R.NVS_CMD, 63, 60⟩
def NVS_CMD_CLASS : Fld := ⟨R.NVS_CMD, 59, 56⟩
def NVS_CMD_KEY : Fld := ⟨R.NVS_CMD, 55, 40⟩
def NVS_CMD_LEN : Fld := ⟨R.NVS_CMD, 31, 0⟩
def NVS_ARG_ADDR : Fld := ⟨R.NVS_ARG, 43, 6⟩
def NVS_CMD_STATUS_BUSY : Fld := ⟨R.NVS_CMD_STATUS, 63, 63⟩
def NVS_CMD_STATUS_RESULT : Fld := ⟨R.NVS_CMD_STATUS, 35, 32⟩
def NVS_CMD_STATUS_COUNT : Fld := ⟨R.NVS_CMD_STATUS, 31, 0⟩
def NVS_WEAR_BLOCK : Fld := ⟨R.NVS_WEAR, 42, 32⟩
def NVS_WEAR_ERASES : Fld := ⟨R.NVS_WEAR, 31, 0⟩
def NVS_ERR_COUNT_TORN : Fld := ⟨R.NVS_ERR_COUNT, 63, 32⟩
def NVS_ERR_COUNT_FAILS : Fld := ⟨R.NVS_ERR_COUNT, 31, 0⟩
def NVS_EVENT_COUNT_SAT : Fld := ⟨R.NVS_EVENT, 6, 6⟩
def NVS_EVENT_WEAR : Fld := ⟨R.NVS_EVENT, 5, 5⟩
def NVS_EVENT_ID_LOST : Fld := ⟨R.NVS_EVENT, 4, 4⟩
def NVS_EVENT_BLOCK_RETIRED : Fld := ⟨R.NVS_EVENT, 3, 3⟩
def NVS_EVENT_MOUNT_REPAIR : Fld := ⟨R.NVS_EVENT, 2, 2⟩
def NVS_EVENT_CMD_ERR : Fld := ⟨R.NVS_EVENT, 1, 1⟩
def NVS_EVENT_CMD_DONE : Fld := ⟨R.NVS_EVENT, 0, 0⟩
def NVS_CLASS_SEQ (n : Nat) : Fld := ⟨R.NVS_CLASS n, 63, 32⟩
def NVS_CLASS_LIVE (n : Nat) : Fld := ⟨R.NVS_CLASS n, 31, 16⟩
def NVS_CLASS_FREE (n : Nat) : Fld := ⟨R.NVS_CLASS n, 15, 0⟩
def TEL_CTRL_FATAL_CLR : Fld := ⟨R.TEL_CTRL, 15, 15⟩
def TEL_CTRL_SNAP_EN : Fld := ⟨R.TEL_CTRL, 14, 14⟩
def TEL_CTRL_IRQ_CORE : Fld := ⟨R.TEL_CTRL, 10, 8⟩
def TEL_CTRL_IRQ_CLASS : Fld := ⟨R.TEL_CTRL, 4, 0⟩
def TEL_EVT_SUM_BLOCKS : Fld := ⟨R.TEL_EVT_SUM, 14, 0⟩
def TEL_EVQ_HI_TICK : Fld := ⟨R.TEL_EVQ_HI, 63, 32⟩
def TEL_EVQ_HI_CLASS : Fld := ⟨R.TEL_EVQ_HI, 30, 28⟩
def TEL_EVQ_HI_BLOCK : Fld := ⟨R.TEL_EVQ_HI, 27, 24⟩
def TEL_EVQ_HI_BIT : Fld := ⟨R.TEL_EVQ_HI, 23, 18⟩
def TEL_EVQ_HI_UNIT : Fld := ⟨R.TEL_EVQ_HI, 15, 0⟩
def TEL_EVQ_LO_TIME : Fld := ⟨R.TEL_EVQ_LO, 63, 0⟩
def TEL_EVQ_STATUS_COUNT : Fld := ⟨R.TEL_EVQ_STATUS, 10, 0⟩
def TEL_RIPCORD_CAUSE : Fld := ⟨R.TEL_RIPCORD, 63, 56⟩
def TEL_RIPCORD_ORIGIN_Y : Fld := ⟨R.TEL_RIPCORD, 53, 48⟩
def TEL_RIPCORD_ORIGIN_X : Fld := ⟨R.TEL_RIPCORD, 46, 40⟩
def TEL_RIPCORD_SERIAL : Fld := ⟨R.TEL_RIPCORD, 31, 16⟩
def TEL_RIPCORD_OWN_SERIAL : Fld := ⟨R.TEL_RIPCORD, 15, 0⟩
def TEL_RIPCORD_PULL_PULL : Fld := ⟨R.TEL_RIPCORD_PULL, 0, 0⟩
def TEL_FATAL_CAUSE : Fld := ⟨R.TEL_FATAL, 63, 60⟩
def TEL_FATAL_TICK : Fld := ⟨R.TEL_FATAL, 31, 0⟩
def TEL_ERR_COUNT_PARITY : Fld := ⟨R.TEL_ERR_COUNT, 63, 32⟩
def TEL_ERR_COUNT_DROPS : Fld := ⟨R.TEL_ERR_COUNT, 31, 0⟩
def TEL_EVENT_COUNT_SAT : Fld := ⟨R.TEL_EVENT, 5, 5⟩
def TEL_EVENT_EVQ_DROP : Fld := ⟨R.TEL_EVENT, 4, 4⟩
def TEL_EVENT_HDR_PARITY : Fld := ⟨R.TEL_EVENT, 3, 3⟩
def TEL_EVENT_PARITY : Fld := ⟨R.TEL_EVENT, 2, 2⟩
def TEL_EVENT_RIPCORD : Fld := ⟨R.TEL_EVENT, 1, 1⟩
def TEL_EVENT_FATAL : Fld := ⟨R.TEL_EVENT, 0, 0⟩
def TEL_SNAP_TICK_TICK : Fld := ⟨R.TEL_SNAP_TICK, 63, 0⟩
def TEL_PMSEL_UNIT (n : Nat) : Fld := ⟨R.TEL_PMSEL n, 23, 16⟩
def TEL_PMSEL_EVENT (n : Nat) : Fld := ⟨R.TEL_PMSEL n, 4, 0⟩
def TEL_PMC_COUNT (n : Nat) : Fld := ⟨R.TEL_PMC n, 63, 0⟩
def TEL_PMS_COUNT (n : Nat) : Fld := ⟨R.TEL_PMS n, 63, 0⟩
def DEV_ID_VENDOR : Fld := ⟨R.DEV_ID, 63, 48⟩
def DEV_ID_PART : Fld := ⟨R.DEV_ID, 47, 32⟩
def DEV_ID_STEPPING : Fld := ⟨R.DEV_ID, 15, 8⟩
def DEV_CAPS_STACKS : Fld := ⟨R.DEV_CAPS, 55, 48⟩
def DEV_CAPS_STACK_GIB : Fld := ⟨R.DEV_CAPS, 47, 40⟩
def DEV_CAPS_CORES : Fld := ⟨R.DEV_CAPS, 31, 16⟩
def DEV_CAPS_CLUSTERS : Fld := ⟨R.DEV_CAPS, 15, 8⟩
def DEV_CAPS_PORTS : Fld := ⟨R.DEV_CAPS, 7, 0⟩
def DEV_STATUS_HBM_READY : Fld := ⟨R.DEV_STATUS, 15, 15⟩
def DEV_STATUS_FATAL : Fld := ⟨R.DEV_STATUS, 14, 14⟩
def DEV_STATUS_TRIP : Fld := ⟨R.DEV_STATUS, 13, 13⟩
def DEV_STATUS_SLOT : Fld := ⟨R.DEV_STATUS, 3, 0⟩
def DEV_EVENT_RESERVED_WRITE : Fld := ⟨R.DEV_EVENT, 0, 0⟩
def DEV_RSV_ADDR_ADDR : Fld := ⟨R.DEV_RSV_ADDR, 43, 0⟩
def DEV_APER_VALID (n : Nat) : Fld := ⟨R.DEV_APER n, 63, 63⟩
def DEV_APER_WIN (n : Nat) : Fld := ⟨R.DEV_APER n, 29, 24⟩
def DEV_APER_Y (n : Nat) : Fld := ⟨R.DEV_APER n, 21, 16⟩
def DEV_APER_X (n : Nat) : Fld := ⟨R.DEV_APER n, 6, 0⟩
def DEV_WIN_BASE_BASE (n : Nat) : Fld := ⟨R.DEV_WIN_BASE n, 43, 16⟩
def DEV_WIN_CTL_VALID (n : Nat) : Fld := ⟨R.DEV_WIN_CTL n, 63, 63⟩
def DEV_WIN_CTL_ATOMIC (n : Nat) : Fld := ⟨R.DEV_WIN_CTL n, 62, 62⟩
def DEV_WIN_CTL_WRITE (n : Nat) : Fld := ⟨R.DEV_WIN_CTL n, 61, 61⟩
def DEV_WIN_CTL_READ (n : Nat) : Fld := ⟨R.DEV_WIN_CTL n, 60, 60⟩
def DEV_WIN_CTL_SIZE_LOG2 (n : Nat) : Fld := ⟨R.DEV_WIN_CTL n, 59, 54⟩
def DEV_WIN_CTL_Y1 (n : Nat) : Fld := ⟨R.DEV_WIN_CTL n, 53, 48⟩
def DEV_WIN_CTL_Y0 (n : Nat) : Fld := ⟨R.DEV_WIN_CTL n, 47, 42⟩
def DEV_WIN_CTL_X1 (n : Nat) : Fld := ⟨R.DEV_WIN_CTL n, 41, 35⟩
def DEV_WIN_CTL_X0 (n : Nat) : Fld := ⟨R.DEV_WIN_CTL n, 34, 28⟩
def DEV_WIN_CTL_JOB (n : Nat) : Fld := ⟨R.DEV_WIN_CTL n, 15, 0⟩
def DEV_WIN_FAULT_CAUSE : Fld := ⟨R.DEV_WIN_FAULT, 63, 60⟩
def DEV_WIN_FAULT_SRC_X : Fld := ⟨R.DEV_WIN_FAULT, 59, 53⟩
def DEV_WIN_FAULT_SRC_Y : Fld := ⟨R.DEV_WIN_FAULT, 52, 47⟩
def DEV_WIN_FAULT_ADDR : Fld := ⟨R.DEV_WIN_FAULT, 43, 0⟩
def DEV_WIN_EVENT_CONFIG_ERR : Fld := ⟨R.DEV_WIN_EVENT, 4, 4⟩
def DEV_WIN_EVENT_APERTURE : Fld := ⟨R.DEV_WIN_EVENT, 3, 3⟩
def DEV_WIN_EVENT_REFUSED : Fld := ⟨R.DEV_WIN_EVENT, 2, 2⟩
def DEV_WIN_EVENT_UNMAPPED : Fld := ⟨R.DEV_WIN_EVENT, 1, 1⟩
def DEV_WIN_EVENT_FAULT : Fld := ⟨R.DEV_WIN_EVENT, 0, 0⟩

end F

/-- The TCK block. -/
def rowsTCK : List RegRow :=
  [⟨0x0, 0x0, 0x0, 1, false, 0xffffffffffff0003, 0x0, 0x8⟩ /- TCK_CTRL -/,
   ⟨0x8, 0x8, 0x0, 1, false, 0xfffff, 0x0, 0x0⟩ /- TCK_PERIOD -/,
   ⟨0x10, 0x10, 0x0, 1, false, 0xffff, 0x0, 0x0⟩ /- TCK_LEAD -/,
   ⟨0x18, 0x18, 0x0, 1, false, 0xfffff0000ff0f, 0x0, 0x0⟩ /- TCK_GOVERN -/,
   ⟨0x20, 0x20, 0x0, 1, false, 0x0, 0x0, 0x0⟩ /- TCK_NUMBER -/,
   ⟨0x28, 0x28, 0x0, 1, false, 0x0, 0x0, 0x0⟩ /- TCK_SCHED -/,
   ⟨0x30, 0x30, 0x0, 1, false, 0xffffffffffffffff, 0x0, 0x0⟩ /- TCK_START -/,
   ⟨0x38, 0x38, 0x0, 1, false, 0x0, 0x0, 0x0⟩ /- TCK_BASE_TIME -/,
   ⟨0x40, 0x40, 0x0, 1, false, 0x0, 0x0, 0x0⟩ /- TCK_BASE_TICK -/,
   ⟨0x48, 0x48, 0x0, 1, false, 0x0, 0x0, 0x0⟩ /- TCK_LINK_DELAY -/,
   ⟨0x50, 0x50, 0x0, 1, false, 0x0, 0x0, 0x0⟩ /- TCK_MISS -/,
   ⟨0x58, 0x58, 0x0, 1, false, 0xffffffffffffffff, 0x0, 0x0⟩ /- TCK_MISS_COUNT -/,
   ⟨0x60, 0x60, 0x0, 1, false, 0x0, 0x0, 0x0⟩ /- TCK_STATUS -/,
   ⟨0x68, 0x68, 0x0, 1, false, 0x0, 0x3ff, 0x0⟩ /- TCK_EVENT -/]

/-- The TTH block. -/
def rowsTTH : List RegRow :=
  [⟨0x10000, 0x10000, 0x0, 1, false, 0xb1, 0x0, 0x0⟩ /- TTH_CTRL -/,
   ⟨0x10008, 0x10008, 0x0, 1, false, 0x3fff00ff1fff, 0x0, 0x0⟩ /- TTH_STATION -/,
   ⟨0x10010, 0x10010, 0x0, 1, false, 0xffff0fffffffffe0, 0x0, 0x0⟩ /- TTH_LIST_CW -/,
   ⟨0x10018, 0x10018, 0x0, 1, false, 0xffff0fffffffffe0, 0x0, 0x0⟩ /- TTH_LIST_CCW -/,
   ⟨0x10020, 0x10020, 0x0, 1, false, 0xffffffffffffffff, 0x0, 0x0⟩ /- TTH_ROT -/,
   ⟨0x10028, 0x10028, 0x0, 1, false, 0x100ffffffffffff, 0x0, 0x0⟩ /- TTH_MODE_REQ -/,
   ⟨0x10030, 0x10030, 0x0, 1, false, 0x0, 0x0, 0x0⟩ /- TTH_SLOT_FLAGS -/,
   ⟨0x10038, 0x10038, 0x0, 1, false, 0x0, 0x0, 0x0⟩ /- TTH_POS -/,
   ⟨0x10040, 0x10040, 0x0, 1, false, 0x0, 0x0, 0x0⟩ /- TTH_STATUS -/,
   ⟨0x10048, 0x10048, 0x0, 1, false, 0x0, 0x3ff, 0x0⟩ /- TTH_EVENT -/,
   ⟨0x10050, 0x10050, 0x0, 1, false, 0x0, 0x0, 0x0⟩ /- TTH_SPOOLS_IN -/,
   ⟨0x10058, 0x10058, 0x0, 1, false, 0x0, 0x0, 0x0⟩ /- TTH_SPOOLS_OUT -/,
   ⟨0x10060, 0x10060, 0x0, 1, false, 0x0, 0x0, 0x0⟩ /- TTH_WAIT -/,
   ⟨0x10068, 0x10068, 0x8, 6, false, 0x0, 0x0, 0x0⟩ /- TTH_SLOT -/,
   ⟨0x10098, 0x10098, 0x0, 1, false, 0x3c70000007ff000, 0x0, 0x0⟩ /- TTH_TAIL_CW -/,
   ⟨0x100a0, 0x100a0, 0x0, 1, false, 0x3c70000007ff000, 0x0, 0x0⟩ /- TTH_TAIL_CCW -/,
   ⟨0x100a8, 0x100a8, 0x0, 1, false, 0xfffffffffe1, 0x0, 0x0⟩ /- TTH_GRAD_CW -/,
   ⟨0x100b0, 0x100b0, 0x0, 1, false, 0xfffffffffe1, 0x0, 0x0⟩ /- TTH_GRAD_CCW -/,
   ⟨0x100b8, 0x100b8, 0x0, 1, false, 0x1fff00007fff, 0x0, 0x0⟩ /- TTH_RELAY_CTRL -/,
   ⟨0x100c0, 0x100c0, 0x0, 1, false, 0x0, 0x0, 0xffffffffffffffc0⟩ /- TTH_RELAY_CMD -/,
   ⟨0x100c8, 0x100c8, 0x0, 1, false, 0x0, 0x0, 0x0⟩ /- TTH_RELAY_STATUS -/,
   ⟨0x100d0, 0x100d0, 0x0, 1, false, 0x0, 0x7f, 0x0⟩ /- TTH_RIDE_EVENT -/]

/-- The LNK block. -/
def rowsLNK : List RegRow :=
  [⟨0x20000, 0x20000, 0x0, 1, false, 0xfff0f1f, 0x0, 0x0⟩ /- LNK_CTRL -/,
   ⟨0x20008, 0x20008, 0x0, 1, false, 0x80000000003f007f, 0x0, 0x0⟩ /- LNK_COORD -/,
   ⟨0x20010, 0x20010, 0x0, 1, false, 0xbf3f7f7f0000ffff, 0x0, 0x0⟩ /- LNK_REGION -/,
   ⟨0x20018, 0x20018, 0x0, 1, false, 0x1fff, 0x0, 0x0⟩ /- LNK_ROUTE_SEL -/,
   ⟨0x20020, 0x1200000, 0x8, 8192, true, 0xff7f, 0x0, 0x0⟩ /- LNK_ROUTE_DATA -/,
   ⟨0x20028, 0x20028, 0x0, 1, false, 0x0, 0x0, 0x0⟩ /- LNK_VERSION -/,
   ⟨0x20030, 0x20030, 0x0, 1, false, 0x0, 0xf, 0x0⟩ /- LNK_DEV_EVENT -/,
   ⟨0x20038, 0x20038, 0x0, 1, false, 0x0, 0x0, 0x0⟩ /- LNK_EVT_SUM -/,
   ⟨0x21000, 0x21000, 0x100, 4, false, 0x3, 0x0, 0x0⟩ /- LNK_PCTRL -/,
   ⟨0x21008, 0x21008, 0x100, 4, false, 0x0, 0x0, 0x0⟩ /- LNK_PSTATUS -/,
   ⟨0x21010, 0x21010, 0x100, 4, false, 0x0, 0x0, 0x0⟩ /- LNK_PEER_ID -/,
   ⟨0x21018, 0x21018, 0x100, 4, false, 0x0, 0x0, 0x0⟩ /- LNK_PEER_POS -/,
   ⟨0x21020, 0x21020, 0x100, 4, false, 0x0, 0x0, 0x0⟩ /- LNK_FEC_CW -/,
   ⟨0x21028, 0x21028, 0x100, 4, false, 0xffffffffffffffff, 0x0, 0x0⟩ /- LNK_ERR_COUNT -/,
   ⟨0x21030, 0x21030, 0x100, 4, false, 0xffffffffffffffff, 0x0, 0x0⟩ /- LNK_ERR_COUNT2 -/,
   ⟨0x21038, 0x21038, 0x100, 4, false, 0x0, 0x0, 0x0⟩ /- LNK_FRAMES_TX -/,
   ⟨0x21040, 0x21040, 0x100, 4, false, 0x0, 0x0, 0x0⟩ /- LNK_FRAMES_RX -/,
   ⟨0x21048, 0x21048, 0x100, 4, false, 0x0, 0x0, 0x0⟩ /- LNK_MARGIN -/,
   ⟨0x21050, 0x21050, 0x100, 4, false, 0x0, 0xff, 0x0⟩ /- LNK_EVENT -/]

/-- The CDC block. -/
def rowsCDC : List RegRow :=
  [⟨0x30000, 0x30000, 0x0, 1, false, 0x7ff00000001, 0x0, 0x0⟩ /- CDC_CTRL -/,
   ⟨0x30008, 0x30008, 0x0, 1, false, 0xfffffc00001, 0x0, 0x0⟩ /- CDC_TDIR -/,
   ⟨0x30010, 0x30010, 0x0, 1, false, 0xfffffffff80, 0x0, 0x0⟩ /- CDC_TBL_ARG -/,
   ⟨0x30018, 0x30018, 0x0, 1, false, 0x0, 0x0, 0xf7ffffffffffff80⟩ /- CDC_TBL_CMD -/,
   ⟨0x30020, 0x30020, 0x0, 1, false, 0x0, 0x0, 0x0⟩ /- CDC_TBL_STATUS -/,
   ⟨0x30028, 0x30028, 0x0, 1, false, 0x7fff, 0x0, 0x0⟩ /- CDC_SLOT_SEL -/,
   ⟨0x30030, 0x1100000, 0x8, 32768, true, 0x0, 0x0, 0x0⟩ /- CDC_SLOT_GEN -/,
   ⟨0x30038, 0x30038, 0x0, 1, false, 0x0, 0x0, 0xf000000000ffffff⟩ /- CDC_SEED -/,
   ⟨0x30040, 0x30040, 0x0, 1, false, 0x0, 0x0, 0x0⟩ /- CDC_X_IN -/,
   ⟨0x30048, 0x30048, 0x0, 1, false, 0x0, 0x0, 0x0⟩ /- CDC_X_OUT -/,
   ⟨0x30050, 0x30050, 0x0, 1, false, 0x0, 0x0, 0x0⟩ /- CDC_X_WAIT -/,
   ⟨0x30058, 0x30058, 0x0, 1, false, 0x0, 0x0, 0x0⟩ /- CDC_MISS_CC -/,
   ⟨0x30060, 0x30060, 0x0, 1, false, 0x0, 0x0, 0x0⟩ /- CDC_PACK_IN -/,
   ⟨0x30068, 0x30068, 0x0, 1, false, 0x0, 0x0, 0x0⟩ /- CDC_PACK_OUT -/,
   ⟨0x30070, 0x30070, 0x0, 1, false, 0xffffffffffffffff, 0x0, 0x0⟩ /- CDC_ERR_COUNT -/,
   ⟨0x30078, 0x30078, 0x0, 1, false, 0x0, 0x0, 0x0⟩ /- CDC_FAULT -/,
   ⟨0x30080, 0x30080, 0x0, 1, false, 0x0, 0x7ff, 0x0⟩ /- CDC_EVENT -/,
   ⟨0x31000, 0x31000, 0x8, 144, false, 0xffffffffffc0ffff, 0x0, 0x0⟩ /- CDC_RING -/]

/-- The KEL block. -/
def rowsKEL : List RegRow :=
  [⟨0x40000, 0x40000, 0x0, 1, false, 0xf03, 0x0, 0x0⟩ /- KEL_CTRL -/,
   ⟨0x40008, 0x40008, 0x0, 1, false, 0x1ffff, 0x0, 0x0⟩ /- KEL_SCRUB -/,
   ⟨0x40010, 0x40010, 0x0, 1, false, 0x0, 0x0, 0x0⟩ /- KEL_EVT_SUM -/,
   ⟨0x40100, 0x40100, 0x8, 16, false, 0x8000ffff01ff01ff, 0x0, 0x0⟩ /- KEL_JR -/,
   ⟨0x41000, 0x41000, 0x100, 12, false, 0x0, 0x0, 0x0⟩ /- KEL_STATUS -/,
   ⟨0x41008, 0x41008, 0x100, 12, false, 0xffffffffffffffff, 0x0, 0x0⟩ /- KEL_ECC_COUNT -/,
   ⟨0x41010, 0x41010, 0x100, 12, false, 0x0, 0x0, 0x0⟩ /- KEL_ECC_ADDR -/,
   ⟨0x41018, 0x41018, 0x100, 12, false, 0x0, 0x0, 0x0⟩ /- KEL_CMD_ERR -/,
   ⟨0x41020, 0x41020, 0x100, 12, false, 0x0, 0x0, 0x0⟩ /- KEL_CMDS -/,
   ⟨0x41028, 0x41028, 0x100, 12, false, 0x0, 0x0, 0x0⟩ /- KEL_BYTES -/,
   ⟨0x41030, 0x41030, 0x100, 12, false, 0x0, 0xff, 0x0⟩ /- KEL_EVENT -/]

/-- The SCP block. -/
def rowsSCP : List RegRow :=
  [⟨0x50000, 0x50000, 0x100, 144, false, 0x1d, 0x0, 0x80⟩ /- SCP_CORE_CTRL -/,
   ⟨0x50008, 0x50008, 0x100, 144, false, 0x0, 0x0, 0x0⟩ /- SCP_CORE_STATUS -/,
   ⟨0x50010, 0x50010, 0x100, 144, false, 0x3f, 0x0, 0x0⟩ /- SCP_PWR -/,
   ⟨0x50018, 0x50018, 0x100, 144, false, 0x8000ffff000007ff, 0x0, 0x0⟩ /- SCP_CTX0 -/,
   ⟨0x50020, 0x50020, 0x100, 144, false, 0xfff00000fff, 0x0, 0x0⟩ /- SCP_CTX0_SCP -/,
   ⟨0x50028, 0x50028, 0x100, 144, false, 0xfffffff0000, 0x0, 0x0⟩ /- SCP_CTX0_HBM_BASE -/,
   ⟨0x50030, 0x50030, 0x100, 144, false, 0xfffffff0000, 0x0, 0x0⟩ /- SCP_CTX0_HBM_BOUND -/,
   ⟨0x50038, 0x50038, 0x100, 144, false, 0x8000ffff000007ff, 0x0, 0x0⟩ /- SCP_CTX1 -/,
   ⟨0x50040, 0x50040, 0x100, 144, false, 0xfff00000fff, 0x0, 0x0⟩ /- SCP_CTX1_SCP -/,
   ⟨0x50048, 0x50048, 0x100, 144, false, 0xfffffff0000, 0x0, 0x0⟩ /- SCP_CTX1_HBM_BASE -/,
   ⟨0x50050, 0x50050, 0x100, 144, false, 0xfffffff0000, 0x0, 0x0⟩ /- SCP_CTX1_HBM_BOUND -/,
   ⟨0x50058, 0x50058, 0x100, 144, false, 0xffffffffffffffff, 0x0, 0x0⟩ /- SCP_ECC_COUNT -/,
   ⟨0x50060, 0x50060, 0x100, 144, false, 0x0, 0x0, 0x0⟩ /- SCP_FAULT -/,
   ⟨0x50068, 0x50068, 0x100, 144, false, 0x0, 0x7ff, 0x0⟩ /- SCP_EVENT -/,
   ⟨0x50070, 0x50070, 0x100, 144, false, 0x0, 0x0, 0x0⟩ /- SCP_CYCLE -/,
   ⟨0x50078, 0x50078, 0x100, 144, false, 0x0, 0x0, 0x0⟩ /- SCP_SLOT_WAIT -/,
   ⟨0x59000, 0x59000, 0x0, 1, false, 0xffff, 0x0, 0x0⟩ /- SCP_SCRUB -/,
   ⟨0x59008, 0x59008, 0x8, 3, false, 0x0, 0x0, 0x0⟩ /- SCP_EVT_SUM -/]

/-- The MTX block. -/
def rowsMTX : List RegRow :=
  [⟨0x60000, 0x60000, 0x100, 144, false, 0xd, 0x0, 0x0⟩ /- MTX_CORE_CTRL -/,
   ⟨0x60008, 0x60008, 0x100, 144, false, 0x0, 0x0, 0x0⟩ /- MTX_CORE_STATUS -/,
   ⟨0x60010, 0x60010, 0x100, 144, false, 0x0, 0x0, 0x0⟩ /- MTX_RUN_CC -/,
   ⟨0x60018, 0x60018, 0x100, 144, false, 0x0, 0x0, 0x0⟩ /- MTX_FREEZE_CC -/,
   ⟨0x60020, 0x60020, 0x100, 144, false, 0x0, 0x0, 0x0⟩ /- MTX_DRAIN_FREEZE_CC -/,
   ⟨0x60028, 0x60028, 0x100, 144, false, 0x0, 0x0, 0x0⟩ /- MTX_GATED -/,
   ⟨0x60030, 0x60030, 0x100, 144, false, 0xffffffffffffffff, 0x0, 0x0⟩ /- MTX_ERR_COUNT -/,
   ⟨0x60038, 0x60038, 0x100, 144, false, 0x0, 0x0, 0x0⟩ /- MTX_FAULT -/,
   ⟨0x60040, 0x60040, 0x100, 144, false, 0x0, 0xff, 0x0⟩ /- MTX_EVENT -/,
   ⟨0x69000, 0x69000, 0x8, 3, false, 0x0, 0x0, 0x0⟩ /- MTX_EVT_SUM -/]

/-- The STR block. -/
def rowsSTR : List RegRow :=
  [⟨0x70000, 0x70000, 0x0, 1, false, 0x1001f1f1f, 0x0, 0x0⟩ /- STR_CTRL -/,
   ⟨0x70008, 0x70008, 0x0, 1, false, 0x0, 0x0, 0xf7ffffff00000000⟩ /- STR_CTX_CMD -/,
   ⟨0x70010, 0x70010, 0x0, 1, false, 0x7ff, 0x0, 0x0⟩ /- STR_CTX_SEL -/,
   ⟨0x70018, 0x1000000, 0x8, 2048, true, 0x2000000000007fff, 0x0, 0x0⟩ /- STR_CTX -/,
   ⟨0x70020, 0x70020, 0x0, 1, false, 0x0, 0x0, 0xfff80fffffffff80⟩ /- STR_CHAN_CMD -/,
   ⟨0x70028, 0x70028, 0x0, 1, false, 0x0, 0x0, 0xc0000000ffffffff⟩ /- STR_PUSH -/,
   ⟨0x70030, 0x70030, 0x0, 1, false, 0x0, 0x0, 0x0⟩ /- STR_STATUS -/,
   ⟨0x70038, 0x70038, 0x0, 1, false, 0x0, 0x0, 0x0⟩ /- STR_FAULT -/,
   ⟨0x70040, 0x70040, 0x0, 1, false, 0x0, 0x3ff, 0x0⟩ /- STR_EVENT -/,
   ⟨0x70048, 0x70048, 0x0, 1, false, 0x0, 0x0, 0x0⟩ /- STR_UNITS_READ -/,
   ⟨0x70050, 0x70050, 0x0, 1, false, 0x0, 0x0, 0x0⟩ /- STR_UNITS_WRITE -/,
   ⟨0x70058, 0x70058, 0x0, 1, false, 0x0, 0x0, 0x0⟩ /- STR_UNITS_REMOTE -/,
   ⟨0x70060, 0x70060, 0x0, 1, false, 0x0, 0x0, 0x0⟩ /- STR_SHORT -/,
   ⟨0x70068, 0x70068, 0x0, 1, false, 0x0, 0x0, 0x0⟩ /- STR_CACHE_HIT -/,
   ⟨0x70070, 0x70070, 0x0, 1, false, 0xffffffffffffffff, 0x0, 0x0⟩ /- STR_ERR_COUNT -/]

/-- The ETH block. -/
def rowsETH : List RegRow :=
  [⟨0x80000, 0x80000, 0x0, 1, false, 0xfff00000003, 0x0, 0x0⟩ /- ETH_CTRL -/,
   ⟨0x80008, 0x80008, 0x0, 1, false, 0x0, 0x0, 0x0⟩ /- ETH_STATUS -/,
   ⟨0x80010, 0x80010, 0x0, 1, false, 0xffffffffffff, 0x0, 0x0⟩ /- ETH_MAC -/,
   ⟨0x80018, 0x80018, 0x0, 1, false, 0xffffffff, 0x0, 0x0⟩ /- ETH_IP4 -/,
   ⟨0x80020, 0x80020, 0x0, 1, false, 0xffffffffffffffff, 0x0, 0x0⟩ /- ETH_IP6_HI -/,
   ⟨0x80028, 0x80028, 0x0, 1, false, 0xffffffffffffffff, 0x0, 0x0⟩ /- ETH_IP6_LO -/,
   ⟨0x80030, 0x80030, 0x0, 1, false, 0x777777, 0x0, 0x0⟩ /- ETH_PRIO -/,
   ⟨0x80038, 0x80038, 0x0, 1, false, 0xff, 0x0, 0x0⟩ /- ETH_PFC -/,
   ⟨0x80040, 0x80040, 0x0, 1, false, 0xff, 0x0, 0x0⟩ /- ETH_MR_SEL -/,
   ⟨0x80048, 0x1310000, 0x8, 256, true, 0xe0fcffff00ffffff, 0x0, 0x0⟩ /- ETH_MR_CTL -/,
   ⟨0x80050, 0x80050, 0x0, 1, false, 0xfffffff0001, 0x0, 0x0⟩ /- ETH_DEPOT_RING -/,
   ⟨0x80058, 0x80058, 0x0, 1, false, 0x3ff, 0x0, 0x0⟩ /- ETH_DEPOT_TAIL -/,
   ⟨0x80060, 0x80060, 0x0, 1, false, 0x0, 0x0, 0x0⟩ /- ETH_RX_BYTES -/,
   ⟨0x80068, 0x80068, 0x0, 1, false, 0x0, 0x0, 0x0⟩ /- ETH_TX_BYTES -/,
   ⟨0x80070, 0x80070, 0x0, 1, false, 0xffffffffffffffff, 0x0, 0x0⟩ /- ETH_ERR_COUNT -/,
   ⟨0x80078, 0x80078, 0x0, 1, false, 0x0, 0xffb, 0x0⟩ /- ETH_EVENT -/,
   ⟨0x80080, 0x1300000, 0x8, 256, true, 0xfffffffffc0, 0x0, 0x0⟩ /- ETH_MR_BASE -/,
   ⟨0x80100, 0x80100, 0x8, 16, false, 0xffffffffffffffff, 0x0, 0x0⟩ /- ETH_SVC -/]

/-- The SEC block. -/
def rowsSEC : List RegRow :=
  [⟨0x90000, 0x90000, 0x0, 1, false, 0x1, 0x0, 0x0⟩ /- SEC_CTRL -/,
   ⟨0x90008, 0x90008, 0x0, 1, false, 0x0, 0x0, 0x0⟩ /- SEC_STATUS -/,
   ⟨0x90010, 0x90010, 0x0, 1, false, 0x0, 0x0, 0x0⟩ /- SEC_SVN -/,
   ⟨0x90018, 0x90018, 0x0, 1, false, 0x0, 0x0, 0x0⟩ /- SEC_SVN_RUN -/,
   ⟨0x90020, 0x90020, 0x0, 1, false, 0x0, 0x0, 0xf0ffffff00000000⟩ /- SEC_CMD -/,
   ⟨0x90028, 0x90028, 0x0, 1, false, 0xffffffffffffffff, 0x0, 0x0⟩ /- SEC_CMD_ARG -/,
   ⟨0x90030, 0x90030, 0x0, 1, false, 0x0, 0x0, 0x0⟩ /- SEC_CMD_STATUS -/,
   ⟨0x90038, 0x90038, 0x0, 1, false, 0x1ff, 0x0, 0x0⟩ /- SEC_GIB_SEL -/,
   ⟨0x90040, 0x1400000, 0x8, 384, true, 0x0, 0x0, 0x0⟩ /- SEC_GIB -/,
   ⟨0x90048, 0x90048, 0x0, 1, false, 0x0, 0x0, 0x0⟩ /- SEC_SERIAL -/,
   ⟨0x90050, 0x90050, 0x0, 1, false, 0xffffffffffffffff, 0x0, 0x0⟩ /- SEC_ERR_COUNT -/,
   ⟨0x90058, 0x90058, 0x0, 1, false, 0x0, 0x1ff, 0x0⟩ /- SEC_EVENT -/,
   ⟨0x90060, 0x90060, 0x0, 1, false, 0x0, 0x0, 0xffffffff⟩ /- SEC_DECOM -/]

/-- The GND block. -/
def rowsGND : List RegRow :=
  [⟨0xa0000, 0xa0000, 0x0, 1, false, 0x3f, 0x0, 0x0⟩ /- GND_CTRL -/,
   ⟨0xa0008, 0xa0008, 0x0, 1, false, 0x0, 0x0, 0x0⟩ /- GND_STATUS -/,
   ⟨0xa0010, 0xa0010, 0x0, 1, false, 0xffffffff, 0x0, 0x8000000000000000⟩ /- GND_LEASE -/,
   ⟨0xa0018, 0xa0018, 0x0, 1, false, 0xfff, 0x0, 0x8000000000000000⟩ /- GND_HOLD -/,
   ⟨0xa0020, 0xa0020, 0x0, 1, false, 0x1ffff, 0x0, 0x8000000000000000⟩ /- GND_WDOG -/,
   ⟨0xa0028, 0xa0028, 0x0, 1, false, 0x7, 0x0, 0x0⟩ /- GND_COMP_SEL -/,
   ⟨0xa0030, 0x1500000, 0x8, 8, true, 0x0, 0x0, 0x0⟩ /- GND_COMP -/,
   ⟨0xa0038, 0xa0038, 0x0, 1, false, 0x0, 0x0, 0x0⟩ /- GND_LOG -/,
   ⟨0xa0040, 0xa0040, 0x0, 1, false, 0x0, 0x0, 0x0⟩ /- GND_LOG_DROP -/,
   ⟨0xa0048, 0xa0048, 0x0, 1, false, 0xffff, 0x0, 0x0⟩ /- GND_TRACE_CTRL -/,
   ⟨0xa0050, 0xa0050, 0x0, 1, false, 0xffffffffffffffff, 0x0, 0x0⟩ /- GND_ERR_COUNT -/,
   ⟨0xa0058, 0xa0058, 0x0, 1, false, 0x0, 0x7ff, 0x0⟩ /- GND_EVENT -/,
   ⟨0xa0100, 0xa0100, 0x8, 16, false, 0xffffffffffffffff, 0x0, 0x0⟩ /- GND_TRACE_EN -/]

/-- The PWR block. -/
def rowsPWR : List RegRow :=
  [⟨0xb0000, 0xb0000, 0x0, 1, false, 0x3f01, 0x0, 0x4⟩ /- PWR_CTRL -/,
   ⟨0xb0008, 0xb0008, 0x0, 1, false, 0x0, 0x0, 0x0⟩ /- PWR_STATUS -/,
   ⟨0xb0010, 0xb0010, 0x0, 1, false, 0x8fff0ffffffffffe, 0x0, 0x0⟩ /- PWR_PROFILE -/,
   ⟨0xb0018, 0xb0018, 0x0, 1, false, 0xfff00000fff, 0x0, 0x0⟩ /- PWR_LIMIT -/,
   ⟨0xb0020, 0xb0020, 0x0, 1, false, 0xffff, 0x0, 0x0⟩ /- PWR_THERM -/,
   ⟨0xb0028, 0xb0028, 0x0, 1, false, 0x0, 0x0, 0x0⟩ /- PWR_THROTTLE -/,
   ⟨0xb0030, 0xb0030, 0x0, 1, false, 0x0, 0x0, 0x0⟩ /- PWR_IN -/,
   ⟨0xb0038, 0xb0038, 0x0, 1, false, 0x0, 0x0, 0x0⟩ /- PWR_TARGET -/,
   ⟨0xb0040, 0xb0040, 0x0, 1, false, 0x0, 0x0, 0x0⟩ /- PWR_TEMP -/,
   ⟨0xb0048, 0xb0048, 0x0, 1, false, 0x0, 0x0, 0x0⟩ /- PWR_ENERGY -/,
   ⟨0xb0050, 0xb0050, 0x0, 1, false, 0xffffffffffffffff, 0x0, 0x0⟩ /- PWR_ERR_COUNT -/,
   ⟨0xb0058, 0xb0058, 0x0, 1, false, 0x0, 0x7f, 0x0⟩ /- PWR_EVENT -/]

/-- The NVS block. -/
def rowsNVS : List RegRow :=
  [⟨0xc0000, 0xc0000, 0x0, 1, false, 0x0, 0x0, 0x0⟩ /- NVS_STATUS -/,
   ⟨0xc0008, 0xc0008, 0x0, 1, false, 0x0, 0x0, 0xffffff00ffffffff⟩ /- NVS_CMD -/,
   ⟨0xc0010, 0xc0010, 0x0, 1, false, 0xfffffffffc0, 0x0, 0x0⟩ /- NVS_ARG -/,
   ⟨0xc0018, 0xc0018, 0x0, 1, false, 0x0, 0x0, 0x0⟩ /- NVS_CMD_STATUS -/,
   ⟨0xc0020, 0xc0020, 0x0, 1, false, 0x0, 0x0, 0x0⟩ /- NVS_WEAR -/,
   ⟨0xc0028, 0xc0028, 0x0, 1, false, 0xffffffffffffffff, 0x0, 0x0⟩ /- NVS_ERR_COUNT -/,
   ⟨0xc0030, 0xc0030, 0x0, 1, false, 0x0, 0x7f, 0x0⟩ /- NVS_EVENT -/,
   ⟨0xc0040, 0xc0040, 0x8, 5, false, 0x0, 0x0, 0x0⟩ /- NVS_CLASS -/]

/-- The TEL block. -/
def rowsTEL : List RegRow :=
  [⟨0xd0000, 0xd0000, 0x0, 1, false, 0x471f, 0x0, 0x8000⟩ /- TEL_CTRL -/,
   ⟨0xd0008, 0xd0008, 0x0, 1, false, 0x0, 0x0, 0x0⟩ /- TEL_EVT_SUM -/,
   ⟨0xd0010, 0xd0010, 0x0, 1, false, 0x0, 0x0, 0x0⟩ /- TEL_EVQ_HI -/,
   ⟨0xd0018, 0xd0018, 0x0, 1, false, 0x0, 0x0, 0x0⟩ /- TEL_EVQ_LO -/,
   ⟨0xd0020, 0xd0020, 0x0, 1, false, 0x0, 0x0, 0x0⟩ /- TEL_EVQ_STATUS -/,
   ⟨0xd0028, 0xd0028, 0x0, 1, false, 0x0, 0x0, 0x0⟩ /- TEL_RIPCORD -/,
   ⟨0xd0030, 0xd0030, 0x0, 1, false, 0x0, 0x0, 0x1⟩ /- TEL_RIPCORD_PULL -/,
   ⟨0xd0038, 0xd0038, 0x0, 1, false, 0x0, 0x0, 0x0⟩ /- TEL_FATAL -/,
   ⟨0xd0040, 0xd0040, 0x0, 1, false, 0xffffffffffffffff, 0x0, 0x0⟩ /- TEL_ERR_COUNT -/,
   ⟨0xd0048, 0xd0048, 0x0, 1, false, 0x0, 0x3f, 0x0⟩ /- TEL_EVENT -/,
   ⟨0xd0050, 0xd0050, 0x0, 1, false, 0x0, 0x0, 0x0⟩ /- TEL_SNAP_TICK -/,
   ⟨0xd0100, 0xd0100, 0x8, 16, false, 0xff001f, 0x0, 0x0⟩ /- TEL_PMSEL -/,
   ⟨0xd0200, 0xd0200, 0x8, 16, false, 0xffffffffffffffff, 0x0, 0x0⟩ /- TEL_PMC -/,
   ⟨0xd0300, 0xd0300, 0x8, 16, false, 0x0, 0x0, 0x0⟩ /- TEL_PMS -/]

/-- The DEV block. -/
def rowsDEV : List RegRow :=
  [⟨0xe0000, 0xe0000, 0x0, 1, false, 0x0, 0x0, 0x0⟩ /- DEV_ID -/,
   ⟨0xe0008, 0xe0008, 0x0, 1, false, 0x0, 0x0, 0x0⟩ /- DEV_CAPS -/,
   ⟨0xe0010, 0xe0010, 0x0, 1, false, 0x0, 0x0, 0x0⟩ /- DEV_STATUS -/,
   ⟨0xe0018, 0xe0018, 0x0, 1, false, 0x0, 0x1, 0x0⟩ /- DEV_EVENT -/,
   ⟨0xe0020, 0xe0020, 0x0, 1, false, 0x0, 0x0, 0x0⟩ /- DEV_RSV_ADDR -/,
   ⟨0xe1000, 0xe1000, 0x8, 64, false, 0x800000003f3f007f, 0x0, 0x0⟩ /- DEV_APER -/,
   ⟨0xe1200, 0xe1200, 0x10, 64, false, 0xfffffff0000, 0x0, 0x0⟩ /- DEV_WIN_BASE -/,
   ⟨0xe1208, 0xe1208, 0x10, 64, false, 0xfffffffff000ffff, 0x0, 0x0⟩ /- DEV_WIN_CTL -/,
   ⟨0xe1600, 0xe1600, 0x0, 1, false, 0x0, 0x0, 0x0⟩ /- DEV_WIN_FAULT -/,
   ⟨0xe1608, 0xe1608, 0x0, 1, false, 0x0, 0x1f, 0x0⟩ /- DEV_WIN_EVENT -/]

/-- Every register of the device (R448, Table 1): block b holds the offsets from b × 0x1_0000. -/
def rowsOfBlock : Nat → List RegRow
  | 0 => rowsTCK
  | 1 => rowsTTH
  | 2 => rowsLNK
  | 3 => rowsCDC
  | 4 => rowsKEL
  | 5 => rowsSCP
  | 6 => rowsMTX
  | 7 => rowsSTR
  | 8 => rowsETH
  | 9 => rowsSEC
  | 10 => rowsGND
  | 11 => rowsPWR
  | 12 => rowsNVS
  | 13 => rowsTEL
  | 14 => rowsDEV
  | _ => []

/-- Whether a key is one of `count` instances from `base`, `stride` apart. -/
def isInst (k base stride count : Nat) : Bool :=
  decide (base ≤ k) && (k - base) % stride == 0 && decide ((k - base) / stride < count)

/-- Reset value of a key (R452, Table 2): every register the table does not list resets to 0. -/
def resetWord (k : Nat) : Word :=
  if k == R.TCK_CTRL then 0x00001080F0020000 else
  if k == R.TCK_PERIOD then 0x00000000000186A0 else
  if k == R.TCK_LEAD then 0x00000000000005DC else
  if k == R.TCK_GOVERN then 0x000F424000004003 else
  if k == R.TTH_STATION then 0x0000000000FF0000 else
  if k == R.TTH_SLOT_FLAGS then 0x0000010101010101 else
  if k == R.TTH_TAIL_CW then 0x0004000000000000 else
  if k == R.TTH_TAIL_CCW then 0x0004000000000000 else
  if k == R.TTH_RELAY_CTRL then 0x0000000000000040 else
  if k == R.LNK_CTRL then 0x0000000003E80810 else
  if k == R.LNK_VERSION then 0x0000000001020100 else
  if k == R.KEL_CTRL then 0x0000000000000401 else
  if k == R.KEL_SCRUB then 0x0000000000000031 else
  if k == R.SCP_SCRUB then 0x0000000000000400 else
  if k == R.STR_CTRL then 0x000000010004060A else
  if k == R.STR_STATUS then 0x0000400020000000 else
  if k == R.ETH_CTRL then 0x0000000000000003 else
  if k == R.ETH_STATUS then 0x1000000000000000 else
  if k == R.ETH_PRIO then 0x0000000000743666 else
  if k == R.ETH_PFC then 0x0000000000000048 else
  if k == R.SEC_CTRL then 0x0000000000000001 else
  if k == R.SEC_STATUS then 0x0000000004000000 else
  if k == R.GND_CTRL then 0x0000000000000001 else
  if k == R.GND_LEASE then 0x0000000000002710 else
  if k == R.GND_HOLD then 0x000000000000003C else
  if k == R.GND_WDOG then 0x0000000000010064 else
  if k == R.GND_COMP_SEL then 0x0000000000000001 else
  if k == R.GND_TRACE_CTRL then 0x0000000000000400 else
  if k == R.PWR_CTRL then 0x0000000000002801 else
  if k == R.PWR_STATUS then 0x0000000000000023 else
  if k == R.PWR_LIMIT then 0x00000BB800000A28 else
  if k == R.PWR_THERM then 0x0000000000005A64 else
  if k == R.NVS_STATUS then 0x0000000005900000 else
  if k == R.TEL_CTRL then 0x000000000000441E else
  if k == R.DEV_ID then 0x7E6114400000B100 else
  if k == R.DEV_CAPS then 0x000C200000900C04 else
  if isInst k 0x21000 0x100 4 then 0x0000000000000002 else -- LNK_PCTRL
  if isInst k 0x50000 0x100 144 then 0x0000000000000008 else -- SCP_CORE_CTRL
  if isInst k 0x50010 0x100 144 then 0x0000000000003F00 else -- SCP_PWR
  if isInst k 0x60000 0x100 144 then 0x0000000000000004 else -- MTX_CORE_CTRL
  if isInst k 0x1000000 0x8 2048 then 0x0000000000004000 else -- STR_CTX
  if isInst k 0x1310000 0x8 256 then 0x0030000000000000 else -- ETH_MR_CTL
  if isInst k 0x1400000 0x8 384 then 0x0000FFFF00000000 else -- SEC_GIB
  if isInst k 0xd0100 0x8 16 then 0x0000000000FF0000 else -- TEL_PMSEL
  if isInst k 0xe1208 0x10 64 then 0x0400000000000000 else -- DEV_WIN_CTL
  0

end Sys2Proof.Machine
end

