-- ==== Sys2Proof/Machine/Sparse.lean ====
section
/-! DEFINITION. Sparse stores in one canonical form: keys strictly rising, and no entry equal to what an unlisted key reads as. -/

namespace Sys2Proof.Machine

/-- A sparse store; what an unlisted key reads as is given to `get` and `put` as a function of the key. -/
abbrev Store (α : Type) := List (Nat × α)

variable {α : Type}

/-- The value at a key. -/
def Store.get (d : Nat → α) : Store α → Nat → α
  | [], k => d k
  | (j, v) :: m, k => if k = j then v else Store.get d m k

/-- Take a key out. -/
def Store.drop : Store α → Nat → Store α
  | [], _ => []
  | (j, v) :: m, k => if k = j then Store.drop m k else (j, v) :: Store.drop m k

/-- Insert a key in its place. -/
def Store.insert : Store α → Nat → α → Store α
  | [], k, v => [(k, v)]
  | (j, w) :: m, k, v => if k < j then (k, v) :: (j, w) :: m else if k = j then (k, v) :: m else (j, w) :: Store.insert m k v

/-- Write a key: the entry is removed when the value is what an unlisted key reads as. -/
def Store.put [DecidableEq α] (d : Nat → α) (m : Store α) (k : Nat) (v : α) : Store α :=
  if v = d k then Store.drop m k else Store.insert m k v

/-- Keys rise strictly from a bound on. -/
def Store.rising : Store α → Nat → Bool
  | [], _ => true
  | (j, _) :: m, lo => decide (lo ≤ j) && Store.rising m (j + 1)

/-- No entry reads as an unlisted key would. -/
def Store.lean [DecidableEq α] (d : Nat → α) : Store α → Bool
  | [] => true
  | (j, v) :: m => decide (v ≠ d j) && Store.lean d m

/-- The canonical form. -/
def Store.wf [DecidableEq α] (d : Nat → α) (m : Store α) : Bool := Store.rising m 0 && Store.lean d m

end Sys2Proof.Machine
end

