-- ==== Sys2Proof/Machine/State.lean ====
section
/-! DEFINITION. The state of the block: every register, memory, queue, buffer and hidden state the manual gives it, as plain data, and
its value at reset. -/

namespace Sys2Proof.Machine

/-! ## The tick unit -/

/-- A boundary that a marker has announced and that has not fired (R29, R32): when it fires, and the time the next prediction starts from. -/
structure Fire where
  at_ : Nat
  nom : Nat
  tick : Nat
  slip : Bool
  start : Bool
  stop : Bool
  period : Option Nat
deriving DecidableEq, Repr

/-- An exchange of IEEE 1588 messages (R36): the Sync it follows, when that left and arrived, and the Delay_Req it sent, in ns. -/
structure Ptp where
  v6 : Bool
  seq : Nat
  t1 : Option Int
  t2 : Int
  req : Option (Nat × Int)
deriving DecidableEq, Repr

/-- The tick unit beside its registers. Times are in time units (log 4). -/
structure Tick where
  /-- The best candidate of an election in progress (R26). -/
  best : Option Candidate
  /-- When the best candidate last changed. -/
  quietFrom : Nat
  /-- The election was joined on a neighbour's message (R26 step 3). -/
  joined : Bool
  /-- Boundaries announced and not fired. -/
  fires : List Fire
  /-- The time of the next boundary: as its marker gives it, else as predicted (R32). -/
  predicted : Option Nat
  /-- The master's first marker not yet sent: its tick and its boundary's time. -/
  unsent : Option (Nat × Nat)
  /-- Ticks whose markers carry, or have carried, the slip flag (R44, R47). -/
  slips : List Nat
  /-- Ticks in which the master set a slip flag, since the count was cleared (R49). -/
  slipLog : List Nat
  /-- The period software wrote, until a marker carries it (R50), and the ticks whose markers will carry a governed lengthening (R49). -/
  soft : Option Nat
  gov : List Nat
  /-- RUN = 0 was written on the master (R40). -/
  stopping : Bool
  /-- TAI at an instant, in time units, that instant, the frequency correction in parts per billion, and the message exchange (R36, R37). -/
  taiBase : Nat
  taiFrom : Nat
  ppb : Int
  ptp : Option Ptp
  /-- The items incomplete at the last miss, until they have all completed, as their source bit of TCK_MISS and two numbers that name
  them (SETTLE_WINDOW_OPEN), and when its settle window opened (R42). -/
  missItems : List (Nat × Nat × Nat)
  missAt : Nat
  /-- The settle window of the current tick is open (R41). -/
  settled : Bool
deriving DecidableEq, Repr

/-- The tick unit at reset: nothing in progress. -/
def Tick.reset : Tick := ⟨none, 0, false, [], none, none, [], [], none, [], false, 0, 0, 0, none, [], 0, false⟩

/-! ## Links -/

/-- Bytes that wait on a virtual lane: own bytes, or a range of device offsets read when they are sent (R63). -/
structure Payload where
  vl : Nat
  /-- The landing slot whose forwarding this is; 6 and 7 the own clockwise and counterclockwise relay packet; 8 for none. -/
  slot : Nat
  bytes : List Byte
  addr : Nat
  len : Nat
  /-- Of a remote memory packet: the window it names, none for a device of the own board, and the offset it accesses there (R297, R299). -/
  target : Option (Option Nat × Nat)
deriving DecidableEq, Repr

/-- A frame sent and not acknowledged (R342, R345). -/
structure Frame where
  vl : Nat
  len : Nat
  /-- The 64-bit frame counter; SEQ is its low 16 bits (R385). -/
  ctr : Nat
  ack : Nat
  creditVl : Nat
  replay : Bool
  credit : Nat
  short : Option ShortMsg
  payload : List Byte
deriving DecidableEq, Repr

/-- A port's retry, credit and queue state (R343 to R347). -/
structure Port where
  /-- New frames sent since Up, whose low 16 bits are the next SEQ (R385), and frames accepted, one more than the last SEQ accepted. -/
  txCtr : Nat
  rxCtr : Nat
  unacked : List Frame
  resend : List Frame
  resends : Nat
  /-- A replay request is to be sent; a replay is awaited and later frames are discarded (R345). -/
  wantReplay : Bool
  awaiting : Bool
  /-- Credits held and buffers freed, per lane. -/
  credits : Store Nat
  freed : Store Nat
  shorts : List ShortMsg
  lanes : List Payload
  lastAccept : Nat
  enabledAt : Nat
  keyTx : List Byte
  keyRx : List Byte
  /-- Own ephemeral key of the exchange in progress (R384). -/
  ephemeral : List Byte
  /-- Since when forwarding waits for credit on this port (R69). -/
  waitFrom : Option Nat
deriving DecidableEq, Repr

/-- A port at reset. -/
def Port.reset : Port := ⟨0, 0, [], [], 0, false, false, [], [], [], [], 0, 0, [], [], [], none⟩

/-- What the links hold beside the ports: ripcords seen (R440), the flooded fault set with the time its wait began (R351, R355). -/
structure Links where
  ports : Store Port
  seen : List (Nat × Nat × Nat)
  faults : List (Nat × Nat)
  faultFrom : Option Nat
  /-- VL 0 stopped by a ripcord until the device is armed again (R350). -/
  vl0Stop : Bool
deriving DecidableEq, Repr

/-- Links at reset. -/
def Links.reset : Links := ⟨[], [], [], none, false⟩

/-! ## The tether engine -/

/-- A spool header (R57, Table 1). -/
structure SpoolHdr where
  major : Nat
  home : Nat
  dir : Nat
  null : Bool
  tail : Bool
  seq : Nat
  n : Nat
  sched : Nat
  bodyLen : Nat
  tailLen : Nat
  blocks : Nat
  crcOk : Bool
deriving DecidableEq, Repr

/-- What a landing slot holds beside its flags (R67 to R69) and, in relay mode, of its packet (R98, R99). -/
structure Slot where
  /-- Schedule index of the spool that lies or arrives in the slot (R67). -/
  idx : Nat
  /-- Its header; none until it is in. -/
  hdr : Option SpoolHdr
  /-- The header passed R65 or was written here; the trailer passed R87; the spool is Arrived and passed R253. -/
  hdrOk : Bool
  trailerIn : Bool
  ready : Bool
  /-- Staged here rather than arrived (R62). -/
  own : Bool
  /-- Since when an arrival or staging waits for DRAINED (R69). -/
  waitFrom : Option Nat
  /-- VL 0 frames received whose buffers the slot holds until it has drained (R69), and those of the arrival that comes next. -/
  frames : Nat
  next : Nat
  /-- The carousel or relay that filled the slot still runs; cleared when the ripcord stops the engine (R79). -/
  live : Bool
  /-- Code table slots referenced until the expansion completes (R249). -/
  refs : List Nat
  /-- Tail blocks written by the packers; blocks handed to the link in ascending order; the trailer has been (R86); POISON here (R88). -/
  tailDone : List Nat
  tailSent : Nat
  trailerOut : Bool
  poison : Bool
  /-- Relay: packet number and SCHED, vector length, greatest slice, bytes written, slices received and sent, own slice appended, an own slice
  that waits for the vector to have gone before it, end marker in and out (R98 to R102). -/
  rSeq : Nat
  rSched : Nat
  rVec : Nat
  rMax : Nat
  rPos : Nat
  rIn : Nat
  rOut : Nat
  rOwn : Bool
  rHeld : Option (List Byte)
  rEndIn : Bool
  rEndOut : Bool
deriving DecidableEq, Repr

/-- A slot at reset, and at every return to Free. -/
def Slot.free : Slot :=
  ⟨0, none, false, false, false, false, none, 0, 0, false, [], [], 0, false, false, 0, 0, 0, 0, 0, 0, 0, false, none, false, false⟩

/-- A return hop received whose trailer is awaited (R64, R91): its header and its tail blocks. -/
structure Return where
  dir : Nat
  hdr : SpoolHdr
  blocks : List Byte
deriving DecidableEq, Repr

/-- Gradient writes of one return hop (R91): the requests that carry them, the keel command to submit when they are done, and whether one of
them failed (R320). -/
structure Grad where
  dir : Nat
  first : Nat
  last : Nat
  kcmd : Nat
  failed : Bool
deriving DecidableEq, Repr

/-- The packet last launched here (R98, R100): its number and SCHED, SLICE_MAX, and whether the own slice and the end marker were sent clockwise. -/
structure Launched where
  seq : Nat
  sched : Nat
  max : Nat
  own : Bool
deriving DecidableEq, Repr

/-- The tether engine beside its registers. Stores are by direction. -/
structure Ring where
  slots : Store Slot
  /-- Next schedule index to be staged, and next to arrive (R61, R62). -/
  own : Store Nat
  arr : Store Nat
  /-- Return hops received, and forwarded (R64, R66). -/
  ret : Store Nat
  out : Store Nat
  returns : List Return
  grads : List Grad
  /-- A LAUNCH held to the next new-index boundary (R102): the written value. -/
  held : Option Nat
  launched : Option Launched
  /-- The turnaround tick of a mode change (R19). -/
  turnaround : Bool
  /-- Number of the next relay packet, and by direction the least number that may still arrive (R96, R101). -/
  seq : Nat
  cur : Store Nat
deriving DecidableEq, Repr

/-- The tether engine at reset. -/
def Ring.reset : Ring := ⟨[], [], [], [], [], [], [], none, none, false, 0, []⟩


/-! ## Cores -/

/-- A register that a fixed-latency result reaches (R189): a scalar, a predicate, one beat of a vector register, or a completion counter
that gains 1 (R270). -/
inductive PTgt where
  | s (r : Nat) (w : Word)
  | p (r : Nat) (b : Bool)
  | v (r beat : Nat) (lanes : List (BitVec 32))
  | dc (set i : Nat)
deriving DecidableEq, Repr

/-- A result not yet usable: its cycle, the cycle and slot of its instruction (R177, R191), and what it writes. -/
structure Pend where
  due : Nat
  issue : Nat
  prio : Nat
  tgt : PTgt
deriving DecidableEq, Repr

/-- A scalar register whose data a request will bring (R189, R191). -/
structure Score where
  req : Nat
  reg : Nat
deriving DecidableEq, Repr

/-- One level of SLOOP (R187): first and last bundle of the body, iterations left, and the body of a register count of 0 (R216). -/
structure Loop where
  first : Nat
  last : Nat
  left : Nat
  zero : Bool
deriving DecidableEq, Repr

/-- A launch record (R195, Table 6). -/
structure Launch where
  image : Nat
  bundles : Nat
  resident : Bool
  merged : Bool
  faultRec : Nat
  doneAddr : Nat
  doneValue : Nat
  args : List Word
  /-- The channel handle whose command entry it came from, 0 for none (R292). -/
  chan : Nat
  slot : Nat
deriving DecidableEq, Repr

/-- A contained fault of a context (R202, Table 8). -/
structure FaultRec where
  source : Nat
  kind : Nat
  bundle : Nat
  slot : Nat
  multi : Bool
  async : Bool
  split : Bool
  half : Bool
  addr : Nat
  tick : Nat
  cycle : Nat
deriving DecidableEq, Repr

/-- The stationary operands of the array, or of one half (R132, R133): format, tile of raw elements by row, block scales by row,
extents, and whether it was loaded with K2 = 1. -/
structure Tile where
  fmt : Nat
  k2 : Bool
  klen : Nat
  nlen : Nat
  rows : List (List Nat)
  scales : List (List Nat)
deriving DecidableEq, Repr

/-- An array instruction as accepted (R136, R229): its opcode, registers read at issue and fields. -/
structure ArrOp where
  op : Nat
  half : Bool
  accept : Nat
  acc : Bool
  addr : Nat
  addrB : Nat
  fmt : Nat
  fmtB : Nat
  k2 : Bool
  klen : Nat
  nlen : Nat
  count : Nat
  row0 : Nat
  stride : Nat
  form : Nat
  bundle : Nat
  /-- Number of the bundle among those the core has issued (R144). -/
  no : Nat
deriving DecidableEq, Repr

/-- The feeders of one edge of the array, or of a half (R145, R154): the frame of the last fetch, the banks of the words fetched in it, and the
cycles at which the latest entries enter the array, newest first: the feeder holds those that lie ahead. -/
structure Edge where
  frame : Nat
  banks : List Nat
  enters : List Nat
deriving DecidableEq, Repr

/-- Feeders that hold nothing. -/
def Edge.reset : Edge := ⟨0, [], []⟩

/-- An array instruction accepted: the cycle in which it begins, as planned until then; the bytes of its operand rows as far as the feeders have
fetched them (streamed rows, k-steps of A or weight rows), those of B, and their scale words; the stationary values that a stream meets; the frames
in which the feeders fetch the rows of either side (R145); the feeder's freezes yet to come, as the row that is late and the cycles (R146); the next
result row, the freeze cycles so far and δ (R140); whether a freeze has met it (R147); and the operand row that could not be read, with its
scratchpad KIND and address (R153). -/
structure ArrRun where
  op : ArrOp
  t : Nat
  rows : List (List Byte)
  rowsB : List (List Byte)
  scales : List (List Byte)
  scalesB : List (List Byte)
  cells : List (List Fval)
  fetch : List Nat
  fetchB : List Nat
  waits : List (Nat × Nat)
  next : Nat
  freeze : Nat
  delta : Nat
  froze : Bool
  bad : Option (Nat × Nat × Nat)
deriving DecidableEq, Repr

/-- An MDRAIN as accepted (R142, R229). -/
structure DrainOp where
  half : Bool
  accept : Nat
  addr : Nat
  row0 : Nat
  count : Nat
  ofmt : Nat
  sat : Bool
  sr : Bool
  stride : Nat
  bundle : Nat
  no : Nat
deriving DecidableEq, Repr

/-- One half's array unit and drain-out unit, or the whole engine's as half 0 (R136, R154). -/
structure ArrUnit where
  tile : Option Tile
  /-- The sum registers of the cells that an output-stationary pass has filled, by row (R132). -/
  sums : Store (List (BitVec 32))
  /-- An MLOAD in the array, and the instructions with results due, oldest first. -/
  ld : Option ArrRun
  run : List ArrRun
  aq : List ArrRun
  dq : List DrainOp
  /-- First cycle at which the array is free of all it has accepted, and the latest cycle of a result write of them, as planned (R139, R140). -/
  free : Nat
  lastWrite : Nat
  /-- Gated cell-cycles below 1,024 (R148). -/
  gated : Nat
  /-- The left and the top feeders (R145). -/
  left : Edge
  top : Edge
  /-- First cycle the drain-out unit is free (R142). -/
  dFree : Nat
  /-- Registers with wrong parity: 0 a stationary register, 1 a sum register, 2 a feeder entry, 3 a drain register (R152). -/
  par : List Nat
deriving DecidableEq, Repr

/-- A unit at reset. -/
def ArrUnit.reset : ArrUnit := ⟨none, [], none, [], [], [], 0, 0, 0, Edge.reset, Edge.reset, 0, []⟩

/-- A DCOPY accepted (R235, R236). -/
structure Copy where
  dst : Nat
  src : Nat
  words : Nat
  set : Nat
  bundle : Nat
  /-- The cycle of its first slot 6 access (R235), and the number of its bundle. -/
  start : Nat
  no : Nat
deriving DecidableEq, Repr

/-- A local vector access that the bank performs after the scalar access of its own bundle (R111, R112): a load's register, or a store's bytes; its
physical offset, length, address as issued, set and wait. -/
structure VLate where
  reg : Option Nat
  bytes : List Byte
  phys : Nat
  len : Nat
  addr : Nat
  set : Nat
  wait : Nat
deriving DecidableEq, Repr

/-- An instruction in the queue of its engine while the core runs free, with the scalar and predicate registers as they were at its issue and the
index and number of its bundle (R199). -/
structure FreeOp where
  instr : Instr
  s : Store Word
  p : Store Bool
  bundle : Nat
  no : Nat
deriving DecidableEq, Repr

/-- A FLAG.ACQ that waits (R218). -/
structure Acq where
  reg : Nat
  old : Word
  cond : Nat
  wide : Bool
  sx : Bool
  space : Nat
  addr : Nat
  set : Nat
  /-- The request whose value it awaits, none between rereads or for a local location. -/
  req : Option Nat
deriving DecidableEq, Repr

/-- One core beside its registers of the SCP and MTX blocks. -/
structure CoreSt where
  /-- SCP_CYCLE of the bundle now issuing (R110, R177), and the stall its slots have met so far. -/
  cycle : Nat
  extra : Nat
  /-- Cycles the next bundle issues later by plan (R188), and whether it issues at frame slot 0 (R178, R192). -/
  planned : Nat
  align : Bool
  /-- A slot of the bundle has issued; the number of the bundle among those issued; vector accesses that wait for the S slot's. -/
  begun : Bool
  no : Nat
  late : List VLate
  s : Store Word
  p : Store Bool
  v : Store (List (BitVec 32))
  /-- Accumulator memory, 2,048 rows of 128 words (R127). -/
  acc : Store (List (BitVec 32))
  loops : List Loop
  /-- Completion counters, set × 8 + i (R238). -/
  dc : Store (BitVec 32)
  /-- Index of the bundle now issuing, length of the image, and a taken branch: delay bundles left and target (R186). -/
  bundle : Nat
  bundles : Nat
  branch : Option (Nat × Nat)
  pend : List Pend
  score : List Score
  /-- Cycles at which the divider and the lanes are free (R189, R190), and the issue cycle of the instruction that last took the lanes. -/
  divFree : Nat
  laneFree : Nat
  laneAt : Nat
  /-- Register words with wrong parity: s 0 to 31, p 32 to 39, v 40 to 103; bundles with wrong parity: half × 2,048 + index (R181, R194). -/
  badRegs : List Nat
  badBundles : List Nat
  /-- Codewords in error: physical offset ÷ 8, and whether the error is double (R123). -/
  badCw : List (Nat × Bool)
  /-- Codewords whose correction awaits an idle cycle of their bank (R123), and the next row each bank scrubs (R124). -/
  fixing : List Nat
  scrubRow : Store Nat
  /-- Accumulator codewords in error: row of 512 bytes × 64 + word, and whether the error is double; those whose correction awaits an idle
  cycle (R123, R127, R152). -/
  badAcc : List (Nat × Bool)
  fixAcc : List Nat
  /-- By buffer of accumulator memory, the latest cycle in which the array drain wrote it (R143). -/
  accLast : Store Nat
  /-- The array's last freeze: its first cycle and the first cycle after it (R146, R158). -/
  frozen : Nat × Nat
  /-- The half being executed; the image of each half: address, bundles and bytes (R194). -/
  active : Nat
  images : Store (Nat × Nat × List Byte)
  /-- Scalar data cache: 64-byte lines, newest first, and the lines with wrong parity (R129). -/
  sc : List (Nat × List Byte)
  scBad : List Nat
  units : Store ArrUnit
  copies : List Copy
  /-- First cycle at which the DMA engine is free for a copy (R235); words of port accesses that wait for a bank, by request (R114). -/
  copyFree : Nat
  portBuf : List Nat
  /-- Queues of the V, M and D engines while the core runs free, by slot; the engine that is performing the head of its queue (R199). -/
  queues : Store (List FreeOp)
  perf : Option Nat
  /-- Generators: 0 to 63 vector, 128 to 255 drain-out (R171, R172). -/
  gens : Store Nat
  /-- The idle half has been loaded for the next command (R194), and the records of the running kernel, by set (R195, R197). -/
  loaded : Bool
  running : Store Launch
  /-- Set and context identifier of the kernel that last started (R182), the number of kernels started, and the cycle at which the last END
  completed. -/
  lastCtx : Option (Nat × Nat)
  kern : Nat
  endedAt : Nat
  /-- END has issued, or the kernel was halted by a fault or a ripcord (R198, R201, R441). -/
  ended : Bool
  stopped : Bool
  faults : Store FaultRec
  /-- In SYNC.TICK (R192); and the schedule index of the last tick whose boundary the context has seen, plus 1, 0 before its domain's first:
  a boundary it awaits may have fired already (R43). -/
  tickWait : Bool
  tickSeen : Nat
  acq : Option Acq
  /-- Segments waking: segment, cycle of completion, and a write held (R126). -/
  waking : List (Nat × Nat × Option Bool)
deriving DecidableEq, Repr

/-- A core at reset (log 6; generators as R172 gives). -/
def CoreSt.reset : CoreSt where
  cycle := 0
  extra := 0
  planned := 0
  align := false
  begun := false
  no := 0
  late := []
  s := []
  p := []
  v := []
  acc := []
  loops := []
  dc := []
  bundle := 0
  bundles := 0
  branch := none
  pend := []
  score := []
  divFree := 0
  laneFree := 0
  laneAt := 0
  badRegs := []
  badBundles := []
  badCw := []
  fixing := []
  scrubRow := []
  badAcc := []
  fixAcc := []
  accLast := []
  frozen := (0, 0)
  active := 0
  images := []
  sc := []
  scBad := []
  units := []
  copies := []
  copyFree := 0
  portBuf := []
  queues := []
  perf := none
  gens := []
  loaded := false
  running := []
  lastCtx := none
  kern := 0
  endedAt := 0
  ended := false
  stopped := false
  faults := []
  tickWait := false
  tickSeen := 0
  acq := none
  waking := []

/-! ## Memory requests -/

/-- What a request asks of its home (R304, R219). -/
inductive ReqOp where
  | load (n : Nat) (signed : Bool)
  | store (bytes : List Byte)
  | atomic (aop : Nat) (wide fp : Bool) (sv sc : Nat)
  /-- FP32 words added to those at the address (R91). -/
  | addF32 (words : List Byte)
deriving DecidableEq, Repr

/-- A request that has issued and has not been performed. `src` names its source (R306): core × 2 + set for an S slot, 1,000 for the
tether engine, 2,000 + stack for a keel engine, 3,000 for the transport engine, 4,000 + 128 × Y + X for a peer. `rel` marks a
FLAG.REL store and `need` and `needDesc` the requests and descriptors it must follow (R218, R309); `reg` is the scalar register a core's load or atomic reaches; `away` marks a request that left the
device for a peer, its address a board address again. -/
structure Req where
  id : Nat
  src : Nat
  tag : Nat
  addr : Nat
  op : ReqOp
  reg : Option Nat
  acq : Bool
  need : List Nat
  needDesc : List Nat
  rel : Bool
  away : Bool
  /-- Of a core's request: the kernel, the bundle index and the bundle number that issued it (R202, R218), and whether a FLAG.ACQ since has made
  its line stale (R308). -/
  kern : Nat
  bundle : Nat
  no : Nat
  stale : Bool
deriving DecidableEq, Repr

/-- A request of a source for an operation at an address, which waits for nothing before it. -/
def Req.of (src tag addr : Nat) (op : ReqOp) : Req where
  id := 0
  src := src
  tag := tag
  addr := addr
  op := op
  reg := none
  acq := false
  need := []
  needDesc := []
  rel := false
  away := false
  kern := 0
  bundle := 0
  no := 0
  stale := false

/-- An answer on its way back to its requester: the value, the error of R296, R117, R118 or R320, and the
64-byte line of a load that a scalar cache may keep (R129). -/
structure Resp where
  id : Nat
  src : Nat
  reg : Option Nat
  acq : Bool
  value : Word
  err : Bool
  addr : Nat
  line : List Byte
  kern : Nat
  bundle : Nat
  stale : Bool
deriving DecidableEq, Repr

/-- Requests waiting for their homes and answers waiting for their requesters (R303, R306). -/
structure Home where
  nextId : Nat
  reqs : List Req
  resps : List Resp
deriving DecidableEq, Repr

/-- Nothing waits. -/
def Home.reset : Home := ⟨0, [], []⟩

/-! ## Streams, channels, descriptors -/

/-- A descriptor template (R275, Table 3). -/
structure Template where
  kind : Nat
  flags : Nat
  block : Nat
  codec : Nat
  len : Nat
  src : Nat
  srcSpace : Nat
  dst : Nat
  dstSpace : Nat
  srcStep : Int
  dstStep : Int
  plan : Nat
  result : Nat
  dstMax : Nat
  dlNs : Nat
  dlTicks : Nat
deriving DecidableEq, Repr

/-- No template. -/
def Template.none : Template := ⟨0, 0, 0, 0, 0, 0, 0, 0, 0, 0, 0, 0, 0, 0, 0, 0⟩

/-- Who pushed or armed work: core (144 for firmware), set, context, kernel and bundle index (R202, R275, R291). -/
structure Issuer where
  core : Nat
  set : Nat
  ctx : Nat
  kern : Nat
  bundle : Nat
deriving DecidableEq, Repr

/-- A channel (R269 to R272, R280, R282, R292). -/
structure Chan where
  live : Bool
  /-- The generation of the index, advanced by CREATE (R272). -/
  gen : Nat
  typ : Nat
  ctx : Nat
  job : Nat
  core : Nat
  set : Nat
  tickBound : Bool
  count : Nat
  slotBytes : Nat
  periodNs : Nat
  tmpl : Template
  /-- PUSHes since creation; fills or tiles counted (R280). -/
  pushes : Nat
  fills : Nat
  /-- FULL and DRAINED of slots 0 and 1, and since when each is FULL (R276, R280). -/
  full : List Bool
  drained : List Bool
  fullAt : List Nat
  /-- Slots in the order in which they became FULL. -/
  order : List Nat
  /-- A run: its next fill k, a re-arm held and who armed it, and who armed the run (R282). -/
  run : Option Nat
  rearm : Option Issuer
  armer : Option Issuer
  /-- The next fill has waited for DRAINED (R281). -/
  waited : Bool
  /-- COMMAND: entries ready, next entry to launch, and its record once read, none inside when the read answered with an error (R276, R292). -/
  ready : Nat
  launch : Nat
  entry : Option (Option (List Byte))
  /-- Work cancelled, returning at R285. -/
  cancelled : Bool
deriving DecidableEq, Repr

/-- A channel index that has never been created: generation 0, slots drained. -/
def Chan.reset : Chan :=
  ⟨false, 0, 0, 0, 0, 0, 0, false, 0, 0, 0, Template.none, 0, 0, [false, false], [true, true], [0, 0], [], none, none, none, false, 0,
   0, none, false⟩

/-- Progress of a PACK descriptor (R260): the plan's tiles (bytes, cluster, core), whole and those still to pack, the first of which has
`inTile` bytes packed; the stored bytes of a spool body by cluster; the blocks of each cluster; the counts of raw, coded and zero-run
blocks; whether the result record is written. -/
structure Pack where
  plan : List (Nat × Nat × Nat)
  tiles : List (Nat × Nat × Nat)
  inTile : Nat
  buf : Store (List Byte)
  made : Store Nat
  raw : Nat
  cod : Nat
  zero : Nat
  done : Bool
deriving DecidableEq, Repr

/-- A deadline (R276): an offset in time units from the boundary that begins a tick, and the instant once that boundary has fired. -/
structure Due where
  tick : Nat
  off : Int
  at_ : Option Nat
deriving DecidableEq, Repr

/-- A descriptor (R274 to R276). Addresses are board addresses, already relocated; core 144 stands for firmware. `chan` is the channel
index plus 1, 0 for a DMOVE. -/
structure Desc where
  id : Nat
  kind : Nat
  chan : Nat
  ctx : Nat
  tag : Nat
  core : Nat
  set : Nat
  cluster : Nat
  dc : Option Nat
  src : Nat
  dst : Nat
  len : Nat
  /-- Bytes whose units have started. -/
  moved : Nat
  tickBound : Bool
  cache : Bool
  /-- Its deadline, none for no deadline. -/
  deadline : Option Due
  /-- The slot a fill writes. -/
  slot : Option Nat
  cancelled : Bool
  /-- An error came back from a side (R237, R291). -/
  err : Bool
  tmpl : Template
  /-- PACK and EXPAND: blocks done, and bytes written. -/
  blocks : Nat
  out : Nat
  pack : Option Pack
  /-- The context that pushed or armed it (R291); of a core's instruction, its kernel and the index and number of its bundle (R202, R218). -/
  pusher : Nat
  kern : Nat
  bundle : Nat
  no : Nat
deriving DecidableEq, Repr

/-- No transfer: what a descriptor is built from. -/
def Desc.blank : Desc :=
  ⟨0, 1, 0, 0, 0, 144, 0, 0, none, 0, 0, 0, 0, false, false, none, none, false, false, Template.none, 0, 0, none, 0, 0, 0, 0⟩

/-- A context being released (R288): the kill it belongs to, and what its release has still to do. -/
structure Rel where
  ctx : Nat
  kill : Option Nat
  /-- Steps 3 and 4: core sets whose memories are to be zeroed: core, set, base and bound in 4 KiB units. -/
  zero : List (Nat × Nat × Nat × Nat)
  /-- Step 5: core sets whose registers are to be zeroed. -/
  regs : List (Nat × Nat)
  /-- Step 6: its codec table slots are to become free; the last before its return. -/
  tables : Bool
deriving DecidableEq, Repr

/-- The stream and context engine beside its registers. -/
structure Streams where
  chans : Store Chan
  /-- Indices that have been freed, oldest first; indices never used follow them in order (R272). -/
  freed : List Nat
  fresh : Nat
  descs : List Desc
  nextDesc : Nat
  /-- Shares accumulated per mover: mover × 3 + class (R278). -/
  acc : Store Int
  rels : List Rel
  /-- Kills in progress, with whether the landing slots are zeroed (R289). -/
  kills : List (Nat × Bool)
  /-- Landing-buffer cache: tag, line address, stale, bytes; newest first (R286, R287). -/
  cache : List (Nat × Nat × Bool × List Byte)
deriving DecidableEq, Repr

/-- The stream engine at reset. -/
def Streams.reset : Streams := ⟨[], [], 0, [], 0, [], [], [], []⟩

/-! ## Keel engines -/

/-- A command in a stack's queue (R327): its 64 bytes, its tag, the tick of its submission, and what its performance has left: whether it
was performed, its code (Table 7 of the keel chapter) and the lines completed. -/
structure KCmd where
  bytes : List Byte
  tag : Nat
  tick : Nat
  performed : Bool
  code : Nat
  lines : Nat
  /-- Lines after which a KILL of its job stops it (R331, R336). -/
  cut : Option Nat
deriving DecidableEq, Repr

/-- What the keel engines hold beside their registers. -/
structure Keel where
  /-- Command queues by stack (R327, R332). -/
  queues : Store (List KCmd)
  /-- HBM bursts in error, two to a line: 2 × line number + half, and whether uncorrectably (R314, R319). -/
  bad : List (Nat × Bool)
  /-- Changes of ILV so far: what unwritten HBM then holds is free (R317). -/
  epoch : Nat
  /-- Lines that the atomic units hold, newest first (R325). -/
  atoms : List Nat
  /-- Coming transfers of a stack that the command, address or write-data parity will find bad (R314). -/
  linkBad : Store Nat
  /-- Next line of the patrol pass, by stack (R321). -/
  scrub : Store Nat
  /-- Soft spares in use: stack, pseudo-channel, bank (R322). -/
  soft : List (Nat × Nat × Nat)
deriving DecidableEq, Repr

/-- The keel engines at reset. -/
def Keel.reset : Keel := ⟨[], [], 0, [], [], [], []⟩

/-! ## Packers and expanders -/

/-- A section of a committed spool in its expander (R254, R256): the landing slot, the body offset of the next block, blocks left, the INDEX
expected, the cores whose remaining blocks are skipped (R258), and since when the expander waits on a ring (R256). -/
structure Section where
  slot : Nat
  pos : Nat
  left : Nat
  index : Nat
  skip : List Nat
  waitFrom : Option Nat
deriving DecidableEq, Repr

/-- A core's expansion ring (R254): tiles begun since it was configured, and the bytes written of an open tile. -/
structure XRing where
  tiles : Nat
  opened : Option Nat
deriving DecidableEq, Repr

/-- A table command in progress (R248): OP, slot number 16 × context + slot, and the table it writes or installs. -/
structure TblOp where
  op : Nat
  slot : Nat
  table : List Byte
  /-- The word of a command that waits for a stack under repair before it is read (R322). -/
  held : Option Nat
deriving DecidableEq, Repr

/-- The codec beside its registers. -/
structure Codec where
  /-- Decoded tables held: unit (expander k, or packer 12 + k), slot number and table; most recently used first (R251). -/
  held : List (Nat × Nat × List Byte)
  /-- Sections committed and not ended, by cluster, in order of commit. -/
  secs : List (Nat × Section)
  rings : Store XRing
  /-- Generators 64 × k + g of packer k (R262). -/
  gens : Store Nat
  op : Option TblOp
  /-- Cores whose set 0 context halted on a fault or was fenced: their blocks are skipped until the set is bound again (R256). -/
  dead : List Nat
deriving DecidableEq, Repr

/-- The codec at reset (generators as R262 gives). -/
def Codec.reset : Codec := ⟨[], [], [], [], none, []⟩

/-! ## Security engine -/

/-- An entry of the key store (R389). -/
structure Key where
  live : Bool
  gen : Nat
  job : Nat
  key : List Byte
deriving DecidableEq, Repr

/-- An entry never used. -/
def Key.reset : Key := ⟨false, 0, 0, []⟩

/-- A security command in progress (R392): OP, IMM, argument, the handle of a KEY_IMPORT, and the report of an ATTEST as accepted (R383). -/
structure SecOp where
  op : Nat
  imm : Nat
  arg : Nat
  handle : Nat
  report : List Byte
deriving DecidableEq, Repr

/-- A ZERO in progress (R391): the GiB it covers, those whose fills are not yet submitted, and those a fill was refused for. -/
structure SecZero where
  gibs : List Nat
  todo : List Nat
  bad : List Nat
deriving DecidableEq, Repr

/-- The security engine beside its registers. -/
structure Sec where
  /-- Measurement registers (R380), 64 bytes each. -/
  meas : Store (List Byte)
  keys : Store Key
  /-- CDI, the alias key's seed and its certificate, after LOCK (R380). -/
  cdi : List Byte
  aliasSeed : List Byte
  cert : List Byte
  op : Option SecOp
  zero : Option SecZero
  /-- ZEROs that wait for the running one (R391): a killed job's automatic one, or none for the commanded one. -/
  wait : List (Option Nat)
deriving DecidableEq, Repr

/-- The security engine at reset. -/
def Sec.reset : Sec := ⟨[], [], [], [], [], none, none, []⟩

/-! ## Ethernet -/

/-- What the port sends (R358 to R372). Addresses are numbers; `bytes` is a message as its sender forms it. -/
inductive EthOut where
  | pfc (prio : Nat) (xoff : Bool)
  | arp (v6 : Bool) (to_ mac : Nat)
  | echo (v6 : Bool) (to_ : Nat) (bytes : List Byte)
  | cnp (qpn : Nat)
  | ack (qpn psn : Nat)
  | nak (qpn psn code : Nat)
  | readData (qpn : Nat) (bytes : List Byte)
  | readAsk (qpn addr rkey len : Nat)
  | again (qpn : Nat)
  | send (qpn : Nat) (bytes : List Byte)
  | delayReq (v6 : Bool) (seq : Nat)
  | datagram (ip port : Nat) (bytes : List Byte)
deriving DecidableEq, Repr

/-- A queue pair (R361, R362): role 0 load, 1 mailbox, 2 host, 3 depot; the peer; the sequence numbers next received and sent; the error state;
resends since the last progress; the sending rate in B/s; when a congestion notification was last sent and received. -/
structure Qp where
  role : Nat
  peer : Nat
  ip : Nat
  psnIn : Nat
  psnOut : Nat
  error : Bool
  retries : Nat
  rate : Nat
  cnpSent : Option Nat
  cnpGot : Nat
deriving DecidableEq, Repr

/-- A firmware load in progress (R397): the peer, the announced length, and the bytes received. -/
structure Load where
  ip : Nat
  qpn : Nat
  len : Nat
  got : List Byte
deriving DecidableEq, Repr

/-- A depot record the engine has copied (R366 to R368): its fields, the key captured at its start, and whether its plaintext is written. -/
structure DepotRec where
  object : Nat
  chunk : Nat
  len : Nat
  qp : Nat
  job : Nat
  dest : Nat
  key : List Byte
  done : Nat
  written : Bool
deriving DecidableEq, Repr

/-- A service message sent and not acknowledged (R370): SEQ, bytes, when it was last sent, resends. -/
structure SvcSent where
  seq : Nat
  bytes : List Byte
  at_ : Nat
  resends : Nat
deriving DecidableEq, Repr

/-- A service session (R369 to R372): identifier, endpoint, client, version; the last SEQ accepted and sent; keys with their salts from and
to the client; OPEN_ACK; when something was last received; the last request; and, once closed, the ring position that frees its flow. -/
structure Session where
  id : Nat
  ep : Nat
  ip : Nat
  port : Nat
  pub : List Byte
  ver : Nat
  rx : Nat
  tx : Nat
  keyIn : List Byte
  keyOut : List Byte
  ack : List Byte
  sent : List SvcSent
  heard : Nat
  req : Option Nat
  closing : Option Nat
deriving DecidableEq, Repr

/-- The Ethernet port beside its registers. -/
structure Eth where
  qps : Store (Option Qp)
  load : Option Load
  recs : List DepotRec
  sessions : List Session
  nextSession : Nat
  /-- Priorities stopped by PFC, those told to stop, and bytes held by priority (R360). -/
  paused : List Nat
  xoff : List Nat
  held : Store Nat
  /-- Messages handed to the port, oldest first. -/
  out : List EthOut
deriving DecidableEq, Repr

/-- The port at reset. -/
def Eth.reset : Eth := ⟨[], none, [], [], 1, [], [], [], []⟩

/-! ## Firmware and the gondola complex -/

/-- A job as firmware keeps it (R404 to R410): its rectangle, GiB range, contexts, error policy and resume table; 0 created, 1 running, 2 paused,
3 held, 4 paused until the scheduler has restarted. -/
structure Job where
  tag : Nat
  x0 : Nat
  x1 : Nat
  y0 : Nat
  y1 : Nat
  first : Nat
  last : Nat
  ctxs : List Nat
  policy : Nat
  resume : Nat
  state : Nat
deriving DecidableEq, Repr

/-- A message to firmware of another device (R396): the port it leaves on, its destination, and what it says. -/
structure FwSent where
  port : Nat
  x : Nat
  y : Nat
  msg : FwMsg
deriving DecidableEq, Repr

/-- What the master's firmware has heard in a restart (R27, R39): the stations that have named the tick they stopped at, those that have reported
themselves armed, and the tick the domain starts with, once it is known. -/
structure Restart where
  reached : List (Nat × Nat × Nat)
  armed : List (Nat × Nat)
  start : Option Nat
deriving DecidableEq, Repr

/-- Firmware's state beside the GND registers. -/
structure Gnd where
  /-- A restart of the domain that the master's firmware has begun. -/
  restart : Option Restart
  /-- The running image; an update's announced length and staged bytes; the new image and the components still to be swapped (R411, R412). -/
  image : List Byte
  stageLen : Option Nat
  staged : List Byte
  next : List Byte
  swaps : List Nat
  /-- The driver session: token and version; and the token of the held one (R401, R409, R410). -/
  session : Option (Nat × Nat)
  heldTok : Option Nat
  jobs : List Job
  /-- When the lease, the hold and the watchdog run out. -/
  lease : Option Nat
  hold : Option Nat
  wdog : Option Nat
  /-- Times of crashes by component (R408), and the millisecond and number of trace records last written (R403). -/
  crashes : Store (List Nat)
  traceMs : Nat
  traceN : Nat
  sent : List FwSent
  /-- Contained faults that no event bit announces, until firmware has taken them: job, the bytes of the record, and whether the job's policy
  applies (R202, R203). -/
  reports : List (Nat × List Byte × Bool)
deriving DecidableEq, Repr

/-- Firmware not loaded. -/
def Gnd.reset : Gnd := ⟨none, [], none, [], [], [], none, none, [], none, none, none, [], 0, 0, [], []⟩

/-! ## Power -/

/-- Supplies, input stage and governor beside the PWR registers. Powers are in units of 1/144,000,000 W, so that a slew of SLEW × VIN is
exact per time unit (R420). -/
structure Pwr where
  v48 : Bool
  v33 : Bool
  /-- The input stage is on; an electrical trip keeps it off until the 48 V input has left its range and returned (R464). -/
  on : Bool
  tripped : Bool
  /-- Die power-on reset has been released, at a core-cycle edge from which the cores count their cycles (R131), and the boot ROM has run. -/
  die : Bool
  dieAt : Nat
  booted : Bool
  /-- Declared levels are 0 after a ripcord, a stop or a kill (R421). -/
  flat : Bool
  /-- Declared levels read so far, by schedule index (R419). -/
  levels : Store Nat
  /-- E and D and when they were last computed. -/
  e : Nat
  d : Nat
  at_ : Nat
  /-- When a throttle cause last held (R424); energy below 1 mJ and when energy was last counted. -/
  causeAt : Nat
  energyRem : Nat
  energyAt : Nat
  /-- The boundary at which the throttle is still to be evaluated (R424). -/
  evalAt : Option Nat
  /-- The reference clock is present (R461). -/
  refClk : Bool
deriving DecidableEq, Repr

/-- Both supplies valid and the input stage on: the moment the device's reset begins (R415). -/
def Pwr.reset : Pwr := ⟨true, true, true, false, false, 0, false, false, [], 0, 0, 0, 0, 0, 0, none, true⟩

/-! ## The management controller -/

/-- The management bus (R466, R467): the slot sampled at the auxiliary supply, the ALERT bits latched, PIN_HI latched by a read of PIN_LO, and
the byte last answered. -/
structure Mgmt where
  slot : Nat
  alert : Nat
  pinHi : Option Nat
  answer : Nat
deriving DecidableEq, Repr

/-- The controller when its supply becomes valid. -/
def Mgmt.reset : Mgmt := ⟨0, 0, none, 0⟩

/-! ## The flash controller -/

/-- A journal record in flash (R428); one that is not valid was torn. -/
structure Rec where
  key : Nat
  seq : Nat
  body : List Byte
  valid : Bool
deriving DecidableEq, Repr

/-- One copy of a class (R429): its records by block, oldest block first, the last one the head; and the place of the oldest block in the copy. -/
structure Log where
  blocks : List (List Rec)
  oldest : Nat
deriving DecidableEq, Repr

/-- A copy with no record. -/
def Log.empty : Log := ⟨[[]], 0⟩

/-- A flash command in progress (R435): OP, class, key, body of an APPEND with its SEQ, or length of a READ; and, of an APPEND by the telemetry
component, what the lifetime counter gains by it (R432). -/
structure NvsOp where
  op : Nat
  cls : Nat
  entry : Rec
  len : Nat
  addr : Nat
  life : Nat
deriving DecidableEq, Repr

/-- What a lifetime counter has gained since its last committed record (R432), whether for a cause other than time or energy since it was last
appended, and when that was. -/
structure Life where
  gain : Nat
  now : Bool
  at_ : Nat
deriving DecidableEq, Repr

/-- The flash controller beside its registers: the command in progress, and the token buckets by class (R431): credit in time units and
when it was last brought up to date. -/
structure Nvs where
  op : Option NvsOp
  credit : Store (Nat × Nat)
  /-- The lifetime counters by key; since when the device is powered, and the seconds and kJ counted since then (R432). -/
  life : Store Life
  since : Nat
  secs : Nat
  kj : Nat
deriving DecidableEq, Repr

/-- The controller at reset. -/
def Nvs.reset : Nvs := ⟨none, [], [], 0, 0, 0⟩

/-! ## Telemetry -/

/-- The event queue (R442): records as TEL_EVQ_HI and TEL_EVQ_LO show them, oldest first; and the saturating counters that have raised
their COUNT_SAT (R445), by register key and low bit. -/
structure Tel where
  evq : List (Word × Word)
  satSpent : List (Nat × Nat)
deriving DecidableEq, Repr

/-- Telemetry at reset. -/
def Tel.reset : Tel := ⟨[], []⟩

/-! ## What survives a loss of power -/

/-- Fuses, spares and flash (R322, R377, R426). -/
structure Persist where
  /-- Blown bits of the two fuse copies, numbered from 0 in each. -/
  fuseA : List Nat
  fuseB : List Nat
  /-- Hard spares in use: stack, pseudo-channel, bank (R322). -/
  hard : List (Nat × Nat × Nat)
  /-- The copies of the identity record whose CRC holds: serial and MAC (R427). -/
  identA : Option (Nat × Nat)
  identB : Option (Nat × Nat)
  /-- The journal: copy A of class c is 2 × c, copy B 2 × c + 1; last SEQ by class (R428, R429). -/
  logs : Store Log
  seqs : Store Nat
  /-- Erase counts by block, blocks left in the spare pool (R429). -/
  erases : Store Nat
  spares : Nat
deriving DecidableEq, Repr

/-! ## The whole -/

/-- Everything a power failure takes (R433), but for the management controller while its supply stays valid. -/
structure Dev where
  /-- Device time in time units of 1/144 ns: 80 to the core cycle (log 4). -/
  time : Nat
  /-- The free values drawn so far (log 2). -/
  free : Nat
  regs : Store Word
  mem : List Host.Cell
  tick : Tick
  links : Links
  ring : Ring
  cores : Store CoreSt
  home : Home
  str : Streams
  keel : Keel
  codec : Codec
  sec : Sec
  eth : Eth
  gnd : Gnd
  tel : Tel
  pwr : Pwr
  nvs : Nvs
  mgmt : Mgmt
deriving DecidableEq, Repr

/-- The device at its reset: every register at its reset value, memory with nothing listed. -/
def Dev.reset : Dev :=
  ⟨0, 0, [], [], Tick.reset, Links.reset, Ring.reset, [], Home.reset, Streams.reset, Keel.reset, Codec.reset, Sec.reset, Eth.reset, Gnd.reset,
   Tel.reset, Pwr.reset, Nvs.reset, Mgmt.reset⟩

/-- A production device's flash and fuses (logs 7, 8): LIFECYCLE 1, every other fuse clear; a valid identity; an empty journal. -/
def Persist.reset : Persist := ⟨[1088], [1088], [], some (0, 0), some (0, 0), [], [], [], 1424⟩

/-- The block: the commands that wait, first in first out; what survives a loss of power; and what does not. -/
structure State where
  pending : List Instr
  persist : Persist
  dev : Dev
deriving DecidableEq, Repr

/-- Why the machine could stop with a fault. The manual gives every command of this block an effect, so no meaning faults, and the type has
no constructor. -/
inductive Fault where
deriving DecidableEq, Repr

/-- Why a command could be refused. -/
inductive Refusal where
  /-- Raised by an arm of exec whose command has no meaning yet: safe, since nothing is claimed of it. -/
  | notModelled (mnemonic : String)
deriving DecidableEq, Repr

/-- The block right after the reset of R415: the later supply has just become valid. -/
def State.reset : State := ⟨[], Persist.reset, Dev.reset⟩

end Sys2Proof.Machine
end

