-- ==== Sys2Proof/Machine/Ops.lean ====
section
/-! DEFINITION. The named operations over registers, memory, cores, event bits and counters that every meaning uses. -/

namespace Sys2Proof.Machine

/-! ## Registers -/

/-- The stored word of a register. -/
def Dev.reg (d : Dev) (k : Nat) : Word := Store.get resetWord d.regs k

/-- Set a register's word. -/
def Dev.setReg (d : Dev) (k : Nat) (w : Word) : Dev := { d with regs := Store.put resetWord d.regs k w }

/-- The bits of a field within a word. -/
def Fld.of (f : Fld) (w : Word) : Nat := w.toNat / 2 ^ f.lo % 2 ^ (f.hi + 1 - f.lo)

/-- A word with a field replaced. -/
def Fld.into (f : Fld) (w : Word) (v : Nat) : Word :=
  BitVec.ofNat 64 (w.toNat - f.of w * 2 ^ f.lo + v % 2 ^ (f.hi + 1 - f.lo) * 2 ^ f.lo)

/-- The value of a field of a register. -/
def Dev.fld (d : Dev) (f : Fld) : Nat := f.of (d.reg f.reg)

/-- Set a field of a register, as hardware does. -/
def Dev.setFld (d : Dev) (f : Fld) (v : Nat) : Dev := d.setReg f.reg (f.into (d.reg f.reg) v)

/-- A one-bit field as a truth value. -/
def Dev.bit (d : Dev) (f : Fld) : Bool := d.fld f == 1

/-! ## Time -/

/-- Time units of one core cycle and of one nanosecond (log 4). -/
def ccUnits : Nat := 80
def nsUnits : Nat := 144

/-- Core cycles since core reset, rounded up to the next core-cycle edge (R131), and the time of such a cycle. -/
def Dev.nowCc (d : Dev) : Nat := ceilDiv (d.time - d.pwr.dieAt) ccUnits
def Dev.timeOfCc (d : Dev) (c : Nat) : Nat := d.pwr.dieAt + c * ccUnits

/-- TAI now, in time units and in ns: the time base runs faster or slower by its correction (R36 to R38). -/
def Dev.taiUnits (d : Dev) : Nat := d.tick.taiBase + (d.time - d.tick.taiFrom) * (1000000000 + d.tick.ppb).toNat / 1000000000
def Dev.tai (d : Dev) : Nat := d.taiUnits / nsUnits

/-- Time passes to an instant; it never runs back. -/
def Dev.at_ (d : Dev) (t : Nat) : Dev := { d with time := max d.time t }

/-! ## Event bits and counters -/

/-- Classes of Table 1 of the error chapter (R436). -/
def clsInfo : Nat := 0
def clsCorrected : Nat := 1
def clsContained : Nat := 2
def clsFatal : Nat := 3
def clsRing : Nat := 4

/-- The high word of an event record (R443). -/
def evqHi (tick cls block bit unit : Nat) : Word :=
  BitVec.ofNat 64 (tick % 2 ^ 32 * 2 ^ 32 + cls * 2 ^ 28 + block * 2 ^ 24 + bit * 2 ^ 18 + unit % 2 ^ 16)

/-- Add one to a 32-bit error counter without saying so (R445). -/
def Dev.satStep (d : Dev) (f : Fld) : Dev :=
  if d.fld f = 2 ^ 32 - 1 then d else d.setFld f (d.fld f + 1)

/-- Whether a counter's next step raises COUNT_SAT (R445). -/
def Dev.satNow (d : Dev) (f : Fld) : Bool :=
  (d.fld f + 1 ≥ 2 ^ 32 - 1) && !d.tel.satSpent.contains (f.reg, f.lo)

/-- Append a record to the event queue of 1,024; a full queue drops it and counts the drop (R442). -/
def Dev.record (d : Dev) (f : Fld) (unit cls : Nat) : Dev :=
  if d.tel.evq.length < 1024 then
    { d with tel := { d.tel with evq := d.tel.evq ++
        [(evqHi (d.fld F.TCK_NUMBER_NUMBER) cls (f.reg / 0x10000) f.lo unit, BitVec.ofNat 64 d.tai)] } }
  else
    let sat := d.satNow F.TEL_ERR_COUNT_DROPS
    let d := (d.satStep F.TEL_ERR_COUNT_DROPS).setFld F.TEL_EVENT_EVQ_DROP 1
    if sat then { (d.setFld F.TEL_EVENT_COUNT_SAT 1) with
      tel := { d.tel with satSpent := (F.TEL_ERR_COUNT_DROPS.reg, F.TEL_ERR_COUNT_DROPS.lo) :: d.tel.satSpent } } else d

/-- An event occurs: its bit sets, and a record is made when the bit rises (R442). -/
def Dev.raise (d : Dev) (f : Fld) (unit cls : Nat) : Dev :=
  if d.bit f then d else (d.setFld f 1).record f unit cls

/-- Count an error in a saturating counter; the step that saturates it raises the block's COUNT_SAT once (R445). -/
def Dev.countErr (d : Dev) (f sat : Fld) (unit : Nat) : Dev :=
  if d.satNow f then
    let d := d.satStep f
    { d with tel := { d.tel with satSpent := (f.reg, f.lo) :: d.tel.satSpent } }.raise sat unit clsInfo
  else d.satStep f

/-- Add to a performance counter, which wraps silently (R445). -/
def Dev.count (d : Dev) (f : Fld) (n : Nat) : Dev := d.setFld f (d.fld f + n)

/-- Add to every monitor that counts an event in a unit (R446). -/
def Dev.monitor (d : Dev) (event unit n : Nat) : Dev :=
  (List.range 16).foldl (fun d k =>
    if d.fld (F.TEL_PMSEL_EVENT k) = event ∧ event ≠ 0 ∧ (d.fld (F.TEL_PMSEL_UNIT k) = 0xFF ∨ d.fld (F.TEL_PMSEL_UNIT k) = unit)
    then d.count (F.TEL_PMC_COUNT k) n else d) d

/-! ## Memory by device offset (R295) -/

/-- What a byte of memory that nothing has written reads as (log 3). -/
def memDefault (_ : Nat) : Byte := 0

/-- Bytes of HBM; HBM lies at device offset 0. -/
def hbmSize : Nat := 0x06000000000

/-- What a byte holds beneath all that has been written to it: zero, but free in HBM once ILV has changed (R317, log 3). -/
def Dev.veil (d : Dev) (a : Nat) : Byte := if d.keel.epoch = 0 ∨ hbmSize ≤ a then 0 else Config.hbmByte d.keel.epoch a

/-- Read one byte. Memory lists how each byte differs from its veil. -/
def Dev.mb (d : Dev) (a : Nat) : Byte := Store.get memDefault d.mem a ^^^ d.veil a

/-- Write one byte. -/
def Dev.setMb (d : Dev) (a : Nat) (b : Byte) : Dev := { d with mem := Store.put memDefault d.mem a (b ^^^ d.veil a) }

/-- Read n bytes from a device offset. -/
def Dev.rd (d : Dev) (a : Nat) : Nat → List Byte
  | 0 => []
  | n + 1 => d.mb a :: d.rd (a + 1) n

/-- Write bytes into a sparse memory that lists differences from a veil. -/
def memWrite (veil : Nat → Byte) (m : List Host.Cell) (a : Nat) : List Byte → List Host.Cell
  | [] => m
  | b :: bs => memWrite veil (Store.put memDefault m a (b ^^^ veil a)) (a + 1) bs

/-- Write bytes at a device offset. -/
def Dev.wr (d : Dev) (a : Nat) (bs : List Byte) : Dev := { d with mem := memWrite d.veil d.mem a bs }

/-- Take out every byte listed in a range of device offsets beyond HBM, which then reads as zero. -/
def Dev.zero (d : Dev) (a n : Nat) : Dev := { d with mem := d.mem.filter fun c => !(decide (a ≤ c.1) && decide (c.1 < a + n)) }

/-- What HBM holds becomes unspecified: its bytes take a new free veil (R317). -/
def Dev.newVeil (d : Dev) : Dev :=
  { d with mem := d.mem.filter (fun c => decide (hbmSize ≤ c.1)), keel := { d.keel with epoch := d.keel.epoch + 1 } }

/-- A little-endian number in memory. -/
def Dev.rdNat (d : Dev) (a n : Nat) : Nat := leNat (d.rd a n)

/-- Bases of the device offset map (R295, Table 1). -/
def scpBase : Nat := 0x80000000000
def landBase : Nat := 0x90000000000
def keelBase : Nat := 0xA0000000000
def farBase : Nat := 0xC0000000000
def regBase : Nat := 0xF0000000000

/-- A core's scratchpad window and a landing slot. -/
def scpWin (n : Nat) : Nat := scpBase + n * 0x1000000
def landSlot (k : Nat) : Nat := landBase + k * 0x2000000
def scpBytes : Nat := 0x600000

/-! ## Cores -/

/-- A core. -/
def Dev.core (d : Dev) (n : Nat) : CoreSt := Store.get (fun _ => CoreSt.reset) d.cores n

/-- Replace a core. -/
def Dev.setCore (d : Dev) (n : Nat) (c : CoreSt) : Dev := { d with cores := Store.put (fun _ => CoreSt.reset) d.cores n c }

/-- Change a core. -/
def Dev.modCore (d : Dev) (n : Nat) (g : CoreSt → CoreSt) : Dev := d.setCore n (g (d.core n))

/-- Fields of a core's context sets (R119). -/
def ctxValid (set n : Nat) : Fld := if set = 0 then F.SCP_CTX0_VALID n else F.SCP_CTX1_VALID n
def ctxJob (set n : Nat) : Fld := if set = 0 then F.SCP_CTX0_JOB n else F.SCP_CTX1_JOB n
def ctxId (set n : Nat) : Fld := if set = 0 then F.SCP_CTX0_CTX_ID n else F.SCP_CTX1_CTX_ID n
def ctxBase4k (set n : Nat) : Fld := if set = 0 then F.SCP_CTX0_SCP_BASE4K n else F.SCP_CTX1_SCP_BASE4K n
def ctxBound4k (set n : Nat) : Fld := if set = 0 then F.SCP_CTX0_SCP_BOUND4K n else F.SCP_CTX1_SCP_BOUND4K n
def ctxHbmBase (set n : Nat) : Fld := if set = 0 then F.SCP_CTX0_HBM_BASE_BASE n else F.SCP_CTX1_HBM_BASE_BASE n
def ctxHbmBound (set n : Nat) : Fld := if set = 0 then F.SCP_CTX0_HBM_BOUND_SIZE n else F.SCP_CTX1_HBM_BOUND_SIZE n

/-- A core's STATE (R131). -/
def Dev.coreState (d : Dev) (n : Nat) : Nat := d.fld (F.SCP_CORE_STATUS_STATE n)

/-- Whether a core runs a kernel: STATE 2 or 3. -/
def Dev.running (d : Dev) (n : Nat) : Bool := d.coreState n == 2 || d.coreState n == 3

/-- Whether a core is in split mode (R155). -/
def Dev.split (d : Dev) (n : Nat) : Bool := d.bit (F.MTX_CORE_CTRL_SPLIT n)

/-- The value of a scalar register; s0 reads 0 (R180). -/
def CoreSt.sreg (c : CoreSt) (r : Nat) : Word := if r = 0 then 0 else Store.get (fun _ => 0) c.s r

/-- Write a scalar register; s0 discards the write. A written word's parity is right again (R180, R181). -/
def CoreSt.setS (c : CoreSt) (r : Nat) (w : Word) : CoreSt :=
  if r = 0 then c else { c with s := Store.put (fun _ => 0) c.s r w, badRegs := c.badRegs.filter (· ≠ r) }

/-- The value of a predicate; p0 reads 1. -/
def CoreSt.preg (c : CoreSt) (r : Nat) : Bool := if r = 0 then true else Store.get (fun _ => false) c.p r

/-- Write a predicate; p0 discards the write. -/
def CoreSt.setP (c : CoreSt) (r : Nat) (b : Bool) : CoreSt :=
  if r = 0 then c else { c with p := Store.put (fun _ => false) c.p r b, badRegs := c.badRegs.filter (· ≠ 32 + r) }

/-- 512 zero lanes. -/
def zeroLanes (_ : Nat) : List (BitVec 32) := List.replicate 512 0

/-- A vector register as 512 lanes of 32 bits (R180, R223). -/
def CoreSt.vreg (c : CoreSt) (r : Nat) : List (BitVec 32) := Store.get zeroLanes c.v r

/-- Write a vector register. -/
def CoreSt.setV (c : CoreSt) (r : Nat) (ls : List (BitVec 32)) : CoreSt :=
  { c with v := Store.put zeroLanes c.v r ls, badRegs := c.badRegs.filter (· ≠ 40 + r) }

/-- Write one beat, 64 lanes, of a vector register. -/
def CoreSt.setBeat (c : CoreSt) (r b : Nat) (ls : List (BitVec 32)) : CoreSt :=
  let old := c.vreg r
  c.setV r (old.take (64 * b) ++ ls ++ old.drop (64 * (b + 1)))

/-- 128 zero words of an accumulator row. -/
def zeroRow (_ : Nat) : List (BitVec 32) := List.replicate 128 0

/-- A 512-byte accumulator row (R127). -/
def CoreSt.accRow (c : CoreSt) (j : Nat) : List (BitVec 32) := Store.get zeroRow c.acc j

/-- Write a 512-byte accumulator row. -/
def CoreSt.setAccRow (c : CoreSt) (j : Nat) (ls : List (BitVec 32)) : CoreSt := { c with acc := Store.put zeroRow c.acc j ls }

/-- A completion counter of a set (R238). -/
def CoreSt.dcOf (c : CoreSt) (set i : Nat) : BitVec 32 := Store.get (fun _ => 0) c.dc (set * 8 + i)

/-- Add one to a completion counter; it wraps silently. -/
def CoreSt.dcAdd (c : CoreSt) (set i : Nat) : CoreSt :=
  { c with dc := Store.put (fun _ => 0) c.dc (set * 8 + i) (c.dcOf set i + 1) }

/-- The array unit of a half. -/
def CoreSt.unit (c : CoreSt) (h : Nat) : ArrUnit := Store.get (fun _ => ArrUnit.reset) c.units h

/-- Replace an array unit. -/
def CoreSt.setUnit (c : CoreSt) (h : Nat) (u : ArrUnit) : CoreSt := { c with units := Store.put (fun _ => ArrUnit.reset) c.units h u }

/-! ## Ticks (R32, R35, R37, R40) -/

/-- TCK_STATUS.STATE. -/
def Dev.tckState (d : Dev) : Nat := d.fld F.TCK_STATUS_STATE
def Dev.tckRunning (d : Dev) : Bool := d.tckState == 2 || d.tckState == 3
def Dev.master (d : Dev) : Bool := d.bit F.TCK_CTRL_IS_MASTER

/-- Nanoseconds of the device's time base in time units; only a master's carries a correction (R37). -/
def Dev.baseNs (d : Dev) (n : Nat) : Nat := n * nsUnits * 1000000000 / (1000000000 + d.tick.ppb).toNat

/-- The first core-cycle edge at or after a time. -/
def Dev.edge (d : Dev) (t : Nat) : Nat := d.timeOfCc (ceilDiv (t - d.pwr.dieAt) ccUnits)

/-- The period that the boundary announced last will begin, in ns. -/
def Dev.plannedNs (d : Dev) : Nat :=
  d.tick.fires.foldl (fun p f => f.period.getD p)
    (if d.tckRunning then d.fld F.TCK_PERIOD_CURRENT_NS else d.fld F.TCK_PERIOD_PERIOD_NS)

/-- The time of the boundary that begins tick t: as its marker gives it, else predicted from the last boundary announced or fired (R32, R35). -/
def Dev.boundaryOf (d : Dev) (t : Nat) : Option Nat :=
  match d.tick.fires.find? (·.tick == t) with
  | some f => some f.nom
  | none =>
    let p := d.baseNs d.plannedNs
    let now := d.fld F.TCK_NUMBER_NUMBER
    match d.tick.fires.getLast? with
    | some f => some (if f.tick ≤ t then f.nom + (t - f.tick) * p else f.nom - (f.tick - t) * p)
    | none => d.tick.predicted.map fun n => if now < t then n + (t - now - 1) * p else n - (now + 1 - t) * p

/-- The opening of the settle window of the tick now running (R41). -/
def Dev.settleAt (d : Dev) : Option Nat := d.tick.predicted.map (· - d.baseNs 500)

/-! ## Links -/

/-- A port. -/
def Dev.port (d : Dev) (p : Nat) : Port := Store.get (fun _ => Port.reset) d.links.ports p

/-- Replace a port. -/
def Dev.setPort (d : Dev) (p : Nat) (q : Port) : Dev :=
  { d with links := { d.links with ports := Store.put (fun _ => Port.reset) d.links.ports p q } }

/-- Whether a port is Up (R347). -/
def Dev.up (d : Dev) (p : Nat) : Bool := decide (p < 4) && d.fld (F.LNK_PSTATUS_STATE p) == 4

/-- The coordinates of the neighbour a port should meet (R338), none beyond the edge. -/
def Dev.neighbour (d : Dev) (p : Nat) : Option (Nat × Nat) :=
  let x := d.fld F.LNK_COORD_X
  let y := d.fld F.LNK_COORD_Y
  match p with
  | 0 => if y = 0 then none else some (x, y - 1)
  | 1 => if x = 127 then none else some (x + 1, y)
  | 2 => if y = 63 then none else some (x, y + 1)
  | 3 => if x = 0 then none else some (x - 1, y)
  | _ => none

/-- Whether coordinates lie inside LNK_REGION (R352). -/
def Dev.inRegion (d : Dev) (x y : Nat) : Bool :=
  d.bit F.LNK_REGION_VALID && decide (d.fld F.LNK_REGION_X0 ≤ x) && decide (x ≤ d.fld F.LNK_REGION_X1)
    && decide (d.fld F.LNK_REGION_Y0 ≤ y) && decide (y ≤ d.fld F.LNK_REGION_Y1)

/-- Whether a port's neighbour lies inside the region (R357, LNK_PSTATUS.IN_REGION). -/
def Dev.portIn (d : Dev) (p : Nat) : Bool :=
  match d.neighbour p with
  | none => false
  | some (x, y) => d.inRegion x y

/-- Queue a short message on a port; a port that is not Up carries nothing (R347). -/
def Dev.send (d : Dev) (p : Nat) (m : ShortMsg) : Dev :=
  if d.up p then d.setPort p { d.port p with shorts := (d.port p).shorts ++ [m] } else d

/-- Queue a short message on every Up port whose neighbour lies in the region, but for one. -/
def Dev.flood (d : Dev) (except : Nat) (m : ShortMsg) : Dev :=
  (List.range 4).foldl (fun d p => if p ≠ except && d.portIn p then d.send p m else d) d

/-- Queue payload on a port's lane (R343). -/
def Dev.payload (d : Dev) (p : Nat) (q : Payload) : Dev :=
  if d.up p then d.setPort p { d.port p with lanes := (d.port p).lanes ++ [q] } else d

/-! ## Free values and outcomes -/

/-- Draw a free word: the counter advances, and nothing is known of the value (log 2). -/
def Dev.drawWord (d : Dev) : Word × Dev := (Config.freeWord d.free, { d with free := d.free + 1 })

/-- Draw n free bytes. -/
def Dev.drawBytes (d : Dev) (n : Nat) : List Byte × Dev :=
  ((List.range n).map fun i => Config.freeByte (d.free + i), { d with free := d.free + n })

/-- What a meaning answers. -/
abbrev Out := Host.Outcome State Fault Refusal

/-- Whether the device runs: both supplies valid, the input stage on and the die out of power-on reset (R414, R415, R425). -/
def State.live (s : State) : Bool := s.dev.pwr.v48 && s.dev.pwr.v33 && s.dev.pwr.on && s.dev.pwr.die

/-- A command that acts on the volatile state of a running device; a device that does not run answers nothing (R414). -/
def act (s : State) (g : Dev → Dev) : Out := .next (if s.live then { s with dev := g s.dev } else s)

/-- A command that acts on persistent state as well. -/
def actS (s : State) (g : State → State) : Out := .next (if s.live then g s else s)

/-- Change the volatile state. -/
def State.on (s : State) (g : Dev → Dev) : State := { s with dev := g s.dev }

/-- Register space admits the firmware tag; any other request is refused (R296); `no` is what a refusal does. -/
def State.fwElse (s : State) (tag : Nat) (no : Dev → Dev) (g : State → State) : State := if tag = 0xFFFF then g s else s.on no

end Sys2Proof.Machine
end

