-- ==== Sys2Proof/Machine/Ripcord.lean ====
section
/-! DEFINITION. The ripcord (R79, R440, R441), and the fault record of a refused access (R296). -/

namespace Sys2Proof.Machine

/-- Time a wait has lasted, added to TTH_WAIT (R69). -/
def Dev.waited (d : Dev) (from_ : Option Nat) : Dev :=
  match from_ with
  | none => d
  | some t => d.count F.TTH_WAIT_NS ((d.time - t) / nsUnits)

/-- Forwarding stops on a port: ring payload not yet sent is dropped (R79, R350). -/
def Dev.ringPayloadDrop (d : Dev) (p : Nat) : Dev :=
  let q := d.port p
  (d.waited q.waitFrom).setPort p { q with lanes := q.lanes.filter fun x => x.vl != 0, waitFrom := none }

/-- The landing slots keep their contents, flags and records; what landed in them stands for nothing after the stop (R79). -/
def Dev.slotsStop (d : Dev) : Dev :=
  let d := d.ring.slots.foldl (fun d e => d.waited e.2.waitFrom) d
  { d with ring := { d.ring with slots := d.ring.slots.map fun e => (e.1, { e.2 with live := false, ready := false, waitFrom := none }) } }

/-- The tether engine stops (R79): no further staging, forwarding or commit; its status bits, PENDING and MODE clear. -/
def Dev.tetherStop (d : Dev) : Dev :=
  let d := ((List.range 4).foldl Dev.ringPayloadDrop d).slotsStop
  let d := d.setFld F.TTH_STATUS_ACTIVE 0
  let d := d.setFld F.TTH_STATUS_DRAINING 0
  let d := d.setFld F.TTH_STATUS_STAGING 0
  let d := d.setFld F.TTH_STATUS_RETURN 0
  let d := d.setFld F.TTH_STATUS_FWD_WAIT_CW 0
  let d := d.setFld F.TTH_STATUS_FWD_WAIT_CCW 0
  let d := d.setFld F.TTH_MODE_REQ_PENDING 0
  let d := d.setFld F.TTH_CTRL_MODE 0
  { d with ring := { d.ring with held := none, turnaround := false, returns := [], grads := [], launched := none },
           links := { d.links with vl0Stop := true } }

/-- The tick unit stops (R40, R441): RUN clears, STATE reads 4, CURRENT_NS reads 0, the tick number and schedule index stay. -/
def Dev.tickStop (d : Dev) : Dev :=
  let d := d.setFld F.TCK_CTRL_RUN 0
  let d := d.setFld F.TCK_STATUS_STATE 4
  let d := d.setFld F.TCK_STATUS_SLIP_PENDING 0
  let d := d.setFld F.TCK_PERIOD_CURRENT_NS 0
  { d with tick := { d.tick with fires := [], predicted := none, unsent := none, stopping := false, soft := none, gov := [] } }

/-- A core running scheduled work stops after its current bundle, and no completion is posted (R441, Table 5). -/
def Dev.coreStop (d : Dev) (n : Nat) : Dev :=
  if d.coreState n = 2 then
    (d.setFld (F.SCP_CORE_STATUS_STATE n) 4).modCore n fun c => { c with stopped := true, tickWait := false, acq := none }
  else d

/-- Every core in turn. -/
def Dev.eachCore (d : Dev) (g : Dev → Nat → Dev) : Dev := (List.range 144).foldl g d

/-- A device records a ripcord and, armed or running, applies its effects (R441, Table 5). -/
def Dev.ripcordAct (d : Dev) (cause x y serial : Nat) : Dev :=
  let d := d.setFld F.TEL_RIPCORD_CAUSE cause
  let d := d.setFld F.TEL_RIPCORD_ORIGIN_X x
  let d := d.setFld F.TEL_RIPCORD_ORIGIN_Y y
  let d := d.setFld F.TEL_RIPCORD_SERIAL serial
  let d := { d with links := { d.links with seen := ((x, y, serial) :: d.links.seen).take 16,
                                            faultFrom := some d.time } }
  let d := d.raise F.TEL_EVENT_RIPCORD 0 clsRing
  let st := d.fld F.TCK_STATUS_STATE
  if st = 1 ∨ st = 2 ∨ st = 3 then
    let d := d.tickStop.tetherStop.eachCore Dev.coreStop
    { d with pwr := { d.pwr with flat := true } }
  else d

/-- Pull the ripcord for the device's domain (R440, R351). -/
def Dev.pullRipcord (d : Dev) (cause : Nat) : Dev :=
  let serial := (d.fld F.TEL_RIPCORD_OWN_SERIAL + 1) % 2 ^ 16
  let x := d.fld F.LNK_COORD_X
  let y := d.fld F.LNK_COORD_Y
  let d := d.setFld F.TEL_RIPCORD_OWN_SERIAL serial
  let d := d.flood 8 (.ripcord (d.fld F.LNK_REGION_DOMAIN_ID) cause x y serial)
  let d := d.raise F.LNK_DEV_EVENT_RIPCORD_SENT 0 clsRing
  d.ripcordAct cause x y serial

/-- Record a refused access (R296, R313): the cause, the requester's coordinates and the offset. -/
def Dev.winRecord (d : Dev) (cause addr x y : Nat) : Dev :=
  let d := d.setFld F.DEV_WIN_FAULT_CAUSE cause
  let d := d.setFld F.DEV_WIN_FAULT_SRC_X x
  let d := d.setFld F.DEV_WIN_FAULT_SRC_Y y
  let d := d.setFld F.DEV_WIN_FAULT_ADDR addr
  d.raise F.DEV_WIN_EVENT_FAULT 0 clsContained

/-- A refused access whose rule names an event bit of its own. -/
def Dev.winFault (d : Dev) (cause addr x y : Nat) (ev : Fld) : Dev := (d.winRecord cause addr x y).raise ev 0 clsContained

/-- A refusal of an access of this device itself, without and with an event bit. -/
def Dev.ownRecord (d : Dev) (cause addr : Nat) : Dev := d.winRecord cause addr (d.fld F.LNK_COORD_X) (d.fld F.LNK_COORD_Y)
def Dev.ownFault (d : Dev) (cause addr : Nat) (ev : Fld) : Dev := (d.ownRecord cause addr).raise ev 0 clsContained

end Sys2Proof.Machine
end

