-- ==== Sys2Proof/Machine/Access.lean ====
section
/-! DEFINITION. Requests: how an access leaves its source, and what waits at its home (R294 to R309, R353). -/

namespace Sys2Proof.Machine

/-- A channel, and its replacement (R269). -/
def Dev.chan (d : Dev) (i : Nat) : Chan := Store.get (fun _ => Chan.reset) d.str.chans i
def Dev.setChan (d : Dev) (i : Nat) (q : Chan) : Dev :=
  { d with str := { d.str with chans := Store.put (fun _ => Chan.reset) d.str.chans i q } }

/-- The source number of the S slot of a core's set (R306). -/
def coreSrc (core set : Nat) : Nat := core * 2 + set

/-- The own device number on the board (R294). -/
def Dev.slotNo (d : Dev) : Nat := d.fld F.DEV_STATUS_SLOT

/-- Coordinates of a device of the own board (R339). -/
def Dev.boardXY (d : Dev) (n : Nat) : Nat × Nat :=
  (d.fld F.LNK_COORD_X / 4 * 4 + n % 4, d.fld F.LNK_COORD_Y / 4 * 4 + n / 4)

/-- The first port of the dimension-order path, all X hops first (R353). -/
def portToward (x y tx ty : Nat) : Nat :=
  if x < tx then 1 else if tx < x then 3 else if y < ty then 2 else 0

/-- Where a packet to a destination leaves: none when its route entry says unreachable or its port is not Up (R350, R353). -/
def Dev.routePort (d : Dev) (tx ty : Nat) : Option Nat :=
  let i := 128 * ty + tx
  let x := d.fld F.LNK_COORD_X
  let y := d.fld F.LNK_COORD_Y
  let p :=
    match d.fld (F.LNK_ROUTE_DATA_MODE i) with
    | 0 => some (portToward x y tx ty)
    | 1 => some (portToward x y (d.fld (F.LNK_ROUTE_DATA_VIA_X i)) (d.fld (F.LNK_ROUTE_DATA_VIA_Y i)))
    | _ => none
  match p with
  | some q => if d.up q then some q else none
  | none => none

/-- Bytes an operation carries on the links: its data. -/
def ReqOp.data : ReqOp → List Byte
  | .store bs => bs
  | .addF32 bs => bs
  | _ => []

/-- Bytes an operation covers. -/
def ReqOp.len : ReqOp → Nat
  | .load n _ => n
  | .store bs => bs.length
  | .atomic _ wide _ _ _ => if wide then 8 else 4
  | .addF32 bs => bs.length

/-- Whether an operation writes. -/
def ReqOp.writes : ReqOp → Bool
  | .load _ _ => false
  | _ => true

/-- Send a remote memory packet: a 64-byte header cell and the data cells (R343, R353); a request names what it accesses (R297, R299). -/
def Dev.sendPacket (d : Dev) (p vl : Nat) (target : Option (Option Nat × Nat)) (data : List Byte) : Dev :=
  d.payload p ⟨vl, 8, data, 0, 64 + ceilDiv data.length 64 * 64, target⟩

/-- The source number of a peer device: 4,000 and its place (R306). -/
def peerSrc (x y : Nat) : Nat := 4000 + 128 * y + x

/-- A gradient one of whose writes answers with an error (R320). -/
def Dev.gradFail (d : Dev) (id : Nat) : Dev :=
  { d with ring := { d.ring with grads := d.ring.grads.map fun (g : Grad) =>
      if g.first ≤ id ∧ id < g.last then { g with failed := true } else g } }

/-- Put an answer on its way: to a core it waits to be delivered; to a peer it leaves on the first response lane, routed by the own entry for
the requester (R353); the other sources only learn of an error. `data` is what a peer is sent. -/
def Dev.respond (d : Dev) (r : Req) (v : Word) (err : Bool) (line : List Byte := []) (data : List Byte := []) : Dev :=
  if r.src < 288 then
    { d with home := { d.home with resps := d.home.resps ++ [⟨r.id, r.src, r.reg, r.acq, v, err, r.addr, line, r.kern, r.bundle, r.stale⟩] } }
  else if 4000 ≤ r.src then
    match d.routePort ((r.src - 4000) % 128) ((r.src - 4000) / 128) with
    | some p => d.sendPacket p 3 none data
    | none => d
  else if err then d.gradFail r.id else d

/-- Take a request out of the waiting ones. -/
def Dev.unwait (d : Dev) (id : Nat) : Dev :=
  { d with home := { d.home with reqs := d.home.reqs.filter (·.id ≠ id) } }

/-- The kinds of home of R295. -/
inductive Region where
  | hbm | scratch | landing | keel | far | regs | none
deriving DecidableEq, Repr

/-- The region that holds all n bytes at a device offset (R295, Table 1). -/
def regionOf (a n : Nat) : Region :=
  if a + n ≤ hbmSize then .hbm
  else if scpBase ≤ a ∧ a + n ≤ scpBase + 0x90000000 then .scratch
  else if landBase ≤ a ∧ a + n ≤ landBase + 0xC000000 then .landing
  else if keelBase ≤ a ∧ a + n ≤ keelBase + 0xC000000 then .keel
  else if farBase ≤ a ∧ a + n ≤ farBase + 0x10000000000 then .far
  else if regBase ≤ a ∧ a + n ≤ regBase + 0x1000000 then .regs
  else .none

/-- The home of an offset for the order of R306: a stack's place within its interleave, a bank, a landing bank (log 187), or a register. The interleave
granularity is given by the caller. -/
def homeOf (ilv a : Nat) : Region × Nat :=
  match regionOf a 1 with
  | .hbm => (.hbm, a / ilv % 12)
  | .scratch => (.scratch, (a - scpBase) / 0x1000000 * 32 + a / 128 % 32)
  | .landing => (.landing, a / 128 % 24)
  | .keel => (.keel, a)
  | .far => (.far, 0)
  | .regs => (.regs, a)
  | .none => (.none, a)

/-- Whether the drain-out unit, the DMA engine and the queues of free-running engines of a core have performed what they accepted for a set in
the bundles before number `no` (R199, R218). -/
def CoreSt.enginesPast (c : CoreSt) (split : Bool) (set no : Nat) : Bool :=
  c.copies.all (fun q => q.set != set || decide (no ≤ q.no)) &&
    (List.range 2).all (fun h => (split && h != set) || (c.unit h).dq.all fun q => decide (no ≤ q.no)) &&
    c.queues.all fun e => e.2.all fun q => decide (no ≤ q.no)

/-- Whether a FLAG.REL store may be performed: every write it must follow has been (R218, R309). -/
def Dev.released (d : Dev) (r : Req) : Bool :=
  !r.rel ||
    (r.need.all (fun i => !(d.home.reqs.any (·.id == i))) &&
     r.needDesc.all (fun i => !(d.str.descs.any (fun q => q.id == i && !q.cancelled))) &&
     (decide (r.src ≥ 288) || (d.core (r.src / 2)).enginesPast (d.split (r.src / 2)) (r.src % 2) r.no))

/-- Send a request to another device of the board (R297, R353): outside the job's region, or with no route, it is refused. -/
def Dev.sendAway (d : Dev) (r : Req) : Dev :=
  let off := r.addr % 2 ^ 44
  let (tx, ty) := d.boardXY (r.addr / 2 ^ 44 % 16)
  if d.inRegion tx ty = false then (d.ownRecord 8 off).respond r 0 true
  else match d.routePort tx ty with
    | none => (d.ownRecord 8 off).respond r 0 true
    | some p =>
      let d := d.sendPacket p 1 (some (none, off)) r.op.data
      if r.src < 288 then { d with home := { d.home with reqs := d.home.reqs ++ [{ r with away := true }] } } else d

/-- An access to a board address leaves its source (R294, R297): it waits for its home, or goes to the peer it names, or is
refused. A FLAG.REL store to a peer is held, its address marked with bit 48, until the writes it follows have been performed. -/
def Dev.issue (d : Dev) (r : Req) : Dev :=
  let r := { r with id := d.home.nextId }
  let d := { d with home := { d.home with nextId := d.home.nextId + 1 } }
  let n := r.addr / 2 ^ 44
  let off := r.addr % 2 ^ 44
  if 2 ^ 48 ≤ r.addr then (d.ownFault 1 off F.DEV_WIN_EVENT_UNMAPPED).respond r 0 true
  else if n = d.slotNo then { d with home := { d.home with reqs := d.home.reqs ++ [{ r with addr := off }] } }
  else if d.released r then d.sendAway r
  else { d with home := { d.home with reqs := d.home.reqs ++ [{ r with addr := r.addr + 2 ^ 48 }] } }

/-- Whether a device offset lies in a core's own scratchpad. -/
def inOwn (core a : Nat) : Bool := decide (scpWin core ≤ a) && decide (a < scpWin core + scpBytes)

/-- Whether a core's set has a write outstanding beyond its own scratchpad that bundles before number `no` issued (R217). -/
def Dev.writesOut (d : Dev) (core set no : Nat) : Bool :=
  d.home.reqs.any (fun r => r.src == coreSrc core set && r.op.writes && (r.away || !(inOwn core r.addr))) ||
    d.str.descs.any (fun q => q.core == core && q.set == set && q.chan == 0 && !q.cancelled && decide (q.no < no) &&
      !(q.dst / 2 ^ 44 == d.slotNo && inOwn core (q.dst % 2 ^ 44)))

/-- Whether anything a core's S slots sent is still to be answered (R198). -/
def Dev.answersDue (d : Dev) (core : Nat) : Bool :=
  d.home.reqs.any (fun r => r.src / 2 == core && decide (r.src < 288)) || d.home.resps.any fun r => r.src / 2 == core && decide (r.src < 288)

/-- The result of an atomic on an old value: the new value (R219). -/
def atomicNew (aop : Nat) (wide fp : Bool) (old sv sc : Nat) : Nat :=
  let w := if wide then 64 else 32
  let o := old % 2 ^ w
  let v := sv % 2 ^ w
  match aop with
  | 0 => if fp then fp32Add o v else (o + v) % 2 ^ w
  | 1 => if fp then fp32Min o v else if signed w v < signed w o then v else o
  | 2 => if fp then fp32Max o v else if signed w o < signed w v then v else o
  | 3 => min o v
  | 4 => max o v
  | 5 => v
  | 6 => if o = sc % 2 ^ w then v else o
  | _ => o

/-- A load's value in a 64-bit register: zero- or sign-extended (R214). -/
def extend (sx : Bool) (bs : List Byte) : Word :=
  if sx then BitVec.ofInt 64 (signed (8 * bs.length) (leNat bs)) else BitVec.ofNat 64 (leNat bs)

end Sys2Proof.Machine
end

