-- ==== Sys2Proof/Machine/Local.lean ====
section
/-! DEFINITION. Accesses to a core's own scratchpad: frame slots, latencies, checks and codewords (R108 to R113, R120, R123, R125, R290). -/

namespace Sys2Proof.Machine

/-- Distance class of an engine and a bank (R113, Table 2): engines 0 matrix, 1 vector, 2 scalar, 3 DMA and port. -/
def distance (engine bank : Nat) : Nat :=
  match engine, bank / 8 with
  | 0, g => g
  | 1, g => 3 - g
  | 2, 0 => 2
  | 2, 1 => 1
  | 2, 2 => 0
  | 2, _ => 1
  | _, 0 => 1
  | _, 3 => 1
  | _, _ => 0

/-- The greatest distance class over the banks of n bytes at a physical offset (R113). -/
def farthest (engine a n : Nat) : Nat :=
  ((List.range (ceilDiv (a % 128 + n) 128)).map fun i => distance engine ((a / 128 + i) % 32)).foldl max 0

/-- SCP_CYCLE of a core: the cycle of the bundle now issuing while a kernel runs, and the core cycles since core reset otherwise (R110, R131). -/
def Dev.cycleOf (d : Dev) (n : Nat) : Nat := if d.running n then (d.core n).cycle else max (d.core n).cycle d.nowCc

/-- Cycles from `cycle` to the next own frame-slot cycle (R110, R111). -/
def frameWait (engine cycle : Nat) : Nat :=
  let k := cycle % 8
  match engine with
  | 0 => if k < 4 then 0 else 8 - k
  | 1 => if k = 4 ∨ k = 5 then 0 else if k < 4 then 4 - k else 12 - k
  | 2 => 7 - k
  | _ => if k = 7 then 7 else 6 - k

/-- What a local access meets before it is performed: an ISA or scratchpad fault, or a physical offset. -/
inductive LocalChk where
  | isa (kind : Nat)
  | scp (kind : Nat)
  | ok (phys : Nat)
deriving DecidableEq, Repr

/-- The codewords in error that n bytes at a physical offset touch (R123). -/
def CoreSt.badIn (c : CoreSt) (a n : Nat) : List (Nat × Bool) := c.badCw.filter fun q => decide (a / 8 ≤ q.1) && decide (q.1 * 8 < a + n)

/-- Whether a store of n bytes writes codeword w only in part (R109). -/
def partly (a n w : Nat) : Bool := !(decide (a ≤ w * 8) && decide (w * 8 + 8 ≤ a + n))

/-- Whether the segments of n bytes at a physical offset are all usable (R125). -/
def Dev.segsReady (d : Dev) (core a n : Nat) : Bool :=
  let r := d.fld (F.SCP_PWR_SEG_READY core)
  (List.range 6).all fun k => bitOf r k || decide (a + n ≤ k * 0x100000) || decide ((k + 1) * 0x100000 ≤ a)

/-- Whether n bytes at a physical offset of a core are under zeroing (R290). -/
def Dev.zeroing (d : Dev) (core off n : Nat) : Bool :=
  d.str.rels.any fun r => r.zero.any fun z =>
    z.1 == core && decide (off < 4096 * (z.2.2.1 + z.2.2.2)) && decide (4096 * z.2.2.1 < off + n)

/-- Whether the accumulator buffers of a core, or of a half in split mode, are under zeroing (R288, R290). -/
def Dev.accZeroing (d : Dev) (core half : Nat) : Bool :=
  d.str.rels.any fun r => r.zero.any fun z => z.1 == core && (!(d.split core) || z.2.1 == half)

/-- Whether anything of a core is under zeroing, and the STATE a core that runs no kernel reads: 0 while it is (R131, R196, R290). -/
def Dev.coreZeroing (d : Dev) (core : Nat) : Bool :=
  d.str.rels.any fun r => r.zero.any (fun z => z.1 == core) || r.regs.any fun z => z.1 == core
def Dev.idleState (d : Dev) (core : Nat) : Nat := if d.bit (F.SCP_CORE_CTRL_CORE_EN core) && !(d.coreZeroing core) then 1 else 0

/-- Check a local access of n bytes aligned to `al`, a read or not (R120, R125, R185, R290). -/
def Dev.localChk (d : Dev) (core set a n al : Nat) (read : Bool) : LocalChk :=
  if a % al ≠ 0 then .isa 4
  else if 4096 * d.fld (ctxBound4k set core) < a + n then .scp 1
  else
    let p := 4096 * d.fld (ctxBase4k set core) + a
    if read && d.zeroing core p n then .isa 6
    else if d.segsReady core p n = false then .scp 3 else .ok p

/-- Where an access goes (R184, Table 3): a physical offset of the own scratchpad, a board address, or a fault. -/
inductive Place where
  | here (phys : Nat)
  | there (addr : Nat)
  | isa (kind : Nat)
  | scp (kind : Nat)
deriving DecidableEq, Repr

/-- Relocate and check an access of n bytes aligned to n, a read or not (R117, R120, R121, R185, R214, R290). -/
def Dev.place (d : Dev) (core set space a n : Nat) (read : Bool) : Place :=
  if a % n ≠ 0 then .isa 4
  else match space with
    | 0 => match d.localChk core set a n n read with
      | .isa k => .isa k
      | .scp k => .scp k
      | .ok p => .here p
    | 1 =>
      if d.fld (ctxHbmBound set core) * 65536 < a + n then .scp 2
      else .there (d.slotNo * 2 ^ 44 + d.fld (ctxHbmBase set core) * 65536 + a)
    | _ =>
      let own := d.slotNo * 2 ^ 44 + scpWin core
      if own ≤ a ∧ a + n ≤ own + 0x1000000 then
        (if scpBytes < a - own + n then .scp 4
         else if read && d.zeroing core (a - own) n then .isa 6
         else if d.segsReady core (a - own) n = false then .scp 3 else .here (a - own))
      else .there a

/-- A codeword with a single error is corrected, or one with a double error found (R123). -/
def Dev.eccCount (d : Dev) (core : Nat) (ue : Bool) : Dev :=
  if ue then (d.countErr (F.SCP_ECC_COUNT_UE core) (F.SCP_EVENT_COUNT_SAT core) core).raise (F.SCP_EVENT_UE core) core clsContained
  else (d.countErr (F.SCP_ECC_COUNT_CE core) (F.SCP_EVENT_COUNT_SAT core) core).raise (F.SCP_EVENT_CE core) core clsCorrected

/-- Count and report what a read of n bytes finds in its codewords; a single error awaits its write-back (R123). True when a double error was
read. -/
def Dev.eccRead (d : Dev) (core a n : Nat) : Dev × Bool :=
  ((d.core core).badIn a n).foldl (fun (r : Dev × Bool) q =>
    let d := r.1.eccCount core q.2
    if q.2 then (d, true)
    else (d.modCore core fun c => { c with fixing := c.fixing.filter (· ≠ q.1) ++ [q.1] }, r.2)) (d, false)

/-- Store bytes at a physical offset of a core's scratchpad. A codeword written whole loses its error; one written in part is read first, which
corrects its single error (R109, R123). -/
def Dev.scpWrite (d : Dev) (core a : Nat) (bs : List Byte) : Dev :=
  let d := d.wr (scpWin core + a) bs
  let hit := (d.core core).badIn a bs.length
  if hit.isEmpty then d
  else
    let d := hit.foldl (fun d q => if partly a bs.length q.1 then d.eccCount core q.2 else d) d
    d.modCore core fun c =>
      { c with badCw := c.badCw.filter fun q => !(hit.contains q) || (q.2 && partly a bs.length q.1),
               fixing := c.fixing.filter fun w => !(hit.contains (w, false)) }

/-- Read bytes at a physical offset of a core's scratchpad. -/
def Dev.scpRead (d : Dev) (core a n : Nat) : List Byte := d.rd (scpWin core + a) n

/-- Whether a store would be a narrower write into a codeword with a double error (R123). -/
def CoreSt.badStore (c : CoreSt) (a n : Nat) : Bool := (c.badIn a n).any fun q => q.2 && partly a n q.1

/-- The wait for an engine's own frame slot, or the slot fault of the debug option (R111). -/
def Dev.slotFaults (d : Dev) (n engine : Nat) : Bool :=
  d.bit (F.SCP_CORE_CTRL_SLOT_FAULT n) && decide (frameWait engine (d.core n).cycle ≠ 0)

end Sys2Proof.Machine
end

