-- ==== Sys2Proof/Machine/Home.lean ====
section
/-! DEFINITION. Accesses at their homes: HBM lines, scratchpad windows, the landing buffer and the keel command regions (R70, R117, R118,
R290, R295, R296, R303, R315, R319, R320, R324, R327). -/

namespace Sys2Proof.Machine

/-! ## HBM -/

/-- Interleave granularity of KEL_CTRL.ILV (R315). -/
def ilvBytes (k : Nat) : Nat :=
  match k with
  | 0 => 256
  | 1 => 4096
  | 2 => 65536
  | _ => 2097152

def Dev.ilv (d : Dev) : Nat := ilvBytes (d.fld F.KEL_CTRL_ILV)

/-- The stack of a device offset (R315). -/
def Dev.stackOf (d : Dev) (a : Nat) : Nat := a / d.ilv % 12

/-- Its offset within the stack (R315). -/
def Dev.stackOff (d : Dev) (a : Nat) : Nat := a / d.ilv / 12 * d.ilv + a % d.ilv

/-- The device offset of a stack offset: the inverse of R315. -/
def Dev.devOff (d : Dev) (k o : Nat) : Nat := (o / d.ilv * 12 + k) * d.ilv + o % d.ilv

/-- The DRAM place of a stack offset: pseudo-channel, bank and row (R316). -/
def dramPlace (o : Nat) : Nat × Nat × Nat :=
  let p := o / 8192 * 256 + o % 256
  (o / 256 % 32, p / 1024 % 64, p / 65536 % 16384)

/-- Whether a stack serves accesses (R324). -/
def Dev.stackReady (d : Dev) (k : Nat) : Bool :=
  let s := d.fld (F.KEL_STATUS_STATE k)
  s == 2 || s == 3 || s == 4

/-- An error of a line is counted, raised and recorded (R319). -/
def Dev.eccHbm (d : Dev) (k line : Nat) (ue : Bool) : Dev :=
  let d := d.setFld (F.KEL_ECC_ADDR_SEV k) (if ue then 2 else 1)
  let d := d.setFld (F.KEL_ECC_ADDR_ADDR k) (64 * line)
  if ue then (d.countErr (F.KEL_ECC_COUNT_UE k) (F.KEL_EVENT_COUNT_SAT k) k).raise (F.KEL_EVENT_UE k) k clsContained
  else (d.countErr (F.KEL_ECC_COUNT_CE k) (F.KEL_EVENT_COUNT_SAT k) k).raise (F.KEL_EVENT_CE k) k clsCorrected

/-- The bursts of a line that are in error (R319). -/
def Dev.lineErrs (d : Dev) (line : Nat) : List (Nat × Bool) := d.keel.bad.filter fun q => q.1 / 2 == line

/-- A line loses its errors when it is written whole (R319). -/
def Dev.cleanLine (d : Dev) (line : Nat) : Dev := { d with keel := { d.keel with bad := d.keel.bad.filter fun q => q.1 / 2 ≠ line } }

/-- A transfer between a stack and its DRAM: a parity error is retried once, and a second failure counts as uncorrectable (R314, Table 1). -/
def Dev.linkOk (d : Dev) (k : Nat) : Dev × Bool :=
  let b := Store.get (fun _ => 0) d.keel.linkBad k
  if b = 0 then (d, true)
  else ({ d with keel := { d.keel with linkBad := Store.put (fun _ => 0) d.keel.linkBad k (b - 2) } }, decide (b < 2))

/-- Read the bursts of a line: each error is counted and reported (R319). -/
def Dev.burstsOk (d : Dev) (k line : Nat) : Dev × Bool :=
  let bad := d.lineErrs line
  (bad.foldl (fun d q => d.eccHbm k line q.2) d, bad.all fun q => !q.2)

/-- Touch one line at its home: false when the stack is not ready, or the line's burst is uncorrectable and its contents are needed (R319,
R320, R324). A line that the atomic unit holds is served there (R325). -/
def Dev.hbmTouch (d : Dev) (line : Nat) (needs : Bool) : Dev × Bool :=
  let k := d.stackOf (64 * line)
  if d.stackReady k = false then (d.raise (F.KEL_EVENT_NOT_READY k) k clsContained, false)
  else if d.keel.atoms.contains line then (d, true)
  else
    match ((d.count (F.KEL_BYTES_BYTES k) 64).monitor 11 k 64).linkOk k with
    | (d, false) => (d.eccHbm k line true, false)
    | (d, true) => if needs then d.burstsOk k line else (d, true)

/-- Bring a line that has been read into the atomic unit of its stack, which holds 512; the one held longest is written back for it (R325,
log 165). -/
def Dev.holdLine (d : Dev) (line : Nat) : Dev :=
  if d.keel.atoms.contains line then d
  else
    let k := d.stackOf (64 * line)
    let mine := d.keel.atoms.filter fun l => d.stackOf (64 * l) == k
    let d := match mine[511]? with
      | none => d
      | some l =>
        let d := ((d.count (F.KEL_BYTES_BYTES k) 64).monitor 11 k 64).cleanLine l
        { d with keel := { d.keel with atoms := d.keel.atoms.filter (· ≠ l) } }
    { d with keel := { d.keel with atoms := line :: d.keel.atoms } }

/-- The lines of n bytes at a device offset. -/
def linesOf (a n : Nat) : List Nat := (List.range (ceilDiv (a % 64 + n) 64)).map (a / 64 + ·)

/-- Read n bytes of HBM: none when any line answers with an error. -/
def Dev.hbmRead (d : Dev) (a n : Nat) : Dev × Option (List Byte) :=
  let (d, ok) := (linesOf a n).foldl (fun (r : Dev × Bool) l => let (d, k) := r.1.hbmTouch l true; (d, r.2 && k)) (d, true)
  (d, if ok then some (d.rd a n) else none)

/-- Write bytes to HBM line by line, stopping at a line that refuses. A whole line clears its error (R319). -/
def Dev.hbmWrite (d : Dev) (a : Nat) (bs : List Byte) : Dev × Bool :=
  (linesOf a bs.length).foldl (fun (r : Dev × Bool) l =>
    if r.2 = false then r
    else
      let lo := max a (64 * l)
      let hi := min (a + bs.length) (64 * l + 64)
      let (d, ok) := r.1.hbmTouch l (hi - lo != 64)
      if ok = false then (d, false)
      else
        let d := d.wr lo ((bs.drop (lo - a)).take (hi - lo))
        (if hi - lo = 64 then d.cleanLine l else d, true)) (d, true)

/-- An atomic at its line in HBM: one line read unless the line is held, and the new bytes put into the line held (R325). -/
def Dev.hbmAtomic (d : Dev) (a n : Nat) (g : List Byte → List Byte) : Dev × Option (List Byte) :=
  match d.hbmTouch (a / 64) true with
  | (d, false) => (d, none)
  | (d, true) => ((d.holdLine (a / 64)).wr a (g (d.rd a n)), some (d.rd a n))

/-- Bytes added to HBM words in place: each line is read and written back (R91). -/
def Dev.hbmAdd (d : Dev) (a n : Nat) (g : List Byte → List Byte) : Dev × Option (List Byte) :=
  match d.hbmRead a n with
  | (d, none) => (d, none)
  | (d, some old) =>
    let (d, ok) := (linesOf a n).foldl (fun (r : Dev × Bool) l => let (d, k) := r.1.hbmTouch l false; (d, r.2 && k)) (d, true)
    if ok then (d.wr a (g old), some old) else (d, none)

/-- Whether n bytes at an offset lie partly in a given stack (R315). -/
def Dev.onStack (d : Dev) (k a n : Nat) : Bool :=
  if n = 0 then false
  else
    let q := a / d.ilv
    let m := (a + n - 1) / d.ilv - q
    decide (11 ≤ m) || (List.range (m + 1)).any fun i => (q + i) % 12 == k

/-- Whether an access to n bytes of HBM must wait for a stack that is being repaired (R322). -/
def Dev.repairing (d : Dev) (a n : Nat) : Bool :=
  (List.range 12).any fun k => d.fld (F.KEL_STATUS_STATE k) == 4 && d.onStack k a n

/-! ## Scratchpad windows -/

/-- The banks that the local DMA engine uses in a slot 6 cycle: those of the up to 16 words that a copy reads in one and writes in the next (R114,
R236). -/
def CoreSt.dmaBanks (c : CoreSt) (t : Nat) : List Nat :=
  c.copies.flatMap fun q =>
    let j := (t - q.start) / 16
    let base := if (t - q.start) % 16 = 0 then q.src else q.dst
    if t < q.start then [] else (List.range (min 16 (q.words - 16 * j))).map fun i => (base / 128 + 16 * j + i) % 32

/-- Whether an access to a scratchpad window finds a bank taken in the core's next slot 6 cycle (R114). -/
def Dev.portBusy (d : Dev) (a n : Nat) : Bool :=
  let core := (a - scpBase) / 0x1000000
  let off := (a - scpBase) % 0x1000000
  let t := d.cycleOf core
  let taken := (d.core core).dmaBanks (t + frameWait 3 t)
  (List.range (ceilDiv (off % 128 + n) 128)).any fun i => taken.contains ((off / 128 + i) % 32)

/-- A refusal at a core's network port: SCP_FAULT with ENGINE 4, and its event bits (R117, R118, R123, R125, R131). -/
def Dev.portFault (d : Dev) (n set kind off : Nat) : Dev :=
  let d := d.setFld (F.SCP_FAULT_KIND n) kind
  let d := d.setFld (F.SCP_FAULT_ENGINE n) 4
  let d := d.setFld (F.SCP_FAULT_SET n) set
  let d := d.setFld (F.SCP_FAULT_ADDR n) off
  let d := d.raise (F.SCP_EVENT_FAULT n) n clsContained
  match kind with
  | 3 => d.raise (F.SCP_EVENT_SEG n) n clsContained
  | 4 => d.raise (F.SCP_EVENT_HOLE n) n clsContained
  | 5 => d.raise (F.SCP_EVENT_FOREIGN n) n clsContained
  | _ => d

/-- Whether a tag passes a core's network port, and the set that admits it (R118). -/
def Dev.portSet (d : Dev) (n tag : Nat) : Option Nat :=
  if d.bit (ctxValid 0 n) && d.fld (ctxJob 0 n) == tag then some 0
  else if d.bit (ctxValid 1 n) && d.fld (ctxJob 1 n) == tag then some 1
  else if tag = 0xFFFF then some 0 else none

/-- What a network-port access meets: a KIND, or none when it is performed. An access both in the hole and of a foreign tag meets the hole (log
164). KIND 0 stands for the refusal of a read under zeroing (R290), which SCP_FAULT does not code. -/
def Dev.portCheck (d : Dev) (core tag off n : Nat) (read : Bool) : Option (Nat × Nat) :=
  if scpBytes < off + n then some (4, 0)
  else match d.portSet core tag with
    | none => some (5, 0)
    | some set =>
      if d.segsReady core off n = false then some (3, set)
      else if read && d.zeroing core off n then some (0, set) else none

/-- Read a scratchpad window through the core's network port (R114, R116). -/
def Dev.winRead (d : Dev) (core tag off n : Nat) : Dev × Option (List Byte) :=
  match d.portCheck core tag off n true with
  | some (0, _) => (d, none)
  | some (k, set) => (d.portFault core set k off, none)
  | none =>
    let (d, ue) := d.eccRead core off n
    if ue then (d.portFault core ((d.portSet core tag).getD 0) 6 off, none) else (d, some (d.scpRead core off n))

/-- Write a scratchpad window through the core's network port; a narrower write into a double error is not performed (R123). Zeroing refuses
reads only (R290). -/
def Dev.winWrite (d : Dev) (core tag off : Nat) (bs : List Byte) : Dev × Bool :=
  match d.portCheck core tag off bs.length false with
  | some (k, set) => (d.portFault core set k off, false)
  | none =>
    if (d.core core).badStore off bs.length then (((d.eccRead core off bs.length).1).portFault core ((d.portSet core tag).getD 0) 6 off, false)
    else (d.scpWrite core off bs, true)

/-! ## Landing buffer -/

/-- Whether a landing slot belongs to a direction in use: an enabled direction of the carousel, or any in relay mode (R67, R70, R103). -/
def Dev.slotActive (d : Dev) (k : Nat) : Bool :=
  d.bit F.TTH_CTRL_ENABLE && (d.bit F.TTH_CTRL_MODE || (if k < 3 then d.bit F.TTH_CTRL_CW_EN else d.bit F.TTH_CTRL_CCW_EN))

/-- Software and DMA writes reach only slots not in use; discarded bytes raise SLOT_WRITE (R70). -/
def Dev.landWrite (d : Dev) (a : Nat) (bs : List Byte) : Dev :=
  let hit := (List.range 6).filter fun k => d.slotActive k && decide (landSlot k < a + bs.length) && decide (a < landSlot (k + 1))
  match hit with
  | [] => d.wr a bs
  | k :: _ =>
    let d := bs.zipIdx.foldl (fun d p => if d.slotActive ((a + p.2 - landBase) / 0x2000000) then d else d.setMb (a + p.2) p.1) d
    d.raise F.TTH_EVENT_SLOT_WRITE k clsInfo

/-- Whether the landing slots are under zeroing by a KILL (R289, R290). -/
def Dev.landZeroing (d : Dev) : Bool := d.str.kills.any (·.2)

/-! ## Keel command regions (R327, R331) -/

/-- A field of a command. -/
def kNat (bs : List Byte) (at_ n : Nat) : Nat := leNat ((bs.drop at_).take n)

/-- Fields of Table 4. -/
def KCmd.op (c : KCmd) : Nat := kNat c.bytes 0 1
def KCmd.stack (c : KCmd) : Nat := kNat c.bytes 1 1
def KCmd.flags (c : KCmd) : Nat := kNat c.bytes 2 1
def KCmd.fmt (c : KCmd) : Nat := kNat c.bytes 3 1 % 16
def KCmd.sub (c : KCmd) : Nat := kNat c.bytes 3 1 / 16
def KCmd.count (c : KCmd) : Nat := kNat c.bytes 4 4
def KCmd.arg (c : KCmd) (i : Nat) : Nat := kNat c.bytes (8 + 8 * i) 8
def KCmd.doneAddr (c : KCmd) : Nat := kNat c.bytes 48 8
def KCmd.dlTicks (c : KCmd) : Nat := kNat c.bytes 56 2
def KCmd.aux (c : KCmd) : Nat := kNat c.bytes 58 4

/-- HBM ranges a command names, for the checks of R331: base and length; GATHER's destination may be in scratchpad. -/
def Dev.kRanges (d : Dev) (c : KCmd) : List (Nat × Nat) :=
  let n := c.count
  match c.op with
  | 0x01 => [(c.arg 0, n)]
  | 0x02 => [(c.arg 0, n), (c.arg 1, n)]
  | 0x03 =>
    let e := if c.fmt = 9 then 4 else 2
    (c.arg 0, 4 * n) :: (List.range c.aux).map fun i => (c.arg 1 + i * c.arg 2, e * n)
  | 0x04 => [(c.arg 0, c.arg 3 * c.aux), (c.arg 1, 4 * n)] ++ (if scpBase ≤ c.arg 2 then [] else [(c.arg 2, n * c.aux)])
  | 0x05 => [(c.arg 0, c.arg 3 * c.aux), (c.arg 1, 4 * n), (c.arg 2, n * c.aux)]
  | 0x06 => [(c.arg 0, n), (c.arg 1, 1024)]
  | 0x10 =>
    let out := d.rdNat (c.arg 4 + 32) 8
    [(c.arg 0, 4 * n), (c.arg 3, 4 * n), (c.arg 4, 64)] ++ (if c.arg 1 = 0 then [] else [(c.arg 1, 4 * n)]) ++
      (if c.arg 2 = 0 then [] else [(c.arg 2, 4 * n)]) ++ (if out = 0 then [] else [(out, n * (if c.fmt = 7 ∨ c.fmt = 8 then 2 else 1))])
  | 0x20 => [(c.arg 0, n), (c.arg 1, 8 * c.arg 2)]
  | _ => []

/-- The range of DONE, where it lies in this device's HBM (R331). -/
def Dev.kDoneRange (d : Dev) (c : KCmd) : List (Nat × Nat) :=
  if c.doneAddr ≠ 0 ∧ c.doneAddr / 2 ^ 44 = d.slotNo ∧ c.doneAddr % 2 ^ 44 < hbmSize then [(c.doneAddr % 2 ^ 44, 8)] else []

/-- Reserved encodings of a command (R327 to R330). -/
def KCmd.reserved (c : KCmd) : Bool :=
  let ok :=
    match c.op with
    | 0x01 => c.count % 64 == 0 && c.arg 2 == 0 && c.arg 3 == 0 && c.arg 4 == 0 && c.sub == 0 && c.fmt == 0 && c.aux == 0
    | 0x02 => c.count % 64 == 0 && c.arg 2 == 0 && c.arg 3 == 0 && c.arg 4 == 0 && c.sub == 0 && c.fmt == 0 && c.aux == 0
    | 0x03 => decide (1 ≤ c.aux ∧ c.aux ≤ 64) && (c.fmt == 7 || c.fmt == 8 || c.fmt == 9) && decide (c.sub ≤ 2) && c.arg 3 == 0 && c.arg 4 == 0
    | 0x04 => c.aux % 64 == 0 && decide (64 ≤ c.aux ∧ c.aux ≤ 65536) && c.arg 4 == 0 && c.sub == 0 && c.fmt == 0
    | 0x05 => c.aux % 64 == 0 && decide (64 ≤ c.aux ∧ c.aux ≤ 65536) && c.arg 4 == 0 && c.sub == 0 && c.fmt == 0
    | 0x06 => c.arg 1 % 64 == 0 && c.arg 2 == 0 && c.arg 3 == 0 && c.arg 4 == 0 && c.sub == 0 && c.fmt == 0 && c.aux == 0
    | 0x10 =>
      c.count % 16 == 0 && (c.fmt == 0 || c.fmt == 1 || c.fmt == 7 || c.fmt == 8) && c.aux == 0 &&
        (match c.sub with
        | 0 => c.arg 2 == 0
        | 1 => c.arg 1 != 0 && c.arg 2 != 0
        | 2 => c.arg 1 != 0 && c.arg 2 == 0
        | _ => false)
    | 0x20 => c.count % 0x100000 == 0 && c.arg 3 == 0 && c.arg 4 == 0 && decide (c.aux ≤ 2) && c.sub == 0 && c.fmt == 0
    | 0x21 => decide (c.stack < 12) && decide (c.aux / 2 ^ 25 % 64 = 0) && c.count == 0 && c.sub == 0 && c.fmt == 0 &&
        c.arg 0 == 0 && c.arg 1 == 0 && c.arg 2 == 0 && c.arg 3 == 0 && c.arg 4 == 0
    | _ => false
  !ok || kNat c.bytes 63 1 != 1 || kNat c.bytes 62 1 != 0 || !(decide (c.stack < 12) || c.stack == 15) || decide (8 ≤ c.flags) ||
    (c.op != 0x10 && c.flags / 2 % 4 != 0) || c.doneAddr % 8 != 0 || (c.flags % 2 == 0 && c.dlTicks != 0)

/-- Whether a range lies in a KEL_JRn entry of the job (R331). -/
def Dev.inJobRange (d : Dev) (job : Nat) (r : Nat × Nat) : Bool :=
  (List.range 16).any fun i =>
    d.bit (F.KEL_JR_VALID i) && d.fld (F.KEL_JR_JOB i) == job && decide (d.fld (F.KEL_JR_FIRST_GIB i) * 2 ^ 30 ≤ r.1) &&
      decide (r.1 + r.2 ≤ (d.fld (F.KEL_JR_LAST_GIB i) + 1) * 2 ^ 30)

/-- The code a command is refused with at submission to stack k (R331, Table 7); 0 for none. -/
def Dev.kRefusal (d : Dev) (k : Nat) (c : KCmd) : Nat :=
  let rs := d.kRanges c ++ d.kDoneRange c
  if c.reserved then 1
  else if (c.op == 0x20 || c.op == 0x21) && c.tag != 0xFFFF then 3
  else if rs.any (fun r => decide (hbmSize < r.1 + r.2)) ||
      (c.op == 0x04 && decide (scpBase ≤ c.arg 2) && decide (scpBase + 0x90000000 < c.arg 2 + c.count * c.aux)) ||
      (c.doneAddr != 0 && decide (2 ^ 48 ≤ c.doneAddr)) ||
      (c.tag != 0xFFFF && rs.any (fun r => !(d.inJobRange c.tag r))) then 2
  else if d.stackReady k = false then 8 else 0

/-- KEL_CMD_ERR and its event (R331, R337). -/
def Dev.kErr (d : Dev) (k code : Nat) (c : KCmd) : Dev :=
  let d := d.setFld (F.KEL_CMD_ERR_CODE k) code
  let d := d.setFld (F.KEL_CMD_ERR_OP k) c.op
  let d := d.setFld (F.KEL_CMD_ERR_JOB k) c.tag
  let d := d.setFld (F.KEL_CMD_ERR_LINES k) c.lines
  d.raise (F.KEL_EVENT_CMD_ERR k) k clsContained

/-- HBM ranges a command writes (Table 5): those a staging read waits for (R18). -/
def Dev.kWrites (d : Dev) (c : KCmd) : List (Nat × Nat) :=
  let n := c.count
  match c.op with
  | 0x01 => [(c.arg 0, n)]
  | 0x02 => [(c.arg 0, n)]
  | 0x03 => [(c.arg 0, 4 * n)]
  | 0x04 => [(c.arg 2, n * c.aux)]
  | 0x05 => [(c.arg 0, c.arg 3 * c.aux)]
  | 0x06 => [(c.arg 1, 1024)]
  | 0x10 =>
    let out := d.rdNat (c.arg 4 + 32) 8
    [(c.arg 0, 4 * n), (c.arg 1, if c.arg 1 = 0 then 0 else 4 * n), (c.arg 2, if c.arg 2 = 0 then 0 else 4 * n),
     (c.arg 3, if bitOf c.flags 1 then 4 * n else 0), (out, if out = 0 then 0 else n * (if c.fmt = 7 ∨ c.fmt = 8 then 2 else 1))]
  | 0x20 => [(c.arg 0, n), (c.arg 1, 8 * c.arg 2)]
  | _ => []

/-- A stack's queue, its first command running; KEL_STATUS shows its length, the running opcode and the states of MTEST and REPAIR. -/
def Dev.kQueue (d : Dev) (k : Nat) : List KCmd := Store.get (fun _ => []) d.keel.queues k
def Dev.setKQueue (d : Dev) (k : Nat) (q : List KCmd) : Dev :=
  let d := { d with keel := { d.keel with queues := Store.put (fun _ => []) d.keel.queues k q } }
  let op := (q.head?.map KCmd.op).getD 0
  let st := d.fld (F.KEL_STATUS_STATE k)
  let d := (d.setFld (F.KEL_STATUS_QUEUE k) q.length).setFld (F.KEL_STATUS_OP k) op
  if st = 2 ∨ st = 3 ∨ st = 4 then d.setFld (F.KEL_STATUS_STATE k) (if op = 0x20 then 3 else if op = 0x21 then 4 else 2) else d

/-- The add a stack's part makes to DONE (R334), as a request of the keel engine. -/
def Dev.kDone (d : Dev) (k : Nat) (c : KCmd) : Dev :=
  if c.doneAddr = 0 ∨ c.code = 9 then d
  else d.issue { Req.of (2000 + k) c.tag c.doneAddr (.atomic 0 true false (if c.code = 0 then 1 else 1 + 2 ^ 32) 0) with rel := true }

/-- One stack receives a command: refused, or queued (R327, R331). A stack that is not ready ends its part at once (R324). -/
def Dev.kSubmit1 (d : Dev) (k : Nat) (c : KCmd) : Dev :=
  match d.kRefusal k c with
  | 0 => d.setKQueue k (d.kQueue k ++ [c])
  | 8 =>
    let c := { c with code := 8 }
    ((d.kErr k 8 c).raise (F.KEL_EVENT_NOT_READY k) k clsContained).kDone k c
  | code => d.kErr k code { c with code := code }

/-- The stacks a command goes to: its STACK, all twelve for 15, or the receiving region's for a reserved one. -/
def KCmd.stacks (c : KCmd) (region : Nat) : List Nat :=
  if c.stack = 15 then List.range 12 else if c.stack < 12 then [c.stack] else [region]

/-- Submit a command's 64 bytes in stack `region`'s command region (R327). -/
def Dev.kSubmit (d : Dev) (region tag : Nat) (bs : List Byte) : Dev :=
  let c : KCmd := ⟨bs, tag, d.fld F.TCK_NUMBER_NUMBER, false, 0, 0, none⟩
  (c.stacks region).foldl (fun d k => d.kSubmit1 k c) d

/-- Whether a submitting write must wait for a queue entry (R327). -/
def Dev.kFull (d : Dev) (region : Nat) (bs : List Byte) : Bool :=
  (KCmd.stacks ⟨bs, 0, 0, false, 0, 0, none⟩ region).any fun k => decide (256 ≤ (d.kQueue k).length)

/-- A write to a keel command region at an offset from its base (R327): lines store in place; covering byte 63 submits; the word at 0x4_0000
submits the command stored at the HBM offset written. False where the region maps nothing. -/
def Dev.keelWrite (d : Dev) (tag a : Nat) (bs : List Byte) : Dev × Bool :=
  let k := (a - keelBase) / 0x1000000
  let o := (a - keelBase) % 0x1000000
  if o + bs.length ≤ 0x40000 then
    let d := d.wr a bs
    ((linesOf a bs.length).foldl (fun d l => if 64 * l + 63 < a + bs.length then d.kSubmit k tag (d.rd (64 * l) 64) else d) d, true)
  else if o = 0x40000 ∧ bs.length = 8 then
    let src := leNat bs
    if src % 64 ≠ 0 ∨ hbmSize < src + 64 then (d.kErr k 2 ⟨[], tag, 0, false, 2, 0, none⟩, true)
    else match d.hbmRead src 64 with
      | (d, some c) => (d.kSubmit k tag c, true)
      | (d, none) => (d, false)
  else (d, false)

/-- The commands a write submits: the lines it completes as they then stand, or the command its word names (R327). -/
def Dev.keelSubmits (d : Dev) (a : Nat) (bs : List Byte) : List (List Byte) :=
  let o := (a - keelBase) % 0x1000000
  if o = 0x40000 ∧ bs.length = 8 then [d.rd (leNat bs) 64]
  else if o + bs.length ≤ 0x40000 then
    ((linesOf a bs.length).filter fun l => decide (64 * l + 63 < a + bs.length)).map fun l =>
      (d.rd (64 * l) (a - 64 * l) ++ (bs.drop (64 * l - a)).take 64).take 64
  else []

/-- Whether a write to a keel command region must wait for a queue entry (R327), or for the stack that holds the command it names (R322). -/
def Dev.keelWaits (d : Dev) (a : Nat) (bs : List Byte) : Bool :=
  let region := (a - keelBase) / 0x1000000
  let cs := d.keelSubmits a bs
  ((a - keelBase) % 0x1000000 == 0x40000 && d.repairing (leNat bs) 64) || (List.range 12).any fun k =>
    let n := (cs.filter fun c => (KCmd.stacks ⟨c, 0, 0, false, 0, 0, none⟩ region).contains k).length
    n != 0 && decide (256 < (d.kQueue k).length + n)

/-- Whether a read, or a write, at a device offset must wait at its home: for the repair of a stack (R322), for a bank that the local DMA engine uses
(R114) or for room in a queue (R327). -/
def Dev.readWaits (d : Dev) (a n : Nat) : Bool :=
  match regionOf a n with
  | .hbm => d.repairing a n
  | .scratch => d.portBusy a n
  | _ => false
def Dev.writeWaits (d : Dev) (a : Nat) (bs : List Byte) : Bool :=
  match regionOf a bs.length with
  | .hbm => d.repairing a bs.length
  | .scratch => d.portBusy a bs.length
  | .keel => d.keelWaits a bs
  | _ => false

/-! ## Register writes -/

/-- A write that carries a reserved value is discarded; the device records which register (R4, R456). -/
def Dev.rsvWrite (d : Dev) (off : Nat) : Dev :=
  (d.setFld F.DEV_RSV_ADDR_ADDR (regBase + off)).raise F.DEV_EVENT_RESERVED_WRITE 0 clsInfo

/-- A write to a register that a rule may lock: it is discarded while locked, which its event records, and when it carries a reserved value (R4). -/
def Dev.guarded (d : Dev) (lock rsv : Bool) (ev : Fld) (off : Nat) (g : Dev → Dev) : Dev :=
  let d' := if rsv then d.rsvWrite off else d
  if lock then d'.raise ev 0 clsInfo else if rsv then d' else g d

/-- Register space admits the firmware tag; any other request is refused with CAUSE 1 (R296). -/
def Dev.fw (d : Dev) (tag off : Nat) (g : Dev → Dev) : Dev :=
  if tag = 0xFFFF then g d else d.ownFault 1 (regBase + off) F.DEV_WIN_EVENT_UNMAPPED

/-! ## Any home in memory -/

/-- An access to something Table 1 does not map, or does not admit (R296): the record names the peer that asked, or this device. -/
def Dev.refuse (d : Dev) (a : Nat) (peer : Option (Nat × Nat) := none) : Dev :=
  match peer with
  | none => d.ownFault 1 a F.DEV_WIN_EVENT_UNMAPPED
  | some (x, y) => d.winFault 1 a x y F.DEV_WIN_EVENT_UNMAPPED

/-- Read n bytes at a device offset on behalf of a tag; none when an error is returned. A landing slot that is not FULL shows what the last command that
wrote it left there (log 176). Register space and apertures are not memory: an access of this kind to them is refused. `peer` is the device that asks,
none for this one. -/
def Dev.memRead (d : Dev) (tag a n : Nat) (peer : Option (Nat × Nat) := none) : Dev × Option (List Byte) :=
  match regionOf a n with
  | .hbm => d.hbmRead a n
  | .scratch => d.winRead ((a - scpBase) / 0x1000000) tag ((a - scpBase) % 0x1000000) n
  | .landing => if d.landZeroing then (d, none) else (d, some (d.rd a n))
  | .keel => if (a - keelBase) % 0x1000000 + n ≤ 0x40000 then (d, some (d.rd a n)) else (d.refuse a peer, none)
  | _ => (d.refuse a peer, none)

/-- Write bytes at a device offset on behalf of a tag; false when an error is returned. -/
def Dev.memWrite (d : Dev) (tag a : Nat) (bs : List Byte) (peer : Option (Nat × Nat) := none) : Dev × Bool :=
  match regionOf a bs.length with
  | .hbm => d.hbmWrite a bs
  | .scratch => d.winWrite ((a - scpBase) / 0x1000000) tag ((a - scpBase) % 0x1000000) bs
  | .landing => (d.landWrite a bs, true)
  | .keel => match d.keelWrite tag a bs with
    | (d, true) => (d, true)
    | (d, false) => (d.refuse a peer, false)
  | _ => (d.refuse a peer, false)

/-- FP32 words added to the FP32 words at the same place, each rounded to nearest even. -/
def addWords : Nat → List Byte → List Byte → List Byte
  | 0, _, _ => []
  | n + 1, a, b => leBytes 4 (fp32Add (leNat (a.take 4)) (leNat (b.take 4))) ++ addWords n (a.drop 4) (b.drop 4)

/-- Bytes at a home other than HBM read, changed and written as one. -/
def Dev.memChange (d : Dev) (tag a n : Nat) (g : List Byte → List Byte) (peer : Option (Nat × Nat) := none) : Dev × Option (List Byte) :=
  match d.memRead tag a n peer with
  | (d, none) => (d, none)
  | (d, some old) => match d.memWrite tag a (g old) peer with
    | (d, true) => (d, some old)
    | (d, false) => (d, none)

/-- Perform one load, store or atomic at its home in memory; the old bytes or an error (R304, R307, R325). -/
def Dev.memOp (d : Dev) (tag a : Nat) (op : ReqOp) (peer : Option (Nat × Nat) := none) : Dev × Option (List Byte) :=
  match op with
  | .load n _ => d.memRead tag a n peer
  | .store bs => match d.memWrite tag a bs peer with
    | (d, true) => (d, some [])
    | (d, false) => (d, none)
  | .atomic aop wide fp sv sc =>
    let k := if wide then 8 else 4
    let g := fun old => leBytes k (atomicNew aop wide fp (leNat old) sv sc)
    if regionOf a k = .hbm then d.hbmAtomic a k g else d.memChange tag a k g peer
  | .addF32 bs =>
    let g := fun old => addWords (bs.length / 4) old bs
    if regionOf a bs.length = .hbm then d.hbmAdd a bs.length g else d.memChange tag a bs.length g peer

end Sys2Proof.Machine
end

