-- ==== Sys2Proof/Machine/RegOps.lean ====
section
/-! DEFINITION. Register writes without behaviour of their own: the register an offset names, and the access codes of its fields
(R4, R7, R8, R449). -/

namespace Sys2Proof.Machine

/-- The instance that a select register shows at a windowed offset. -/
def Dev.shown (d : Dev) (vis : Nat) : Nat :=
  if vis = 0x20020 then d.fld F.LNK_ROUTE_SEL_INDEX
  else if vis = 0x30030 then 16 * d.fld F.CDC_SLOT_SEL_CTX + d.fld F.CDC_SLOT_SEL_SLOT
  else if vis = 0x70018 then d.fld F.STR_CTX_SEL_CTX
  else if vis = 0x80048 ∨ vis = 0x80080 then d.fld F.ETH_MR_SEL_INDEX
  else if vis = 0x90040 then d.fld F.SEC_GIB_SEL_GIB
  else if vis = 0xA0030 then d.fld F.GND_COMP_SEL_COMP
  else 0

/-- The key of the register a row of the map puts at an offset. -/
def RegRow.keyAt (r : RegRow) (d : Dev) (off : Nat) : Option Nat :=
  if r.one then (if off = r.vis then some (r.base + r.stride * d.shown r.vis) else none)
  else if isInst off r.vis r.stride r.count then some off else none

/-- The row and key of the register at an offset of the register space, none where nothing is assigned (R449). -/
def Dev.regAt (d : Dev) (off : Nat) : Option (RegRow × Nat) :=
  (rowsOfBlock (off / 0x10000)).findSome? fun r => (r.keyAt d off).map fun k => (r, k)

/-- The word a register holds after a write under its fields' access codes: RW fields are replaced, W1C bits written 1 clear, all others stay
(R7, R8). -/
def RegRow.next (r : RegRow) (old v : Word) : Word :=
  let rw := BitVec.ofNat 64 r.rw
  ((old &&& ~~~rw) ||| (v &&& rw)) &&& ~~~(v &&& BitVec.ofNat 64 r.w1c)

/-- A write without behaviour of its own. A counter that software writes may raise its COUNT_SAT again (R445). -/
def Dev.plain (d : Dev) (off v : Nat) : Dev :=
  match d.regAt off with
  | none => d.refuse (regBase + off)
  | some (r, k) =>
    let d := d.setReg k (r.next (d.reg k) (BitVec.ofNat 64 v))
    { d with tel := { d.tel with satSpent := d.tel.satSpent.filter fun p => p.1 ≠ k } }

/-- The value a write would give a field: that field of the written word. -/
def Fld.ofNat (f : Fld) (v : Nat) : Nat := v / 2 ^ f.lo % 2 ^ (f.hi + 1 - f.lo)

end Sys2Proof.Machine
end

