-- ==== Sys2Proof/Machine/Crc.lean ====
section
/-! DEFINITION. The checks of the manual's records: CRC-32C of headers, blocks and trailers (R242), and the CRC-32 of a frame (R342). -/

namespace Sys2Proof.Machine

/-- One bit step of a reflected 32-bit CRC with the reversed polynomial `poly`. -/
def crcBit (poly st : Nat) : Nat := if st % 2 = 1 then (st / 2) ^^^ poly else st / 2

/-- One byte of a reflected CRC. -/
def crcByte (poly st b : Nat) : Nat :=
  crcBit poly (crcBit poly (crcBit poly (crcBit poly (crcBit poly (crcBit poly (crcBit poly (crcBit poly (st ^^^ b))))))))

/-- A reflected CRC over bytes, starting at all ones and inverted at the end. -/
def crcOf (poly : Nat) (bs : List Byte) : Nat := (bs.foldl (fun st b => crcByte poly st b.toNat) 0xFFFFFFFF) ^^^ 0xFFFFFFFF

/-- CRC-32C (R242). -/
def crc32c (bs : List Byte) : Nat := crcOf 0x82F63B78 bs

/-- The CRC-32 of IEEE 802.3 (R342). -/
def crc32 (bs : List Byte) : Nat := crcOf 0xEDB88320 bs

end Sys2Proof.Machine
end

