-- ==== Sys2Proof/Machine/Faults.lean ====
section
/-! DEFINITION. Contained faults of a core's contexts: records, fences, and how a kernel ends at one (R153, R156, R201 to R203, R291). -/

namespace Sys2Proof.Machine

/-! ## Records -/

/-- The bytes of a fault record (R202, Table 8). -/
def faultBytes (f : FaultRec) (ctx job : Nat) : List Byte :=
  let head := leBytes 2 0x0100 ++ leBytes 1 f.source ++ leBytes 1 f.kind ++ leBytes 2 f.bundle ++ leBytes 1 f.slot
    ++ leBytes 1 (b2n f.multi + 2 * b2n f.async + 4 * b2n f.split + 8 * b2n f.half)
    ++ leBytes 8 f.addr ++ leBytes 8 f.tick ++ leBytes 8 f.cycle ++ leBytes 2 ctx ++ leBytes 2 job ++ zeros 24
  head ++ leBytes 4 (crc32c head)

/-- The fault a set holds. -/
def CoreSt.fault (c : CoreSt) (set : Nat) : Option FaultRec := (c.faults.find? (·.1 == set)).map (·.2)

/-- Keep a set's fault. -/
def CoreSt.setFault (c : CoreSt) (set : Nat) (f : FaultRec) : CoreSt :=
  { c with faults := (set, f) :: c.faults.filter (·.1 ≠ set) }

/-- Of two faults of one cycle the earliest slot's is kept and MULTI is set (R202); a fault of an earlier cycle stays. -/
def joinFault (old : Option FaultRec) (f : FaultRec) : FaultRec :=
  match old with
  | none => f
  | some g =>
    if g.cycle = f.cycle then (if f.slot < g.slot then { f with multi := true } else { g with multi := true }) else g

/-- A fault waits for firmware, which reads of it in no event record (R202, R203). -/
def Dev.report (d : Dev) (n set job : Nat) (f : FaultRec) (policy : Bool) : Dev :=
  { d with gnd := { d.gnd with reports := d.gnd.reports ++ [(job, faultBytes f (d.fld (ctxId set n)) job, policy)] } }

/-- The expanders skip a core whose set 0 context has halted or been fenced, until the set is released or bound again (R256). -/
def Dev.bury (d : Dev) (n : Nat) : Dev := { d with codec := { d.codec with dead := n :: d.codec.dead.filter (· ≠ n) } }
def Dev.revive (d : Dev) (n : Nat) : Dev := { d with codec := { d.codec with dead := d.codec.dead.filter (· ≠ n) } }

/-- Fence a half (R156): its array work stops. -/
def Dev.fence (d : Dev) (n set : Nat) : Dev :=
  let f := if set = 0 then F.MTX_CORE_STATUS_FENCED0 n else F.MTX_CORE_STATUS_FENCED1 n
  if d.bit f then d
  else
    let d := (d.setFld f 1).raise (F.MTX_EVENT_FENCE n) n clsContained
    let d := d.countErr (F.MTX_ERR_COUNT_FENCES n) (F.MTX_EVENT_COUNT_SAT n) n
    let d := if set = 0 then d.bury n else d
    d.modCore n fun c => c.setUnit set { c.unit set with aq := [] }

/-- The running record of a set. -/
def CoreSt.launchOf (c : CoreSt) (set : Nat) : Option Launch := (c.running.find? (·.1 == set)).map (·.2)

/-- A core writes a set's fault record to its FAULT_REC (R201 step 5): a store to HBM, which waits for its home as every write of the core
does (R14). -/
def Dev.writeFault (d : Dev) (n set : Nat) : Dev :=
  match (d.core n).fault set, (d.core n).launchOf set with
  | some f, some l =>
    if l.faultRec = 0 then d
    else
      let job := d.fld (ctxJob set n)
      let c := d.core n
      d.issue { Req.of (coreSrc n set) job (d.slotNo * 2 ^ 44 + l.faultRec) (.store (faultBytes f (d.fld (ctxId set n)) job)) with
        kern := c.kern, bundle := c.bundle, no := c.no }
  | _, _ => d

/-- The kernel ends at a fault outside split mode (R201): no later bundle issues, the array unit drops its waiting entries, the record is
written and STATE reads 4. -/
def Dev.haltFault (d : Dev) (n : Nat) : Dev :=
  let d := ((d.writeFault n 0).setFld (F.SCP_CORE_STATUS_STATE n) 4).bury n
  d.modCore n fun c =>
    let c := { c with ended := true, tickWait := false, acq := none, queues := c.queues.filter fun e => e.1 != 2 }
    c.setUnit 0 { c.unit 0 with aq := [] }

/-! ## Faults of a bundle's instructions -/

/-- The record of a fault that arises now in a bundle. -/
def Dev.faultRec (d : Dev) (n set bundle slot source kind addr cycle : Nat) (async : Bool) : FaultRec :=
  let sp := d.split n
  ⟨source, kind, bundle, slot, false, async, sp, sp && set == 1, addr, d.fld F.TCK_NUMBER_NUMBER, cycle⟩

/-- An instruction raises a contained fault (R201, R202). In split mode the set's half is fenced instead of ending the kernel (R156). An ISA
fault has no event bit of its own and is reported to firmware (R203). -/
def Dev.faultAt (d : Dev) (n set slot source kind addr : Nat) : Dev :=
  let c := d.core n
  let f := d.faultRec n set c.bundle slot source kind addr c.cycle false
  let d := if source = 3 then d.report n set (d.fld (ctxJob set n)) f true else d
  let d := d.modCore n fun c => c.setFault set (joinFault (c.fault set) f)
  if d.split n then d.fence n set else d

/-- An ISA fault (Table 7 of the programming model). -/
def Dev.isaFault (d : Dev) (n set slot kind addr : Nat) : Dev := d.faultAt n set slot 3 kind addr

/-- SCP_FAULT and its event bits (R120, R121, R123, R125, R131). ENGINE as SCP_FAULT codes it. -/
def Dev.scpRecord (d : Dev) (n set kind engine addr : Nat) : Dev :=
  let d := d.setFld (F.SCP_FAULT_KIND n) kind
  let d := d.setFld (F.SCP_FAULT_ENGINE n) engine
  let d := d.setFld (F.SCP_FAULT_SET n) set
  let d := d.setFld (F.SCP_FAULT_ADDR n) addr
  let d := d.raise (F.SCP_EVENT_FAULT n) n clsContained
  match kind with
  | 1 => d.raise (F.SCP_EVENT_BOUND n) n clsContained
  | 2 => d.raise (F.SCP_EVENT_BOUND n) n clsContained
  | 3 => d.raise (F.SCP_EVENT_SEG n) n clsContained
  | 4 => d.raise (F.SCP_EVENT_HOLE n) n clsContained
  | _ => d

/-- A scratchpad fault of an instruction. -/
def Dev.scpFault (d : Dev) (n set slot kind engine addr : Nat) : Dev := (d.scpRecord n set kind engine addr).faultAt n set slot 1 kind addr

/-- A stream fault (R291): STR_FAULT, its count and the record. -/
def Dev.strFault (d : Dev) (n set slot kind handle : Nat) : Dev :=
  let d := d.setFld F.STR_FAULT_KIND kind
  let d := d.setFld F.STR_FAULT_CTX (d.fld (ctxId set n))
  let d := d.setFld F.STR_FAULT_HANDLE handle
  let d := d.raise F.STR_EVENT_FAULT 0 clsContained
  let d := d.countErr F.STR_ERR_COUNT_FAULTS F.STR_EVENT_COUNT_SAT 0
  d.faultAt n set slot 4 kind 0

/-- MTX_FAULT and its event (R153, R158): KIND, HALF, FORM, ROW and CYCLE. -/
def Dev.mtxRecord (d : Dev) (n kind half form row cycle : Nat) : Dev :=
  let d := d.setFld (F.MTX_FAULT_KIND n) kind
  let d := d.setFld (F.MTX_FAULT_HALF n) half
  let d := d.setFld (F.MTX_FAULT_FORM n) form
  let d := d.setFld (F.MTX_FAULT_ROW n) row
  let d := d.setFld (F.MTX_FAULT_CYCLE n) cycle
  d.raise (F.MTX_EVENT_FAULT n) n clsContained

/-! ## Faults that come later -/

/-- Whether a kernel's completion has still to be posted. -/
def CoreSt.open_ (c : CoreSt) (kern : Nat) : Bool := c.kern == kern && !c.running.isEmpty && !c.stopped

/-- A fault of kernel `kern` that comes after its instruction issued: the record has ASYNC, and the kernel ends at once outside split mode; once
its completion has been posted the fault goes to the firmware log only (R202). -/
def Dev.lateFault (d : Dev) (n set slot bundle kern job source kind addr cycle : Nat) : Dev :=
  let f := d.faultRec n set bundle slot source kind addr cycle true
  if (d.core n).open_ kern = false then d.report n set job f false
  else
    let d := if source = 3 then d.report n set job f true else d
    let d := d.modCore n fun c => c.setFault set (joinFault (c.fault set) f)
    if d.split n then d.fence n set
    else if d.running n then d.haltFault n else d

/-- A fault of work that one of the core's engines has accepted: it belongs to the kernel that runs (R198). -/
def Dev.engineFault (d : Dev) (n set slot bundle source kind addr cycle : Nat) : Dev :=
  d.lateFault n set slot bundle (d.core n).kern (d.fld (ctxJob set n)) source kind addr cycle

/-- An error returned to a request of an S slot (R202): ISA KIND 6. -/
def Dev.asyncFault (d : Dev) (n set kern bundle job addr : Nat) : Dev :=
  d.lateFault n set 0 bundle kern job 3 6 addr (d.core n).cycle

end Sys2Proof.Machine
end

