-- ==== Sys2Proof/Machine/Feeder.lean ====
section
/-! DEFINITION. Accumulator rows, the array's timing, its feeders and its freezes (R127, R136 to R147, R152 to R154, R229 to R231). -/

namespace Sys2Proof.Machine

/-! ## Accumulator rows (R127, R141, R154) -/

/-- The 512-byte row that holds row j of the whole memory, or of half h in split mode. -/
def accPhys (split : Bool) (h j : Nat) : Nat := if split then h * 1024 + j % 2048 / 2 else j % 2048

/-- The buffer of a row: 128 rows of 512 bytes. -/
def accBuf (split : Bool) (h j : Nat) : Nat := accPhys split h j / 128

/-- Row j as its own lanes: 128 words, or 64 in split mode. -/
def CoreSt.accGet (c : CoreSt) (split : Bool) (h j : Nat) : List (BitVec 32) :=
  if split then ((c.accRow (accPhys true h j)).drop (j % 2 * 64)).take 64 else c.accRow (accPhys false h j)

/-- Whether a codeword of accumulator memory, 64 to a row of 512 bytes, belongs to row j. -/
def accHas (split : Bool) (h j w : Nat) : Bool :=
  w / 64 == accPhys split h j && (!split || w % 64 / 32 == j % 2)

/-- The codewords in error of row j. -/
def CoreSt.accBad (c : CoreSt) (split : Bool) (h j : Nat) : List (Nat × Bool) := c.badAcc.filter fun q => accHas split h j q.1

/-- Replace row j, whose codewords are then right (R123, R127). -/
def CoreSt.accPut (c : CoreSt) (split : Bool) (h j : Nat) (ls : List (BitVec 32)) : CoreSt :=
  let p := accPhys split h j
  let old := c.accRow p
  let row := if split then (if j % 2 = 0 then ls ++ old.drop 64 else old.take 64 ++ ls) else ls
  { c.setAccRow p row with badAcc := c.badAcc.filter (fun q => !(accHas split h j q.1)), fixAcc := c.fixAcc.filter fun w => !(accHas split h j w) }

/-- Count and report what a read of row j finds in its codewords; a single error awaits its write-back (R123, R127). True when a double error
was read. -/
def Dev.accRead (d : Dev) (n : Nat) (split : Bool) (h j : Nat) : Dev × Bool :=
  ((d.core n).accBad split h j).foldl (fun (r : Dev × Bool) q =>
    let d := r.1.eccCount n q.2
    if q.2 then (d, true)
    else (d.modCore n fun c => { c with fixAcc := c.fixAcc.filter (· ≠ q.1) ++ [q.1] }, r.2)) (d, false)

/-- Corrections of accumulator codewords reach their buffers in an idle cycle of theirs (R123, R127, log 166). -/
def CoreSt.accFix (c : CoreSt) : CoreSt :=
  if c.fixAcc.isEmpty then c
  else { c with badAcc := c.badAcc.filter (fun q => q.2 || !(c.fixAcc.contains q.1)), fixAcc := [] }

/-! ## Timing of an array instruction (R134, R139, R140) -/

/-- Columns of the array, or of a half; and the context set an M-slot instruction acts for (R154, R228). -/
def Dev.cols (d : Dev) (n : Nat) : Nat := if d.split n then 64 else 128
def Dev.mSet (d : Dev) (n half : Nat) : Nat := if d.split n then half else 0

/-- Whether a pair of formats is of the 16-bit group: 2 cycles per row or k-step. -/
def pair16 (a b : Nat) : Bool := a == 7 || a == 8 || b == 7 || b == 8

/-- Whether two rows enter per cycle: an MLOAD with K2 = 1, and the k-steps of a 4-bit output-stationary pass. -/
def ArrOp.paired (o : ArrOp) : Bool := (o.op == 1 && o.k2) || (o.op == 4 && o.fmt == 5 && o.fmtB == 5)

/-- Cycles from one entry to the next. -/
def ArrOp.rowCycles (o : ArrOp) : Nat := if o.op != 1 && pair16 o.fmt o.fmtB then 2 else 1

/-- The feeder entry that holds row i: pairs of rows share one (log 167). -/
def ArrOp.entry (o : ArrOp) (i : Nat) : Nat := if o.paired then i / 2 else i

/-- Cycles from the begin of an instruction to the entry of row i. -/
def ArrOp.off (o : ArrOp) (i : Nat) : Nat := o.entry i * o.rowCycles

/-- Rows, k-steps or weight rows that an instruction reads (R229, R230), and their feeder entries. -/
def ArrOp.rowsIn (o : ArrOp) : Nat := if o.op = 1 then (if o.k2 then 2 * o.klen else o.klen) else o.count
def ArrOp.entries (o : ArrOp) : Nat := if o.paired then ceilDiv o.rowsIn 2 else o.rowsIn

/-- Result rows of an array instruction (R140). -/
def ArrOp.resultRows (o : ArrOp) : Nat := if o.op = 4 then 128 else if o.op = 1 then 0 else o.count

/-- Cycles of all its rows or k-steps. -/
def ArrOp.stepCycles (o : ArrOp) : Nat := o.entries * o.rowCycles

/-- Cycles in which the array advances an instruction (R139, Table 3); the δ of R140 is none of them. -/
def ArrOp.occupancy (o : ArrOp) : Nat := if o.op = 1 then 128 else if o.op = 4 then o.stepCycles + 128 else o.stepCycles

/-- Feeder freezes that still lie ahead of row i, that of row i included. -/
def waitsTo (i : Nat) (ws : List (Nat × Nat)) : Nat := ((ws.filter fun w => decide (w.1 ≤ i)).map (·.2)).sum

/-- The cycle in which row i enters the array (R139, R146). -/
def ArrRun.enter (r : ArrRun) (i : Nat) : Nat := r.t + r.op.off i + r.freeze + waitsTo i r.waits

/-- The cycle in which result row i is written (R140). -/
def ArrRun.due (r : ArrRun) (i : Nat) : Nat :=
  if r.op.op = 4 then r.t + r.op.stepCycles + 132 + i + r.delta + r.freeze + waitsTo r.op.rowsIn r.waits else r.enter i + 260

/-- The first cycle after an instruction's occupancy (R139). -/
def ArrRun.leaves (r : ArrRun) : Nat := r.t + r.op.occupancy + r.delta + r.freeze + waitsTo r.op.rowsIn r.waits

/-! ## Operands in scratchpad (R230, R231) -/

/-- Bytes of a row of k elements (Table 10). -/
def rowBytes (fmt k : Nat) : Nat := k * elemBits fmt / 8

/-- Elements of a row of side A: a weight row has one per column, a 4-bit stream 256. -/
def ArrOp.width (o : ArrOp) (cols : Nat) : Nat := if o.op = 1 then cols else if o.op != 4 && o.op != 3 && o.k2 then 256 else 128

/-- Where row i of side A lies, and row i of B. -/
def ArrOp.rowAt (o : ArrOp) (cols i : Nat) : Nat := if o.op = 1 then o.addr + i * rowBytes o.fmt cols else o.addr + i * o.stride * 128
def ArrOp.rowAtB (o : ArrOp) (i : Nat) : Nat := o.addrB + i * o.stride * 128

/-- The scale bytes read with row i of side A: an MLOAD's block every 32 rows, a stream's word every 16, a pass's word every 32 steps. -/
def ArrOp.scaleAt (o : ArrOp) (cols i : Nat) : Option (Nat × Nat) :=
  if isMX o.fmt = false then none
  else if o.op = 1 then
    if i % 32 = 0 then some (o.addr + (if o.k2 then 256 else 128) * rowBytes o.fmt cols + cols * (i / 32), cols) else none
  else if o.op = 4 then
    if i % 32 = 0 then some (o.addr + ceilDiv o.count 32 * 32 * o.stride * 128 + 128 * (i / 32), 128) else none
  else if i % 16 = 0 then
    some (o.addr + ceilDiv o.count 16 * 16 * o.stride * 128 + 128 * (i / 16), o.width cols / 32 * min 16 (o.count - i))
  else none

/-- The scale bytes read with k-step i of B. -/
def ArrOp.scaleAtB (o : ArrOp) (cols i : Nat) : Option (Nat × Nat) :=
  if isMX o.fmtB && i % 32 == 0 then some (o.addrB + ceilDiv o.count 32 * 32 * o.stride * 128 + 128 * (i / 32), cols) else none

/-- The scratchpad words of n bytes. -/
def wordsAt (a n : Nat) : List Nat := (List.range (ceilDiv (a % 128 + n) 128)).map (a / 128 + ·)

/-- The banks of the words fetched for row i (R108): those of the row, but for one already fetched for the row before it, and those of its scales,
which are marked by 32 more. -/
def rowBanks (n : Nat) (rowAt : Nat → Nat) (scale : Nat → Option (Nat × Nat)) (i : Nat) : List Nat :=
  let own := wordsAt (rowAt i) n
  let own := if i = 0 then own else own.filter fun w => !((wordsAt (rowAt (i - 1)) n).contains w)
  own.map (· % 32) ++ match scale i with
    | some (a, k) => (wordsAt a k).map fun w => w % 32 + 32
    | none => []

/-- The rows of a feeder entry. -/
def ArrOp.rowsOf (o : ArrOp) (j : Nat) : List Nat :=
  if o.paired then (if 2 * j + 1 < o.rowsIn then [2 * j, 2 * j + 1] else [2 * j]) else [j]

/-- The banks of the words fetched for entry j of side A, and of B. -/
def ArrOp.banks (o : ArrOp) (cols j : Nat) : List Nat :=
  (o.rowsOf j).flatMap (rowBanks (rowBytes o.fmt (o.width cols)) (o.rowAt cols) (o.scaleAt cols))
def ArrOp.banksB (o : ArrOp) (cols j : Nat) : List Nat :=
  (o.rowsOf j).flatMap (rowBanks (rowBytes o.fmtB cols) o.rowAtB (o.scaleAtB cols))

/-! ## Feeders (R145) -/

/-- Whether a frame has room for one more word: 16 words of rows, beside which their scales come (log 167), and four words of one bank. -/
def frameRoom (bs : List Nat) (w : Nat) : Bool :=
  (decide (32 ≤ w) || decide ((bs.filter (· < 32)).length < 16)) && decide ((bs.filter fun b => b % 32 = w % 32).length < 4)

/-- Fetch words in order from a frame on. -/
def fetchWords : List Nat → Nat → List Nat → Nat × List Nat
  | [], f, bs => (f, bs)
  | w :: ws, f, bs => if frameRoom bs w then fetchWords ws f (w :: bs) else fetchWords ws (f + 1) [w]

/-- A new operand stream: its fetches follow its acceptance and those of the stream before it. -/
def Edge.start (e : Edge) (accept : Nat) : Edge := { e with frame := max e.frame (accept / 8 + 1), banks := [] }

/-- Fetch one entry's words, once the entry `lane` places before it has entered the array or does so in the frame's matrix slots. -/
def Edge.fetch (e : Edge) (lane : Nat) (ws : List Nat) : Edge :=
  let f := match e.enters[lane - 1]? with
    | some c => max e.frame ((c + 4) / 8)
    | none => e.frame
  let r := fetchWords ws f (if f = e.frame then e.banks else [])
  { e with frame := r.1, banks := r.2 }

/-- An entry enters the array in a cycle. -/
def Edge.enter (e : Edge) (c : Nat) : Edge := { e with enters := (c :: e.enters).take 32 }

/-- A plan of fetches and entries: the feeders after it, the frame of each entry by side, the freezes, and the cycle after the last entry. -/
structure Plan where
  a : Edge
  b : Edge
  fetch : List Nat
  fetchB : List Nat
  waits : List (Nat × Nat)
  next : Nat

/-- Plan entries from j on, of which the first would enter in cycle `next`: an entry enters from the first cycle of the frame after its fetch,
and what it comes later than planned freezes the array (R145, R146). -/
def planEntries (o : ArrOp) (cols lane : Nat) : Nat → Nat → Edge → Edge → Nat → Plan
  | 0, _, a, b, next => ⟨a, b, [], [], [], next⟩
  | k + 1, j, a, b, next =>
    let two := o.op == 4
    let a := a.fetch lane (o.banks cols j)
    let b := if two then b.fetch 32 (o.banksB cols j) else b
    let c := max next (8 * (max a.frame (if two then b.frame else 0) + 1))
    let p := planEntries o cols lane k (j + 1) (a.enter c) (if two then b.enter c else b) (c + o.rowCycles)
    { p with fetch := a.frame :: p.fetch, fetchB := if two then b.frame :: p.fetchB else [],
             waits := if next < c then ((o.rowsOf j).headD 0, c - next) :: p.waits else p.waits }

/-- Whether side A enters at the top edge (Table 1): weights, and the rows of the transposed forms. -/
def ArrOp.atTop (o : ArrOp) : Bool := o.op == 1 || o.op == 3 || o.op == 6

/-- A cycle L put off by the freezes of a plan that come before it. -/
def putOff (o : ArrOp) (t : Nat) : List (Nat × Nat) → Nat → Nat → Nat
  | [], _, l => l
  | (i, k) :: ws, done, l => putOff o t ws (done + k) (if t + o.off i + done ≤ l then l + k else l)

/-- An array instruction is accepted: its fetches, the cycle it begins in and its results are planned (R137, R139, R140, R145). -/
def ArrUnit.take (u : ArrUnit) (split : Bool) (o : ArrOp) : ArrUnit :=
  let cols := if split then 64 else 128
  let lane := if split && !o.atTop then 16 else 32
  let a := (if o.atTop then u.top else u.left).start o.accept
  let b := u.top.start o.accept
  let rowsIn := fun (fs : List Nat) => (fs.flatMap fun f => if o.paired then [f, f] else [f]).take o.rowsIn
  let head := planEntries o cols lane (o.entry (min 16 o.rowsIn - 1) + 1) 0 a b 0
  let ready := 8 * (max (head.fetch.getLastD 0) (head.fetchB.getLastD 0) + 1)
  let t := max (max (o.accept + 32) u.free) ready
  let p := planEntries o cols lane o.entries 0 a b t
  let late := putOff o t p.waits 0 u.lastWrite
  let first := p.next + 132
  let delta := if o.op = 4 ∧ first ≤ late then late + 1 - first else 0
  let r : ArrRun := ⟨o, t, [], [], [], [], [], rowsIn p.fetch, rowsIn p.fetchB, p.waits, 0, 0, delta, false, none⟩
  { u with aq := u.aq ++ [r], free := r.leaves,
           lastWrite := if o.op = 1 then late else max late (r.due (o.resultRows - 1)),
           left := if o.atTop then u.left else p.a,
           top := if o.atTop then p.a else if o.op = 4 then p.b else u.top }

/-- The format, K2 and extents of the tile that an instruction accepted now will meet: that of the last MLOAD accepted, or the one in the cells. -/
def ArrUnit.tileAhead (u : ArrUnit) : Option (Nat × Bool × Nat × Nat) :=
  match ((u.ld.toList ++ u.aq).filter fun r => r.op.op == 1).getLast? with
  | some r => some (r.op.fmt, r.op.k2, r.op.klen, r.op.nlen)
  | none => u.tile.map fun t => (t.fmt, t.k2, t.klen, t.nlen)

/-! ## Freezes (R146, R153) -/

/-- While others freeze the array for k cycles the feeders go on: what they still have to wait shrinks. -/
def catchUp : Nat → List (Nat × Nat) → List (Nat × Nat)
  | _, [] => []
  | k, (i, w) :: ws => if w ≤ k then catchUp (k - w) ws else (i, w - k) :: ws

/-- Freeze cycles lengthen what an instruction in the array has before it. -/
def ArrRun.shift (r : ArrRun) (k : Nat) : ArrRun := { r with freeze := r.freeze + k, waits := catchUp k r.waits }

/-- Entries that have yet to enter do so later. -/
def Edge.shift (e : Edge) (from_ k : Nat) : Edge := { e with enters := e.enters.map fun c => if from_ ≤ c then c + k else c }

/-- k freeze cycles from a cycle on, that the unit's own feeders do not cause. -/
def ArrUnit.frozenFor (u : ArrUnit) (from_ k : Nat) : ArrUnit :=
  { u with run := u.run.map fun r => r.shift k, ld := u.ld.map fun r => r.shift k, aq := u.aq.map fun r => { r with t := r.t + k },
           free := u.free + k, lastWrite := u.lastWrite + k, left := u.left.shift from_ k, top := u.top.shift from_ k }

/-- Freeze cycles lengthen every latency and occupancy in flight, of both halves (R146, R153, R154). -/
def CoreSt.freezeAll (c : CoreSt) (from_ k : Nat) : CoreSt :=
  let c := { c with frozen := (if c.frozen.2 = from_ then c.frozen.1 else from_, from_ + k) }
  (c.setUnit 0 ((c.unit 0).frozenFor from_ k)).setUnit 1 ((c.unit 1).frozenFor from_ k)

/-- Count freeze cycles (R146, R158). -/
def Dev.freezeCount (d : Dev) (n k : Nat) : Dev := (d.count (F.MTX_FREEZE_CC_CC n) k).monitor 3 n k

/-- The instructions of a unit that have begun: with results due, or an MLOAD. -/
def ArrUnit.inArray (u : ArrUnit) : List ArrRun := u.run ++ u.ld.toList

/-- FORM of a unit in a cycle: the code of the instruction in the array, 0 for none (R158, Table 11). -/
def ArrUnit.form (u : ArrUnit) (cycle : Nat) : Nat :=
  match u.inArray.find? fun r => decide (cycle < r.leaves) with
  | some r => min r.op.op 5
  | none => 0

/-- Instructions waiting are dropped and the operands of what follows are flushed, when an array instruction faults in a cycle (R153). -/
def ArrUnit.flush (u : ArrUnit) (cycle : Nat) : ArrUnit :=
  let edge := fun (e : Edge) => { e with frame := cycle / 8, banks := [], enters := e.enters.filter fun c => decide (c ≤ cycle) }
  { u with aq := [], free := (u.inArray.map ArrRun.leaves).foldl max (cycle + 131),
           lastWrite := (u.run.map fun r => r.due (r.op.resultRows - 1)).foldl max 0, left := edge u.left, top := edge u.top,
           par := u.par.filter (· = 0) }

/-- An array instruction, which the caller has taken out, faults in a cycle (R153): the array freezes for 130 cc, its waiting entries are dropped,
and the fault is recorded and delivered. -/
def Dev.arrayFault (d : Dev) (n h : Nat) (o : ArrOp) (kind row cycle addr : Nat) : Dev :=
  let d := d.mtxRecord n kind (if d.split n then h else 0) (min o.op 5) row cycle
  let d := if kind = 2 then
      (d.countErr (F.MTX_ERR_COUNT_PARITY n) (F.MTX_EVENT_COUNT_SAT n) n).raise (F.MTX_EVENT_PARITY n) n clsContained
    else d
  let d := d.modCore n fun c =>
    let c := c.freezeAll (cycle + 1) 130
    c.setUnit h ((c.unit h).flush cycle)
  (d.freezeCount n 130).engineFault n (d.mSet n h) 2 o.bundle 2 kind addr cycle

/-- An operand access that faulted (R152): SCP_FAULT holds the detail; a read under zeroing has no KIND there (R290). -/
def Dev.operandFault (d : Dev) (n h : Nat) (o : ArrOp) (q : Nat × Nat × Nat) (cycle : Nat) : Dev :=
  (d.scpRecord n (d.mSet n h) q.2.1 0 q.2.2).arrayFault n h o 3 q.1 cycle q.2.2

/-! ## Reading operands -/

/-- Elements packed from bit 0 of a byte string. -/
def unpack (bits k : Nat) (bs : List Byte) : List Nat := let v := leNat bs; (List.range k).map fun i => v / 2 ^ (bits * i) % 2 ^ bits

/-- A matrix engine read of k bytes at a local offset: the bytes, or a scratchpad KIND (R120, R123, R152). -/
def Dev.mRead (d : Dev) (n set a k : Nat) : Dev × Except Nat (List Byte) :=
  match d.localChk n set a k 1 true with
  | .isa _ => (d, .error 0)
  | .scp q => (d, .error q)
  | .ok p =>
    let (d, ue) := d.eccRead n p k
    (d, if ue then .error 6 else .ok (d.scpRead n p k))

/-- Read rows from row i on, one for each frame listed, with their scale words, until one cannot be read: the rows, the scale words, and the row
that failed with its KIND and address. -/
def Dev.pull (d : Dev) (n set k : Nat) (rowAt : Nat → Nat) (scale : Nat → Option (Nat × Nat)) :
    List Nat → Nat → Dev × List (List Byte) × List (List Byte) × Option (Nat × Nat × Nat)
  | [], _ => (d, [], [], none)
  | _ :: fs, i =>
    match d.mRead n set (rowAt i) k with
    | (d, .error q) => (d, [], [], some (i, q, rowAt i))
    | (d, .ok bs) =>
      match scale i with
      | none =>
        let (d, bss, sss, e) := d.pull n set k rowAt scale fs (i + 1)
        (d, bs :: bss, sss, e)
      | some (a, m) =>
        match d.mRead n set a m with
        | (d, .error q) => (d, [], [], some (i, q, a))
        | (d, .ok ss) =>
          let (d, bss, sss, e) := d.pull n set k rowAt scale fs (i + 1)
          (d, bs :: bss, ss :: sss, e)

/-- The frames of rows not yet read whose matrix slots have passed by a cycle (R110, R145). -/
def framesPast (fetch : List Nat) (got cyc : Nat) : List Nat := (fetch.drop got).takeWhile fun f => decide (8 * f + 4 ≤ cyc)

/-- The earlier of two rows that could not be read. -/
def firstBad (x y : Option (Nat × Nat × Nat)) : Option (Nat × Nat × Nat) :=
  match x, y with
  | some a, some b => some (if a.1 ≤ b.1 then a else b)
  | some a, none => some a
  | none, y => y

/-- Read the rows of one instruction that its feeders have fetched by a cycle. -/
def Dev.feedRun (d : Dev) (n h cyc : Nat) (r : ArrRun) : Dev × ArrRun :=
  if r.bad.isSome then (d, r)
  else
    let o := r.op
    let set := d.mSet n h
    let cols := d.cols n
    let (d, xs, ss, e) := d.pull n set (rowBytes o.fmt (o.width cols)) (o.rowAt cols) (o.scaleAt cols)
      (framesPast r.fetch r.rows.length cyc) r.rows.length
    let (d, ys, ts, e2) := d.pull n set (rowBytes o.fmtB cols) o.rowAtB (o.scaleAtB cols) (framesPast r.fetchB r.rowsB.length cyc) r.rowsB.length
    (d, { r with rows := r.rows ++ xs, scales := r.scales ++ ss, rowsB := r.rowsB ++ ys, scalesB := r.scalesB ++ ts, bad := firstBad e e2 })

/-- Read the rows of several instructions, the oldest first. -/
def Dev.feedRuns (d : Dev) (n h cyc : Nat) : List ArrRun → Dev × List ArrRun
  | [] => (d, [])
  | r :: rs =>
    let (d, r) := d.feedRun n h cyc r
    let (d, rs) := d.feedRuns n h cyc rs
    (d, r :: rs)

/-- The tile an MLOAD has brought (R133, R230). -/
def ArrRun.loaded (r : ArrRun) (cols : Nat) : Tile :=
  ⟨r.op.fmt, r.op.k2, r.op.klen, min r.op.nlen cols, r.rows.map (unpack (elemBits r.op.fmt) cols), r.scales.map (·.map (·.toNat))⟩

/-- An MLOAD whose 128 cycles have passed has written every stationary register; one whose row could not be read, or whose feeder entry has wrong
parity, faults as it enters (R133, R152, R153). -/
def Dev.endLoad (d : Dev) (n h cyc : Nat) : Dev :=
  let u := (d.core n).unit h
  match u.ld with
  | none => d
  | some r =>
    let out := fun (d : Dev) => d.modCore n fun c => c.setUnit h { c.unit h with ld := none }
    match r.bad with
    | some q => if r.enter q.1 ≤ cyc then (out d).operandFault n h r.op q (r.enter q.1) else d
    | none =>
      if !r.waits.isEmpty || decide (cyc < r.leaves) then d
      else if u.par.contains 2 then (out d).arrayFault n h r.op 2 0 r.t 0
      else
        let cols := d.cols n
        (out d).modCore n fun c => c.setUnit h { c.unit h with tile := some (r.loaded cols), par := (c.unit h).par.filter (· ≠ 0) }

/-- Whether a unit has no instruction whose operands or tile may be outstanding. -/
def ArrUnit.still (u : ArrUnit) : Bool := u.run.isEmpty && u.ld.isNone && u.aq.isEmpty

/-- One unit's feeders go on to a cycle. -/
def Dev.feedUnit (d : Dev) (n h cyc : Nat) : Dev :=
  let u := (d.core n).unit h
  if u.still then d
  else
    let (d, run) := d.feedRuns n h cyc u.run
    let (d, ld) := d.feedRuns n h cyc u.ld.toList
    let (d, aq) := d.feedRuns n h cyc u.aq
    (d.modCore n fun c => c.setUnit h { c.unit h with run := run, ld := ld.head?, aq := aq }).endLoad n h cyc

/-- The core's feeders go on to a cycle: they read what they have fetched by then (R110, R112, R145). -/
def Dev.feed (d : Dev) (n cyc : Nat) : Dev := (d.feedUnit n 0 cyc).feedUnit n 1 cyc

/-! ## Orders on accumulator rows (R143, R144) -/

/-- The least result row from `next` on that is written to accumulator row j (R141). -/
def ArrOp.nextWrite (o : ArrOp) (next j : Nat) : Nat :=
  let i := (j + 2048 - o.row0 % 2048) % 2048
  if next ≤ i then i else i + ceilDiv (next - i) 2048 * 2048

/-- Whether an array instruction has yet to write accumulator row j, and the cycle of the last write. -/
def ArrRun.writesRow (r : ArrRun) (j : Nat) : Bool := decide (r.op.nextWrite r.next j < r.op.resultRows)
def ArrRun.lastTo (r : ArrRun) (j : Nat) : Nat :=
  let i := r.op.nextWrite r.next j
  r.due (i + (r.op.resultRows - 1 - i) / 2048 * 2048)

/-- The accepted array instructions of a unit that came before bundle `no` and have yet to write row j (R144). -/
def ArrUnit.writers (u : ArrUnit) (no j : Nat) : List ArrRun := (u.run ++ u.aq).filter fun r => decide (r.op.no < no) && r.writesRow j

/-- Whether an array instruction accepted before bundle `no` has yet to write row j. -/
def ArrUnit.rowDue (u : ArrUnit) (no j : Nat) : Bool := !(u.writers no j).isEmpty

/-- Whether an MDRAIN accepted before bundle `no` has yet to read row j (R144). -/
def ArrUnit.drainDue (u : ArrUnit) (no j : Nat) : Bool :=
  u.dq.any fun q => decide (q.no < no) && decide ((j + 2048 - q.row0) % 2048 < q.count)

/-- Whether the drain of the array writes a row into a buffer in a cycle (R143). -/
def CoreSt.drainAt (c : CoreSt) (split : Bool) (buf cycle : Nat) : Bool :=
  [0, 1].any fun h => (c.unit h).run.any fun r =>
    (List.range r.op.resultRows).any fun i => decide (r.next ≤ i) && r.due i == cycle && accBuf split h (r.op.row0 + i) == buf

/-- The first cycle from t on in which the array drain leaves a buffer alone; at most `k` cycles are passed over. -/
def CoreSt.freeAt (c : CoreSt) (split : Bool) (buf : Nat) : Nat → Nat → Nat
  | 0, t => t
  | k + 1, t => if c.drainAt split buf t then c.freeAt split buf k (t + 1) else t

/-- The cycles in which an MDRAIN reads its rows from row i on, one per cycle at most (R142 to R144). -/
def CoreSt.readCycles (c : CoreSt) (split : Bool) (h : Nat) (q : DrainOp) : Nat → Nat → Nat → List Nat
  | 0, _, _ => []
  | k + 1, i, from_ =>
    let j := q.row0 + i
    let t := (((c.unit h).writers q.no (j % 2048)).map fun r => r.lastTo (j % 2048) + 1).foldl max from_
    let t := c.freeAt split (accBuf split h j) 8192 t
    t :: c.readCycles split h q k (i + 1) (t + 1)

/-- First cycle in which an MDRAIN may read: after its acceptance, and once the drain-out unit is free of those before it. -/
def DrainOp.start (q : DrainOp) (free : Nat) : Nat := max (q.accept + 1) free

/-- Whether an MDRAIN reads a row of a buffer in a cycle, by the queue of one half (R143). -/
def CoreSt.readAt (c : CoreSt) (split : Bool) (h buf cycle : Nat) : List DrainOp → Nat → Bool
  | [], _ => false
  | q :: qs, free =>
    let ts := c.readCycles split h q q.count 0 (q.start free)
    (ts.zipIdx.any fun p => p.1 == cycle && accBuf split h (q.row0 + p.2) == buf) || c.readAt split h buf cycle qs (ts.getLastD free + 1)

/-- Whether a buffer serves a drain write or an MDRAIN read in a cycle, before any vector access (R143). -/
def CoreSt.accTaken (c : CoreSt) (split : Bool) (buf cycle : Nat) : Bool :=
  c.drainAt split buf cycle || [0, 1].any fun h => c.readAt split h buf cycle (c.unit h).dq (c.unit h).dFree

/-- Cycles a vector access to k rows from j waits, row by row, in all from its issue to the cycle after its last row (R128, R143). -/
def CoreSt.accWait (c : CoreSt) (split : Bool) (h : Nat) : Nat → Nat → Nat → Nat → Nat
  | 0, _, _, w => w
  | fuel + 1, j, k, w =>
    if k = 0 then w
    else if c.accTaken split (accBuf split h j) (c.cycle + w) then c.accWait split h fuel j k (w + 1)
    else c.accWait split h fuel (j + 1) (k - 1) (w + 1)

/-- Whether a feeder freeze that comes before a cycle has yet to happen, in either half (R146). -/
def CoreSt.freezeDue (c : CoreSt) (cycle : Nat) : Bool :=
  [0, 1].any fun h => (c.unit h).inArray.any fun r =>
    match r.waits with
    | (i, _) :: _ => decide (r.t + r.op.off i + r.freeze ≤ cycle)
    | [] => false

end Sys2Proof.Machine
end

