-- ==== Sys2Proof/Machine/Handles.lean ====
section
/-! DEFINITION. What a channel's handle names, the room for descriptors, and the flags of slots (R240, R269, R270, R273, R274, R280). -/

namespace Sys2Proof.Machine

/-- The index of a handle that is not stale. -/
def Dev.handleIdx (d : Dev) (h : Nat) : Option Nat :=
  let i := h / 2048 % 8192
  let q := d.chan i
  if h = 0 ∨ q.live = false ∨ q.gen ≠ h % 2048 ∨ q.typ ≠ h / 2 ^ 24 % 256 then none else some i

/-- The index of a handle as a job may use it (R270). -/
def Dev.handleFor (d : Dev) (job h : Nat) : Option Nat :=
  match d.handleIdx h with
  | some i => if (d.chan i).job = job then some i else none
  | none => none

/-- The handle of a live channel. -/
def chanHandle (i : Nat) (q : Chan) : Nat := q.typ * 2 ^ 24 + i * 2048 + q.gen

/-- Descriptors a context holds, cancelled ones included (R285). -/
def Dev.inUse (d : Dev) (ctx : Nat) : Nat := (d.str.descs.filter (·.ctx == ctx)).length

/-- Whether a context may take a descriptor. -/
def Dev.descRoom (d : Dev) (ctx : Nat) : Bool :=
  decide (d.inUse ctx < d.fld (F.STR_CTX_QUOTA ctx)) && decide (d.str.descs.length < 16384)

/-- Whether a channel of a type may push its template's transfer, for a core or for firmware (R270, R275). -/
def Template.pushable (t : Template) (typ core : Nat) : Bool :=
  (if typ = 1 then t.kind == 1 else typ == 4 && (t.kind == 2 || t.kind == 3)) && t.srcSpace != 3 && t.dstSpace != 3 &&
    (decide (core < 144) || (t.srcSpace != 0 && t.dstSpace != 0))

/-- A flag of a slot (R240, R280): FULL, EXPANDED or DRAINED; none where the channel has no such slot. -/
def Dev.chanFlag (d : Dev) (i flag slot : Nat) : Option Bool :=
  let q := d.chan i
  if q.typ = 2 ∨ q.typ = 3 then
    if 2 ≤ slot then none else some (if flag = 2 then q.drained.getD slot true else q.full.getD slot false)
  else if q.typ = 6 then
    if 6 ≤ slot then none
    else some (match flag with
      | 0 => d.bit (F.TTH_SLOT_FLAGS_FULL slot)
      | 1 => d.bit (F.TTH_SLOT_FLAGS_EXPANDED slot)
      | _ => d.bit (F.TTH_SLOT_FLAGS_DRAINED slot))
  else none

end Sys2Proof.Machine
end

