-- ==== Sys2Proof/Machine/Operands.lean ====
section
/-! DEFINITION. Operands of slot instructions: the register words an instruction reads and writes, effective addresses and base registers, and the
words of an image (R176, R181, R183, R184, R191, R205 to R211, R221, R228, R234). -/

namespace Sys2Proof.Machine

/-! ## Addresses (R184) -/

/-- Effective address (R184): base, shifted index and displacement; a post-update access uses the old base. -/
def effAddr (b x : Word) (sh : Nat) (upd : Nat) (disp : Int) : Word :=
  if upd = 2 then b else b + (x <<< sh) + BitVec.ofInt 64 disp

/-- The new value of the base register in the update forms (R184). -/
def newBase (b x : Word) (sh : Nat) (upd : Nat) (disp : Int) : Word :=
  if upd = 2 then b + BitVec.ofInt 64 disp else b + (x <<< sh) + BitVec.ofInt 64 disp

/-- Effective address of an SM instruction. -/
def smEa (c : CoreSt) (f : FmtSM) : Word :=
  effAddr (c.sreg f.b.toNat) (c.sreg f.x.toNat) f.sh.toNat f.upd.toNat f.disp.toInt

/-- Effective address of an atomic, which has no index register (R211). -/
def sxEa (c : CoreSt) (f : FmtSX) : Word := effAddr (c.sreg f.b.toNat) 0 0 f.upd.toNat f.disp.toInt

/-- Effective address of a VM instruction (R184). -/
def vmEa (c : CoreSt) (f : FmtVM) : Nat :=
  (effAddr (c.sreg f.b.toNat) (c.sreg f.x.toNat) f.sh.toNat f.upd.toNat f.disp.toInt).toNat

/-- Effective address of an MLOAD. -/
def mlEa (c : CoreSt) (f : FmtML) : Nat :=
  (effAddr (c.sreg f.b.toNat) (c.sreg f.x.toNat) f.sh.toNat f.upd.toNat f.disp.toInt).toNat

/-- Effective address of a stream; the displacement of an MDIST is narrower. -/
def msEa (c : CoreSt) (f : FmtMS) (disp : Int) : Nat :=
  (effAddr (c.sreg f.b.toNat) (c.sreg f.x.toNat) f.sh.toNat f.upd.toNat disp).toNat

/-- The fields an MDIST shares with an MSTREAM. -/
def mdAsMs (f : FmtMD) : FmtMS := ⟨f.hd, f.acc, f.b, f.x, f.sh, f.upd, f.fmt, f.m, f.r, f.stride, 0⟩

/-- A base register and its new value, none in the plain form. -/
def updated (c : CoreSt) (b x : BitVec 5) (sh : BitVec 3) (upd : BitVec 2) (disp : Int) : Option (Nat × Word) :=
  if upd = 0 then none else some (b.toNat, newBase (c.sreg b.toNat) (c.sreg x.toNat) sh.toNat upd.toNat disp)

/-- The base register that an instruction writes back and its new value (R184, R210). -/
def baseOf (c : CoreSt) (i : Instr) : Option (Nat × Word) :=
  match i with
  | .sld _ f | .sst _ f | .flagRel _ f | .flagAcq _ f => updated c f.b f.x f.sh f.upd f.disp.toInt
  | .atomAdd _ f | .atomMin _ f | .atomMax _ f | .atomMinu _ f | .atomMaxu _ f | .atomSwap _ f | .atomCas _ f =>
    updated c f.b 0 0 f.upd f.disp.toInt
  | .vld _ f | .vst _ f => updated c f.b f.x f.sh f.upd f.disp.toInt
  | .mload _ f => updated c f.b f.x f.sh f.upd f.disp.toInt
  | .mstream _ f | .mstreamT _ f => updated c f.b f.x f.sh f.upd f.disp.toInt
  | .mdist _ f | .mdistT _ f => updated c f.b f.x f.sh f.upd f.disp.toInt
  | _ => none

/-! ## Registers read and written -/

/-- The registers an SA instruction reads. -/
def saRegs (f : FmtSA) : List Nat := if f.i then [f.a.toNat] else [f.a.toNat, f.b.toNat]

/-- Operand b: the sign-extended immediate or a register (R211). -/
def saB (c : CoreSt) (f : FmtSA) : Word := if f.i then f.imm.signExtend 64 else c.sreg f.b.toNat

/-- Registers an SM instruction reads for its address. -/
def smRegs (f : FmtSM) : List Nat := [f.b.toNat, f.x.toNat]

/-- Registers a VA instruction reads. -/
def vaRegs (f : FmtVA) (useB useC : Bool) : List Nat :=
  (40 + f.a.toNat) :: ((if useB then [if f.bs then f.b.toNat % 32 else 40 + f.b.toNat] else []) ++ if useC then [40 + f.c.toNat] else [])

/-- The register words a slot instruction reads: s 0 to 31, p 32 to 39, v 40 to 103 (R181), its predicate apart. -/
def readsOf (i : Instr) : List Nat :=
  match i with
  | .sadd _ f | .ssub _ f | .sand _ f | .sor _ f | .sxor _ f | .sshl _ f | .sshr _ f | .ssra _ f | .smin _ f | .smax _ f | .sminu _ f
  | .smaxu _ f | .slui _ f | .smul _ f | .smulh _ f | .smulhu _ f | .sdiv _ f | .sdivu _ f | .srem _ f | .sremu _ f | .scmp _ f | .sfadd _ f
  | .sfsub _ f | .sfmul _ f | .sfcmp _ f => saRegs f
  | .plog _ f => [32 + f.a.toNat, 32 + f.b.toNat]
  | .sfma _ f => f.d.toNat :: saRegs f
  | .sfcvt _ f => [f.a.toNat]
  | .sld _ f => smRegs f
  | .sst _ f | .flagRel _ f | .flagAcq _ f => f.d.toNat :: smRegs f
  | .atomAdd _ f | .atomMin _ f | .atomMax _ f | .atomMinu _ f | .atomMaxu _ f | .atomSwap _ f | .atomCas _ f =>
    [f.b.toNat, f.v.toNat, f.c.toNat]
  | .sret _ _ => [31]
  | .sloop _ f => if f.reg then [f.n.toNat] else []
  | .swait _ f => if f.reg then [f.n.toNat] else []
  | .vadd _ f | .vsub _ f | .vmul _ f | .vmin _ f | .vmax _ f | .vand _ f | .vor _ f | .vxor _ f | .vshl _ f | .vshr _ f | .vsra _ f
  | .vcmp _ f | .vdiv _ f => vaRegs f true false
  | .vfma _ f | .vsel _ f => vaRegs f true true
  | .vabs _ f | .vneg _ f | .vsqrt _ f | .vrcp _ f | .vrsqrt _ f | .vexp2 _ f | .vexp _ f | .vlog2 _ f | .vlog _ f | .vsin _ f | .vcos _ f
  | .vtanh _ f | .vsigm _ f | .verf _ f => vaRegs f false false
  | .vcvt _ f | .vred _ f | .vext _ f => [40 + f.a.toNat]
  | .vbcast _ f | .vseed _ f => [f.a.toNat % 32]
  | .vld _ f => [f.b.toNat, f.x.toNat]
  | .vst _ f => [f.b.toNat, f.x.toNat, 40 + f.v.toNat]
  | .vldacc _ f => [f.r.toNat]
  | .vstacc _ f => [f.r.toNat, 40 + f.v.toNat]
  | .mload _ f => [f.b.toNat, f.x.toNat]
  | .mstream _ f | .mstreamT _ f => [f.b.toNat, f.x.toNat, f.m.toNat, f.r.toNat]
  | .mdist _ f | .mdistT _ f => [f.b.toNat, f.x.toNat, f.m.toNat, f.r.toNat]
  | .mstreamOs _ f => [f.a.toNat, f.b.toNat, f.k.toNat, f.r.toNat]
  | .mdrain _ f => [f.b.toNat, f.r.toNat, f.n.toNat]
  | .dcopy _ f => [f.d.toNat, f.s.toNat, f.n.toNat]
  | .dmove _ f => [f.d.toNat, f.s.toNat, f.n.toNat]
  | .dstrPush _ f | .dstrArm _ f | .dstrCancel _ f => [f.h.toNat]
  | .dwait _ f => if f.i then [] else [f.a.toNat]
  | .dflagw _ f => [f.h.toNat]
  | _ => []

/-- The scalar registers a slot instruction writes beside a base register, which it reads (R191). -/
def writesOf (i : Instr) : List Nat :=
  match i with
  | .sadd _ f | .ssub _ f | .sand _ f | .sor _ f | .sxor _ f | .sshl _ f | .sshr _ f | .ssra _ f | .smin _ f | .smax _ f | .sminu _ f
  | .smaxu _ f | .slui _ f | .smul _ f | .smulh _ f | .smulhu _ f | .sdiv _ f | .sdivu _ f | .srem _ f | .sremu _ f | .sfadd _ f
  | .sfsub _ f | .sfmul _ f | .sfma _ f | .sfcvt _ f | .srds _ f => [f.d.toNat]
  | .sld _ f | .flagAcq _ f => [f.d.toNat]
  | .atomAdd _ f | .atomMin _ f | .atomMax _ f | .atomMinu _ f | .atomMaxu _ f | .atomSwap _ f | .atomCas _ f => [f.d.toNat]
  | .scall _ _ => [31]
  | .vext _ f => [f.d.toNat % 32]
  | _ => []

/-! ## Words of an image (R176, R206, R207) -/

/-- The word of a slot of the bundle now issuing, where the half being executed holds one: 0 S, 1 V, 2 M, 3 D. -/
def CoreSt.slotWord (c : CoreSt) (slot : Nat) : Option Word :=
  let bs := (((Store.get (fun _ => (0, 0, [])) c.images c.active).2.2).drop (32 * c.bundle + 8 * slot)).take 8
  if bs.length = 8 then some (BitVec.ofNat 64 (leNat bs)) else none

/-- The opcode of a word. -/
def opcode (w : Word) : Nat := (w.extractLsb' 56 8).toNat

/-- The slot that admits an opcode (R206, Table 2); 4 for none. -/
def opcodeSlot (op : Nat) : Nat := if op < 0x40 then 0 else if op < 0x80 then 1 else if op < 0xA0 then 2 else if op < 0xC0 then 3 else 4

/-- Whether a word is no instruction of its slot: an unassigned opcode or coded field, or another slot's family (R176, R207). -/
def wordReserved (slot : Nat) (w : Word) : Bool := opcodeSlot (opcode w) != slot || (decodeSlot 0 w).isNone

/-- How the predicate and a fence bear on an instruction (R183, R208). -/
inductive IssueMode where
  | normal | branch | free
deriving DecidableEq, Repr

/-- The mode of an opcode: SLOOP, SWAIT, SYNC and END ignore predicate and fence; SBR, SCALL and SRET ignore the fence (R183, R208). -/
def opcodeMode (op : Nat) : IssueMode :=
  if op = 0x2B ∨ op = 0x2C ∨ op = 0x30 ∨ op = 0x3F then .free else if op = 0x28 ∨ op = 0x29 ∨ op = 0x2A then .branch else .normal

end Sys2Proof.Machine
end

