-- ==== Sys2Proof/Machine/Waits.lean ====
section
/-! DEFINITION. What keeps a bundle from issuing (R136, R144, R172, R179, R191, R227, R235, R237 to R240, R274): each wait as a predicate over the
registers of the cycle in which the instruction would issue. -/

namespace Sys2Proof.Machine

/-! ## Predicates and fences (R156, R183, R208) -/

/-- Whether a set is fenced (R156). -/
def Dev.fenced (d : Dev) (n set : Nat) : Bool :=
  d.split n && (if set = 0 then d.bit (F.MTX_CORE_STATUS_FENCED0 n) else d.bit (F.MTX_CORE_STATUS_FENCED1 n))

/-- Whether an instruction acts: its predicate is true (R183), it is not in a loop body of a zero count (R216), and its set is not fenced (R156).
Branches ignore the fence, and SLOOP, SWAIT, SYNC and END ignore all three (R183, R208). -/
def Dev.acts (d : Dev) (n : Nat) (h : Head) (m : IssueMode) : Bool :=
  let c := d.core n
  match m with
  | .normal => !(c.loops.any (·.zero)) && (c.preg h.p.toNat != h.inv) && !(d.fenced n (b2n h.set))
  | .branch => !(c.loops.any (·.zero)) && (c.preg h.p.toNat != h.inv)
  | .free => true

/-- The context set an instruction of the S, V or D slot acts for (R154, R208). -/
def Dev.slotSet (d : Dev) (n : Nat) (h : Head) : Nat := if d.split n then b2n h.set else 0

/-! ## M slot (R136, R228, R229) -/

/-- Array operand codes (R209, Table 3). -/
def arrFmt (k : Nat) : Bool := decide (k ≤ 8)

/-- Reserved encodings of the M-slot instructions (R209, R210, R228, R229). -/
def mlRsv (f : FmtML) : Bool := !(arrFmt f.fmt.toNat) || f.upd == 3
def msRsv (f : FmtMS) : Bool := !(arrFmt f.fmt.toNat) || f.upd == 3 || f.stride == 0
def mdRsv (f : FmtMD) : Bool := msRsv (mdAsMs f) || decide (4 < f.form.toNat)
def moRsv (f : FmtMO) : Bool := !(arrFmt f.fmta.toNat) || !(arrFmt f.fmtb.toNat) || f.stride == 0 || f.rsv != 0
def mrRsv (f : FmtMR) : Bool := decide (9 < f.ofmt.toNat) || f.stride == 0

/-- A stream of an MSTREAM, or of an MDIST with its form and displacement, as it would be accepted now. -/
def CoreSt.streamOp (c : CoreSt) (op form : Nat) (f : FmtMS) (disp : Int) : ArrOp where
  op := op
  half := f.hd.set
  accept := c.cycle
  acc := f.acc
  addr := msEa c f disp
  addrB := 0
  fmt := f.fmt.toNat
  fmtB := f.fmt.toNat
  k2 := false
  klen := 128
  nlen := 128
  count := (c.sreg f.m.toNat).toNat % 65536
  row0 := (c.sreg f.r.toNat).toNat % 2048
  stride := f.stride.toNat
  form := form
  bundle := c.bundle
  no := c.no

/-- The array instruction an M-slot instruction hands to its unit now (R228 to R231). -/
def CoreSt.arrayOp (c : CoreSt) (i : Instr) : Option ArrOp :=
  match i with
  | .mload _ f => some {
      op := 1, half := f.hd.set, accept := c.cycle, acc := false, addr := mlEa c f, addrB := 0, fmt := f.fmt.toNat, fmtB := f.fmt.toNat,
      k2 := f.k2, klen := f.klen.toNat + 1, nlen := f.nlen.toNat + 1, count := 1, row0 := 0, stride := 0, form := 0, bundle := c.bundle,
      no := c.no }
  | .mstream _ f => some (c.streamOp 2 8 f f.disp.toInt)
  | .mstreamT _ f => some (c.streamOp 3 8 f f.disp.toInt)
  | .mdist _ f => some (c.streamOp 5 f.form.toNat (mdAsMs f) f.disp.toInt)
  | .mdistT _ f => some (c.streamOp 6 f.form.toNat (mdAsMs f) f.disp.toInt)
  | .mstreamOs _ f => some {
      op := 4, half := f.hd.set, accept := c.cycle, acc := f.acc, addr := (c.sreg f.a.toNat).toNat, addrB := (c.sreg f.b.toNat).toNat,
      fmt := f.fmta.toNat, fmtB := f.fmtb.toNat, k2 := false, klen := 128, nlen := 128, count := (c.sreg f.k.toNat).toNat % 65536,
      row0 := (c.sreg f.r.toNat).toNat % 2048, stride := f.stride.toNat, form := 8, bundle := c.bundle, no := c.no }
  | _ => none

/-- The MDRAIN that an instruction hands to its drain-out unit now (R142, R233). -/
def CoreSt.drainOp (c : CoreSt) (f : FmtMR) : DrainOp where
  half := f.hd.set
  accept := c.cycle
  addr := (c.sreg f.b.toNat + BitVec.ofInt 64 f.disp.toInt).toNat
  row0 := (c.sreg f.r.toNat).toNat % 2048
  count := (c.sreg f.n.toNat).toNat % 4096
  ofmt := f.ofmt.toNat
  sat := f.sat
  sr := f.sr
  stride := f.stride.toNat
  bundle := c.bundle
  no := c.no

/-- An array instruction finds the two waiting entries of its unit taken; a count of 0 needs none (R136, R229). -/
def CoreSt.arrayFull (c : CoreSt) (o : ArrOp) : Bool := o.count != 0 && decide (2 ≤ (c.unit (b2n o.half)).aq.length)

/-- An MDRAIN finds one performing and two waiting (R136). -/
def CoreSt.drainFull (c : CoreSt) (q : DrainOp) : Bool := q.count != 0 && decide (3 ≤ (c.unit (b2n q.half)).dq.length)

/-- Whether an M-slot array instruction must wait for its unit's queue. -/
def CoreSt.queueWaits (c : CoreSt) (i : Instr) : Bool := (c.arrayOp i).any c.arrayFull

/-! ## V slot (R144, R172, R227) -/

/-- Rows of a VLDACC or VSTACC: how many, and whether BEATS is admitted (R227). -/
def vcRows (split : Bool) (f : FmtVC) : Nat := if split then f.beats.toNat + 1 else (f.beats.toNat + 1) / 2
def vcRsv (split : Bool) (f : FmtVC) : Bool := f.rsv != 0 || (!split && f.beats.toNat % 2 == 0)

/-- First row of a VC access (R227). -/
def vcRow (c : CoreSt) (f : FmtVC) : Nat := ((c.sreg f.r.toNat).toNat + f.row.toNat) % 2048

/-- A VLDACC finds a row that an array instruction accepted earlier has yet to write (R144). -/
def Dev.rowsWait (d : Dev) (n : Nat) (f : FmtVC) : Bool :=
  let c := d.core n
  (List.range (vcRows (d.split n) f)).any fun i => (c.unit (b2n f.hd.set)).rowDue c.no ((vcRow c f + i) % 2048)

/-- Reserved encodings of VSEED (R207, R221). -/
def vseedRsv (f : FmtVA) : Bool :=
  f.beats != 0 || f.d != 0 || decide (32 ≤ f.a.toNat) || f.b != 0 || f.c != 0 || f.fmt != 0 || f.fmt2 != 0 || f.sat || f.sr || f.bs ||
    f.sub != 0 || f.lane != 0

/-- A VSEED finds an MDRAIN accepted before it (R172). -/
def CoreSt.drainsWait (c : CoreSt) : Bool := [0, 1].any fun h => (c.unit h).dq.any fun q => decide (q.no < c.no)

/-! ## D slot (R235 to R240, R274) -/

/-- Reserved encodings of the D-slot instructions that may wait (R207, R234). -/
def dmRsv (f : FmtDM) : Bool := f.rsv != 0 || f.dspace == 3 || f.sspace == 3
def dsRsv (f : FmtDS) (noDc : Bool) : Bool := f.rsv != 0 || (noDc && f.dc != 0)
def dwRsv (f : FmtDW) : Bool := f.rsv != 0 || (f.i && f.a != 0) || (!f.i && f.imm != 0)
def dfRsv (f : FmtDF) : Bool := f.rsv != 0 || decide (3 ≤ f.flag.toNat)

/-- A DCOPY finds one performing and four waiting (R235). -/
def CoreSt.copyWaits (c : CoreSt) (f : FmtDC) : Bool := (c.sreg f.n.toNat).toNat % 2 ^ 32 != 0 && decide (5 ≤ c.copies.length)

/-- One side of a DMOVE (R237): a board address, or a scratchpad KIND of R120 or R121. -/
def Dev.moveSide (d : Dev) (n set space a k : Nat) : Except Nat Nat :=
  match space with
  | 0 =>
    if 4096 * d.fld (ctxBound4k set n) < a + k then .error 1
    else .ok (d.slotNo * 2 ^ 44 + scpWin n + 4096 * d.fld (ctxBase4k set n) + a)
  | 1 =>
    if d.fld (ctxHbmBound set n) * 65536 < a + k then .error 2
    else .ok (d.slotNo * 2 ^ 44 + d.fld (ctxHbmBase set n) * 65536 + a)
  | _ => .ok a

/-- What a DMOVE meets: a fault of the ISA or of the scratchpad with its address, or its sides and length (R237). -/
inductive MoveChk where
  | isa (a : Nat)
  | scp (kind a : Nat)
  | ok (src dst len : Nat)
deriving DecidableEq, Repr

/-- Check a DMOVE (R237). -/
def Dev.moveChk (d : Dev) (n set : Nat) (f : FmtDM) : MoveChk :=
  let c := d.core n
  let dst := (c.sreg f.d.toNat).toNat
  let src := (c.sreg f.s.toNat).toNat
  let k := (c.sreg f.n.toNat).toNat % 2 ^ 32
  if src % 64 ≠ 0 ∨ k % 64 ≠ 0 then .isa src
  else if dst % 64 ≠ 0 then .isa dst
  else match d.moveSide n set f.sspace.toNat src k, d.moveSide n set f.dspace.toNat dst k with
    | .error q, _ => .scp q src
    | _, .error q => .scp q dst
    | .ok a, .ok b => .ok a b k

/-- A DMOVE finds no free descriptor (R237, R274). -/
def Dev.moveWaits (d : Dev) (n : Nat) (f : FmtDM) : Bool :=
  let set := d.slotSet n f.hd
  match d.moveChk n set f with
  | .ok _ _ k => k != 0 && !(d.descRoom (d.fld (ctxId set n)))
  | _ => false

/-- The channel that a D-slot instruction's handle register names, for its set's job (R239, R273). -/
def Dev.regChan (d : Dev) (n : Nat) (h : Head) (r : BitVec 5) : Option Nat :=
  d.handleFor (d.fld (ctxJob (d.slotSet n h) n)) (((d.core n).sreg r.toNat).toNat % 2 ^ 32)

/-- A PUSH finds no free descriptor (R239, R274). -/
def Dev.pushWaits (d : Dev) (n : Nat) (f : FmtDS) : Bool :=
  match d.regChan n f.hd f.h with
  | none => false
  | some i => (d.chan i).tmpl.pushable (d.chan i).typ n && !(d.descRoom (d.chan i).ctx)

/-- A DWAIT finds dc[DC] − v below 0 as a signed 32-bit value (R238). -/
def Dev.counterWaits (d : Dev) (n : Nat) (f : FmtDW) : Bool :=
  let c := d.core n
  (c.dcOf (d.slotSet n f.hd) f.dc.toNat - (if f.i then f.imm else (c.sreg f.a.toNat).setWidth 32)).msb

/-- A DFLAGW waits for FULL or EXPANDED of a slot that is not, which FLAG_FAULT turns into a fault (R281). -/
def Dev.flagFaults (d : Dev) (n : Nat) (f : FmtDF) : Bool :=
  f.val && f.flag != 2 && d.bit (F.STR_CTX_FLAG_FAULT (d.fld (ctxId (d.slotSet n f.hd) n)))

/-- A DFLAGW finds its flag with the other value (R240). -/
def Dev.flagWaits (d : Dev) (n : Nat) (f : FmtDF) : Bool :=
  match (d.regChan n f.hd f.h).bind fun i => d.chanFlag i f.flag.toNat f.slot.toNat with
  | some b => b != f.val && !(d.flagFaults n f)
  | none => false

/-! ## The bundle -/

/-- An instruction reads, or writes, a register whose data a request will bring (R191). -/
def CoreSt.scoreWaits (c : CoreSt) (i : Instr) : Bool :=
  c.score.any fun q => (readsOf i).contains q.reg || (writesOf i).contains q.reg

/-- A DMOVE or PUSH finds no free descriptor, which POOL_EMPTY tells (R274). -/
def Dev.poolWaits (d : Dev) (n : Nat) (i : Instr) : Bool :=
  match i with
  | .dmove _ f => !(dmRsv f) && d.moveWaits n f
  | .dstrPush _ f => !(dsRsv f false) && d.pushWaits n f
  | _ => false

/-- Whether an instruction keeps its bundle from issuing; one with a reserved encoding raises its fault instead. -/
def Dev.instrWaits (d : Dev) (n : Nat) (i : Instr) : Bool :=
  let c := d.core n
  c.scoreWaits i || d.poolWaits n i ||
    match i with
    | .mload _ f => !(mlRsv f) && c.queueWaits i
    | .mstream _ f | .mstreamT _ f => !(msRsv f) && c.queueWaits i
    | .mdist _ f | .mdistT _ f => !(mdRsv f) && c.queueWaits i
    | .mstreamOs _ f => !(moRsv f) && c.queueWaits i
    | .mdrain _ f => !(mrRsv f) && c.drainFull (c.drainOp f)
    | .vldacc _ f => !(vcRsv (d.split n) f) && d.rowsWait n f
    | .vseed _ f => !(vseedRsv f) && c.drainsWait
    | .dcopy _ f => f.rsv == 0 && c.copyWaits f
    | .dwait _ f => !(dwRsv f) && d.counterWaits n f
    | .dflagw _ f => !(dfRsv f) && d.flagWaits n f
    | _ => false

/-- The instruction that the image holds for a slot of the bundle now issuing, where it would act. -/
def Dev.slotInstr (d : Dev) (n slot : Nat) : Option Instr :=
  match (d.core n).slotWord slot with
  | none => none
  | some w =>
    if wordReserved slot w || ((Head.of w).set && !(d.split n)) || !(d.acts n (Head.of w) (opcodeMode (opcode w))) then none
    else decodeSlot 0 w

/-- Whether the bundle must wait before any of its slots issues (R177): what its instructions wait for is read from the image (log 156). -/
def Dev.bundleWaits (d : Dev) (n : Nat) : Bool := [0, 1, 2, 3].any fun slot => (d.slotInstr n slot).any (d.instrWaits n)

/-- Whether one of them is a DMOVE or PUSH that finds no free descriptor. -/
def Dev.bundlePool (d : Dev) (n : Nat) : Bool := (d.slotInstr n 3).any (d.poolWaits n)

end Sys2Proof.Machine
end

