-- ==== Sys2Proof/Machine/Sequencer.lean ====
section
/-! DEFINITION. A core's sequencer: issue of slot instructions, results not yet usable, stalls, loops and branches (R107, R111, R112, R176 to R201,
R207, R208). A bundle is issued by the commands of its M, D and V slots and then the command of its S slot, which closes it (log 11). -/

namespace Sys2Proof.Machine

/-! ## Results with a fixed latency -/

/-- Make one pending result. -/
def CoreSt.land (c : CoreSt) : PTgt → CoreSt
  | .s r w => c.setS r w
  | .p r b => c.setP r b
  | .v r b ls => c.setBeat r b ls
  | .dc set i => c.dcAdd set i

/-- Make every result usable in the present cycle, in order (R189, R191). -/
def settleList (cycle : Nat) : List Pend → CoreSt → CoreSt × List Pend
  | [], c => (c, [])
  | q :: qs, c => if q.due ≤ cycle then settleList cycle qs (c.land q.tgt) else (c, q :: qs)

/-- Results usable in the present cycle reach their registers. -/
def CoreSt.settle (c : CoreSt) : CoreSt :=
  let (c', rest) := settleList c.cycle c.pend c
  { c' with pend := rest }

/-- Whether one pending result lands before another: earlier cycle; at one cycle the later-issued lands last, within a bundle D over M over V
over S (R191). -/
def Pend.before (a b : Pend) : Bool :=
  a.due < b.due || (a.due == b.due && (a.issue < b.issue || (a.issue == b.issue && a.prio ≤ b.prio)))

/-- Insert a pending result in landing order. -/
def pendInsert (q : Pend) : List Pend → List Pend
  | [] => [q]
  | r :: rs => if q.before r && !(r.before q) then q :: r :: rs else r :: pendInsert q rs

/-- A result usable `lat` cycles after the issue cycle. -/
def CoreSt.later (c : CoreSt) (lat prio : Nat) (t : PTgt) : CoreSt :=
  { c with pend := pendInsert ⟨c.cycle + lat, c.cycle, prio, t⟩ c.pend }

/-- The bundle's issue stalls n cycles beyond this one (R107); stalls of several slots overlap. What a free-running engine waits is its own
(R199). -/
def CoreSt.stall (c : CoreSt) (n : Nat) : CoreSt := if c.perf.isSome then c else { c with extra := max c.extra n }

/-- Write an instruction's base register back, usable one cycle after issue (R184). An instruction in a free-running engine did so at its issue
(R199). -/
def CoreSt.writeBack (c : CoreSt) (prio : Nat) (i : Instr) : CoreSt :=
  match baseOf c i with
  | none => c
  | some (r, w) => if c.perf.isSome then c else c.later 1 prio (.s r w)

/-! ## Lanes -/

/-- The lanes of a register as one number, lane 0 lowest (R223). -/
def lanesNat : List (BitVec 32) → Nat
  | [] => 0
  | l :: ls => l.toNat + 2 ^ 32 * lanesNat ls

/-- A number as n lanes. -/
def natLanes : Nat → Nat → List (BitVec 32)
  | 0, _ => []
  | n + 1, v => BitVec.ofNat 32 v :: natLanes n (v / 2 ^ 32)

/-- Results per beat: beat b usable at issue + lat + b (R189). -/
def CoreSt.laterBeats (c : CoreSt) (lat r : Nat) : Nat → Nat → List (BitVec 32) → CoreSt
  | 0, _, _ => c
  | k + 1, b, ls => (c.later (lat + b) 1 (.v r b (ls.take 64))).laterBeats lat r k (b + 1) (ls.drop 64)

/-- Beats that become usable together (R189, R224). -/
def CoreSt.laterAll (c : CoreSt) (lat r : Nat) : Nat → Nat → List (BitVec 32) → CoreSt
  | 0, _, _ => c
  | k + 1, b, ls => (c.later lat 1 (.v r b (ls.take 64))).laterAll lat r k (b + 1) (ls.drop 64)

/-! ## Bundles, loops and branches -/

/-- Leave every loop level that ends at this bundle, or wrap its innermost one (R187). -/
def loopStep (b : Nat) : List Loop → Nat × List Loop
  | [] => (b + 1, [])
  | l :: ls =>
    if b = l.last then (if 1 < l.left then (l.first, { l with left := l.left - 1 } :: ls) else loopStep b ls)
    else (b + 1, l :: ls)

/-- The bundle after the present one (R186, R187): the target when the last delay bundle has issued, a loop's first bundle, or the next.
A branch is counted from three at its own bundle. A taken branch out of the innermost body ends that loop. -/
def CoreSt.advance (c : CoreSt) : CoreSt :=
  match c.branch with
  | some (1, t) =>
    let loops := match c.loops with
      | l :: ls => if t < l.first ∨ l.last < t then ls else l :: ls
      | [] => []
    { c with branch := none, bundle := t, loops := loops }
  | some (k, t) => { c with branch := some (k - 1, t), bundle := c.bundle + 1 }
  | none =>
    let (b, ls) := loopStep c.bundle c.loops
    { c with bundle := b, loops := ls }

/-- A vector access that waits for a frame slot beyond the scalar access of its own bundle is performed (R111, R112). -/
def Dev.performLate (d : Dev) (n : Nat) (q : VLate) : Dev :=
  let d := d.feed n ((d.core n).cycle + q.wait)
  match q.reg with
  | none => d.scpWrite n q.phys q.bytes
  | some r =>
    let (d, ue) := d.eccRead n q.phys q.len
    let ls := natLanes (q.len / 4) (leNat (d.scpRead n q.phys q.len))
    let d := d.modCore n fun c => c.laterAll (q.wait + 8 + 2 * farthest 1 q.phys q.len) r (q.len / 256) 0 ls
    if ue then d.scpFault n q.set 1 6 1 q.addr else d

/-- The bundle's late accesses, in order. -/
def Dev.performLates (d : Dev) (n : Nat) : Dev :=
  ((d.core n).late.foldl (fun d q => d.performLate n q) d).modCore n fun c => { c with late := [] }

/-- The cycle in which the next bundle issues: one later than this, by the bundle's stall and its planned wait, and at frame slot 0 after a SYNC
that asks for it (R177, R178, R188, R192). -/
def CoreSt.nextIssue (c : CoreSt) : Nat :=
  let t := c.cycle + 1 + c.extra + c.planned
  if c.align then ceilDiv t 8 * 8 else t

/-- The bundle is over: results usable in the next one's cycle land, and the sequencer moves on. -/
def CoreSt.closed (c : CoreSt) : CoreSt :=
  ({ c with cycle := c.nextIssue, extra := 0, planned := 0, align := false, begun := false, no := c.no + 1 }.accFix.settle).advance

/-- The S slot closes the bundle; a fault of the bundle ends the kernel. -/
def Dev.closeBundle (d : Dev) (n : Nat) : Dev :=
  let d := d.performLates n
  let x := (d.core n).extra
  let d := if x = 0 then d else (d.count (F.SCP_SLOT_WAIT_CC n) x).monitor 4 n x
  let d := d.modCore n CoreSt.closed
  let d := d.feed n (d.core n).cycle
  if (d.split n) = false && ((d.core n).fault 0).isSome then d.haltFault n else d

/-- The bundle waits k cycles without issuing the instruction, which the sequencer presents again (log 12). -/
def Dev.stallFor (d : Dev) (n k : Nat) : Dev :=
  let d := (d.count (F.SCP_SLOT_WAIT_CC n) k).monitor 4 n k
  let d := d.modCore n fun c => { c with cycle := c.cycle + k }.settle
  d.feed n (d.core n).cycle

/-- What a slot instruction does once nothing keeps it from issuing: it acts, or it must wait some cycles first, which `hold` also
makes known. -/
inductive SlotAct where
  | go (d : Dev)
  | wait (n : Nat)
  | hold (d : Dev) (n : Nat)

/-- Whether a core takes slot instructions: it runs a kernel whose END has not issued and is not in its tick wait. -/
def Dev.issuing (d : Dev) (n : Nat) : Bool :=
  d.running n && !(d.core n).ended && !(d.core n).stopped && !(d.core n).tickWait

/-- After a slot instruction: its bundle has begun to issue, and the S slot closes it. -/
def Dev.afterSlot (d : Dev) (n slot : Nat) : Dev :=
  if slot = 0 then d.closeBundle n else d.modCore n fun c => { c with begun := true }

/-- The bundle now issuing has wrong parity (R194). -/
def CoreSt.bundleBad (c : CoreSt) : Bool := c.badBundles.contains (c.active * 2048 + c.bundle)

/-- A bundle with wrong parity performs nothing and raises ISA KIND 5 as it closes: once, and in split mode for both sets (R181, R194, log 168). -/
def Dev.badBundle (d : Dev) (n slot : Nat) : Dev :=
  if slot ≠ 0 then d.afterSlot n slot
  else
    let d := d.isaFault n 0 0 5 0
    (if d.split n then d.isaFault n 1 0 5 0 else d).closeBundle n

/-- What the image holds for a slot when its word is no instruction of the slot: whether that acts, which raises ISA KIND 1 (R176, R207). -/
def Dev.wordFate (d : Dev) (n slot : Nat) : Option Bool :=
  match (d.core n).slotWord slot with
  | none => none
  | some w => if wordReserved slot w then some (d.acts n (Head.of w) (opcodeMode (opcode w))) else none

/-- The queue of a free-running engine (R199). -/
def CoreSt.queue (c : CoreSt) (slot : Nat) : List FreeOp := Store.get (fun _ => []) c.queues slot
def CoreSt.setQueue (c : CoreSt) (slot : Nat) (q : List FreeOp) : CoreSt := { c with queues := Store.put (fun _ => []) c.queues slot q }

/-- An instruction enters the queue of its engine: its scalar sources are captured, and its base register is written back (R184, R199). -/
def CoreSt.enqueue (c : CoreSt) (slot : Nat) (i : Instr) : CoreSt :=
  (c.setQueue slot (c.queue slot ++ [⟨i, c.s, c.p, c.bundle, c.no⟩])).writeBack slot i

/-- Whether the bundle must wait: running free, for a queue that is full or a scoreboarded register only (R177, R199). -/
def Dev.mustWait (d : Dev) (n : Nat) : Bool :=
  if d.coreState n = 3 then
    let c := d.core n
    [0, 1, 2, 3].any fun slot => (d.slotInstr n slot).any fun i => c.scoreWaits i || (slot != 0 && decide (16 ≤ (c.queue slot).length))
  else d.bundleWaits n

/-- The bundle waits a cycle before any of its slots issues. -/
def Dev.bundleStall (d : Dev) (n : Nat) : Dev :=
  (if d.bundlePool n && d.coreState n != 3 then d.raise F.STR_EVENT_POOL_EMPTY 0 clsInfo else d).stallFor n 1

/-- Whether one of the register words from `lo` up to `hi` that an instruction reads has wrong parity (R181). -/
def CoreSt.parityBad (c : CoreSt) (lo hi : Nat) (i : Instr) : Bool :=
  (readsOf i).any fun r => decide (lo ≤ r) && decide (r < hi) && c.badRegs.contains r

/-- The register words read at issue: those of a queued instruction's vector sources are not (R199). -/
def Dev.readAtIssue (d : Dev) (n slot : Nat) : Nat := if d.coreState n = 3 ∧ slot ≠ 0 then 40 else 104

/-- An instruction whose encoding, registers and predicate let it issue does so: it acts, waits, or enters its engine's queue. -/
def Dev.slotPerform (d : Dev) (n slot : Nat) (i : Instr) (body : Dev → SlotAct) : Dev :=
  if (d.core n).scoreWaits i then d.stallFor n 1
  else if d.coreState n = 3 ∧ slot ≠ 0 then
    (if 16 ≤ ((d.core n).queue slot).length then d.stallFor n 1 else (d.modCore n fun c => c.enqueue slot i).afterSlot n slot)
  else match body d with
    | .go d' => d'.afterSlot n slot
    | .wait k => d.stallFor n k
    | .hold d' k => d'.stallFor n k

/-- A free-running engine performs the instruction at the head of its queue, or waits (R199). -/
def Dev.enginePerform (d : Dev) (n slot set : Nat) (i : Instr) (body : Dev → SlotAct) : Dev :=
  let done := fun (d : Dev) => d.modCore n fun c => { c with perf := none }
  if (d.core n).parityBad 40 104 i then done (d.isaFault n set slot 5 0)
  else match body d with
    | .go d' => done d'
    | .wait _ => d
    | .hold d' _ => d'

/-- Issue one slot instruction. `slot` is 0 S, 1 V, 2 M, 3 D; `rsv` says that its encoding is reserved (R207). Outside split mode a fault is set
0's. -/
def Dev.slotIssue (d : Dev) (n slot : Nat) (i : Instr) (h : Head) (m : IssueMode) (rsv : Bool) (body : Dev → SlotAct) : Dev :=
  let c := d.core n
  let set := d.slotSet n h
  if c.perf.isSome then d.enginePerform n slot set i body
  else if d.issuing n = false then d
  else if c.acq.isSome then d.stallFor n 1
  else if c.bundleBad then d.badBundle n slot
  else if !c.begun && d.mustWait n then d.bundleStall n
  else match d.wordFate n slot with
    | some b => (if b then d.isaFault n set slot 1 0 else d).afterSlot n slot
    | none =>
      if d.acts n h m = false then d.afterSlot n slot
      else if rsv || (h.set && !(d.split n)) then (d.isaFault n set slot 1 0).afterSlot n slot
      else if c.parityBad 0 (d.readAtIssue n slot) i || (m != .free && c.badRegs.contains (32 + h.p.toNat)) then
        (d.isaFault n set slot 5 0).afterSlot n slot
      else d.slotPerform n slot i body

end Sys2Proof.Machine
end

