-- ==== Sys2Proof/Machine/ScalarInt.lean ====
section
/-! DEFINITION. S slot: integer arithmetic, compare and predicate logic (R212, R213). -/

namespace Sys2Proof.Machine

/-- Reserved encodings of the SA layout: operand b given twice, or a SUB the instruction does not admit (R207, R211). -/
def saRsv (f : FmtSA) (subOk : Bool) : Bool := (!f.i && f.imm != 0) || (f.i && f.b != 0) || !subOk

/-- An integer operation whose result is usable `lat` cycles after issue. -/
def Dev.sInt (d : Dev) (n : Nat) (i : Instr) (f : FmtSA) (lat : Nat) (rsv : Bool) (op : Word → Word → Word) : Dev :=
  d.slotIssue n 0 i f.hd .normal (saRsv f (f.sub == 0) || rsv) fun d =>
    .go (d.modCore n fun c => c.later lat 0 (.s f.d.toNat (op (c.sreg f.a.toNat) (saB c f))))

/-- A divide or remainder: a second one waits for the first, and the result is usable 20 cycles after it starts (R189). -/
def Dev.sDivide (d : Dev) (n : Nat) (i : Instr) (f : FmtSA) (op : Word → Word → Word) : Dev :=
  d.slotIssue n 0 i f.hd .normal (saRsv f (f.sub == 0)) fun d =>
    .go (d.modCore n fun c =>
      let w := c.divFree - c.cycle
      let c := c.later (20 + w) 0 (.s f.d.toNat (op (c.sreg f.a.toNat) (saB c f)))
      { c with divFree := c.cycle + w + 20 }.stall w)

/-- Signed quotient and remainder with the corner cases of R213. -/
def sdivOp (a b : Word) : Word := if b = 0 then -1 else a.sdiv b
def sremOp (a b : Word) : Word := if b = 0 then a else a.srem b
/-- Unsigned quotient and remainder with the corner cases of R213. -/
def udivOp (a b : Word) : Word := if b = 0 then -1 else a / b
def uremOp (a b : Word) : Word := if b = 0 then a else a % b

/-- The comparisons of SCMP (R212). -/
def cmpOp (sub : Nat) (a b : Word) : Bool :=
  match sub with
  | 0 => a == b
  | 1 => a != b
  | 2 => a.slt b
  | 3 => !(a.slt b)
  | 4 => a.ult b
  | _ => !(a.ult b)

/-- The predicate logic of PLOG (R212). -/
def plogOp (sub : Nat) (a b : Bool) : Bool :=
  match sub with
  | 0 => a && b
  | 1 => a || b
  | 2 => a != b
  | _ => a && !b

/-- A NOP has every bit but its opcode 0 (R206). -/
def nopRsv (f : FmtS0) : Bool := f.rsv != 0 || f.hd != ⟨false, 0, false⟩

/-- SNOP (R206, R212). -/
def execSnop (n : CoreId) (f : FmtS0) (s : State) : Out :=
  act s fun d => d.slotIssue n 0 (.snop n f) f.hd .normal (nopRsv f) .go

/-- SADD (R212). -/
def execSadd (n : CoreId) (f : FmtSA) (s : State) : Out :=
  act s fun d => d.sInt n (.sadd n f) f 1 false (· + ·)
/-- SSUB (R212). -/
def execSsub (n : CoreId) (f : FmtSA) (s : State) : Out :=
  act s fun d => d.sInt n (.ssub n f) f 1 false (· - ·)
/-- SAND (R212). -/
def execSand (n : CoreId) (f : FmtSA) (s : State) : Out :=
  act s fun d => d.sInt n (.sand n f) f 1 false (· &&& ·)
/-- SOR (R212). -/
def execSor (n : CoreId) (f : FmtSA) (s : State) : Out :=
  act s fun d => d.sInt n (.sor n f) f 1 false (· ||| ·)
/-- SXOR (R212). -/
def execSxor (n : CoreId) (f : FmtSA) (s : State) : Out :=
  act s fun d => d.sInt n (.sxor n f) f 1 false (· ^^^ ·)
/-- SSHL (R212). -/
def execSshl (n : CoreId) (f : FmtSA) (s : State) : Out :=
  act s fun d => d.sInt n (.sshl n f) f 1 false fun a b => a <<< (b.toNat % 64)
/-- SSHR (R212). -/
def execSshr (n : CoreId) (f : FmtSA) (s : State) : Out :=
  act s fun d => d.sInt n (.sshr n f) f 1 false fun a b => a >>> (b.toNat % 64)
/-- SSRA (R212). -/
def execSsra (n : CoreId) (f : FmtSA) (s : State) : Out :=
  act s fun d => d.sInt n (.ssra n f) f 1 false fun a b => a.sshiftRight (b.toNat % 64)
/-- SMIN (R212). -/
def execSmin (n : CoreId) (f : FmtSA) (s : State) : Out :=
  act s fun d => d.sInt n (.smin n f) f 1 false fun a b => if b.slt a then b else a
/-- SMAX (R212). -/
def execSmax (n : CoreId) (f : FmtSA) (s : State) : Out :=
  act s fun d => d.sInt n (.smax n f) f 1 false fun a b => if a.slt b then b else a
/-- SMINU (R212). -/
def execSminu (n : CoreId) (f : FmtSA) (s : State) : Out :=
  act s fun d => d.sInt n (.sminu n f) f 1 false fun a b => if b.ult a then b else a
/-- SMAXU (R212). -/
def execSmaxu (n : CoreId) (f : FmtSA) (s : State) : Out :=
  act s fun d => d.sInt n (.smaxu n f) f 1 false fun a b => if a.ult b then b else a
/-- SLUI: the immediate in bits [63:32] over sa[31:0]; I must be 1 (R212). -/
def execSlui (n : CoreId) (f : FmtSA) (s : State) : Out :=
  act s fun d => d.sInt n (.slui n f) f 1 (!f.i) fun a _ => BitVec.ofNat 64 (a.toNat % 2 ^ 32 + f.imm.toNat * 2 ^ 32)
/-- SMUL (R212). -/
def execSmul (n : CoreId) (f : FmtSA) (s : State) : Out :=
  act s fun d => d.sInt n (.smul n f) f 3 false (· * ·)
/-- SMULH (R212). -/
def execSmulh (n : CoreId) (f : FmtSA) (s : State) : Out :=
  act s fun d => d.sInt n (.smulh n f) f 3 false fun a b => BitVec.ofInt 64 (a.toInt * b.toInt / 2 ^ 64)
/-- SMULHU (R212). -/
def execSmulhu (n : CoreId) (f : FmtSA) (s : State) : Out :=
  act s fun d => d.sInt n (.smulhu n f) f 3 false fun a b => BitVec.ofNat 64 (a.toNat * b.toNat / 2 ^ 64)
/-- SDIV (R213). -/
def execSdiv (n : CoreId) (f : FmtSA) (s : State) : Out :=
  act s fun d => d.sDivide n (.sdiv n f) f sdivOp
/-- SDIVU (R213). -/
def execSdivu (n : CoreId) (f : FmtSA) (s : State) : Out :=
  act s fun d => d.sDivide n (.sdivu n f) f udivOp
/-- SREM (R213). -/
def execSrem (n : CoreId) (f : FmtSA) (s : State) : Out :=
  act s fun d => d.sDivide n (.srem n f) f sremOp
/-- SREMU (R213). -/
def execSremu (n : CoreId) (f : FmtSA) (s : State) : Out :=
  act s fun d => d.sDivide n (.sremu n f) f uremOp

/-- SCMP: a predicate field uses the low 3 bits of its 5 (R211, R212). -/
def execScmp (n : CoreId) (f : FmtSA) (s : State) : Out :=
  act s fun d => d.slotIssue n 0 (.scmp n f) f.hd .normal (saRsv f (decide (f.sub.toNat ≤ 5)) || decide (8 ≤ f.d.toNat)) fun d =>
    .go (d.modCore n fun c => c.later 1 0 (.p f.d.toNat (cmpOp f.sub.toNat (c.sreg f.a.toNat) (saB c f))))

/-- PLOG: I must be 0 (R212). -/
def execPlog (n : CoreId) (f : FmtSA) (s : State) : Out :=
  act s fun d => d.slotIssue n 0 (.plog n f) f.hd .normal
    (saRsv f (decide (f.sub.toNat ≤ 3)) || f.i || decide (8 ≤ f.d.toNat) || decide (8 ≤ f.a.toNat) || decide (8 ≤ f.b.toNat)) fun d =>
    .go (d.modCore n fun c => c.later 1 0 (.p f.d.toNat (plogOp f.sub.toNat (c.preg f.a.toNat) (c.preg f.b.toNat))))

end Sys2Proof.Machine
end

