-- ==== Sys2Proof/Machine/ScalarMem.lean ====
section
/-! DEFINITION. S slot: loads, stores, flags, atomics and selectors (R184, R185, R210, R214, R215, R218, R219), and what comes back
(R191, R202). -/

namespace Sys2Proof.Machine

/-- Access width of W (R210). -/
def widthOf (w : Nat) : Nat := 2 ^ w

/-! ## The scalar data cache (R129) -/

/-- The cached bytes of an access, if its line is present with right parity (R129). -/
def CoreSt.scHit (c : CoreSt) (a n : Nat) : Option (List Byte) :=
  if c.scBad.contains (a / 64) then none
  else match c.sc.find? (·.1 == a / 64) with
    | some (_, bs) => some ((bs.drop (a % 64)).take n)
    | none => none

/-- Keep at most `k` more lines of one set. -/
def scTrim (set : Nat) : Nat → List (Nat × List Byte) → List (Nat × List Byte)
  | _, [] => []
  | k, l :: ls =>
    if l.1 % 128 = set then (match k with | 0 => scTrim set 0 ls | k + 1 => l :: scTrim set k ls) else l :: scTrim set k ls

/-- Fill a line: 128 sets of 4 ways, the oldest of a full set leaves (log 13). -/
def CoreSt.scFill (c : CoreSt) (line : Nat) (bs : List Byte) : CoreSt :=
  { c with sc := scTrim (line % 128) 4 ((line, bs) :: c.sc.filter (·.1 ≠ line)), scBad := c.scBad.filter (· ≠ line) }

/-- A line leaves the cache. -/
def CoreSt.scDrop (c : CoreSt) (line : Nat) : CoreSt := { c with sc := c.sc.filter (·.1 ≠ line), scBad := c.scBad.filter (· ≠ line) }

/-- A store updates the copy of its line that the cache holds (R129). -/
def CoreSt.scStore (c : CoreSt) (a : Nat) (bs : List Byte) : CoreSt :=
  { c with sc := c.sc.map fun l =>
      if l.1 = a / 64 then (l.1, (l.2.take (a % 64) ++ bs ++ l.2.drop (a % 64 + bs.length)).take 64) else l }

/-- Loads of a core that are under way bring lines that the cache may no longer keep: those whose offset satisfies `g` (R306, R308). -/
def Dev.staleLoads (d : Dev) (n : Nat) (g : Nat → Bool) : Dev :=
  { d with home := { d.home with
      reqs := d.home.reqs.map fun r => if r.src / 2 = n ∧ g (r.addr % 2 ^ 44) then { r with stale := true } else r,
      resps := d.home.resps.map fun r => if r.src / 2 = n ∧ g (r.addr % 2 ^ 44) then { r with stale := true } else r } }

/-- Invalidate the scalar data cache; loads under way refill none of it (R129, R308). -/
def Dev.scInv (d : Dev) (n : Nat) : Dev := (d.staleLoads n fun _ => true).modCore n fun c => { c with sc := [], scBad := [] }

/-- A core's store leaves: its own cached copy takes the bytes, and a load of the line under way fills the cache no more (R129, R306). -/
def Dev.scWritten (d : Dev) (n a : Nat) (bs : List Byte) : Dev :=
  (d.staleLoads n fun x => x / 64 == a % 2 ^ 44 / 64).modCore n fun c => c.scStore a bs

/-- A core's atomic leaves: the bytes it will write are not known here, so its own cached copy goes (R219, R306). -/
def Dev.scAtomic (d : Dev) (n a : Nat) : Dev :=
  (d.staleLoads n fun x => x / 64 == a % 2 ^ 44 / 64).modCore n fun c => c.scDrop (a / 64)

/-- A FLAG.ACQ marks the landing-buffer cache lines of its job stale (R287). -/
def Dev.cacheStale (d : Dev) (tag : Nat) : Dev :=
  { d with str := { d.str with cache := d.str.cache.map fun l => if l.1 = tag then (l.1, l.2.1, true, l.2.2.2) else l } }

/-! ## Shared parts of the accesses -/

/-- Read a local location for the scalar engine: the value, the wait for frame slot 7, the latency, and whether a double error was read. -/
def Dev.scalarRead (d : Dev) (core p n : Nat) : Dev × List Byte × Nat × Nat × Bool :=
  let w := frameWait 2 (d.core core).cycle
  let d := d.feed core ((d.core core).cycle + w)
  let (d, ue) := d.eccRead core p n
  (d, d.scpRead core p n, w, w + 8 + 2 * farthest 2 p n, ue)

/-- Fault of a place that is none. -/
def Dev.placeFault (d : Dev) (n set slot engine a : Nat) : Place → Dev
  | .isa k => d.isaFault n set slot k a
  | .scp k => d.scpFault n set slot k engine a
  | _ => d

/-- A local scalar access ended by a double error (R123). -/
def Dev.scalarUe (d : Dev) (n set a : Nat) : Dev := d.scpFault n set 0 6 2 a

/-- Reserved encodings of the SM layout (R210, R214, R218): a flag takes 4 or 8 bytes. -/
def smRsv (f : FmtSM) (sxOk condOk flag : Bool) : Bool :=
  f.space == 3 || f.upd == 3 || (f.sx && !sxOk) || (f.cond != 0 && !condOk) || (flag && decide (f.w.toNat < 2))

/-- The request of a scalar access. -/
def Dev.scalarReq (d : Dev) (core set a : Nat) (op : ReqOp) (reg : Option Nat) (acq : Bool) : Req :=
  let c := d.core core
  { Req.of (coreSrc core set) (d.fld (ctxJob set core)) a op with reg := reg, acq := acq, kern := c.kern, bundle := c.bundle, no := c.no }

/-- An access is performed or sent: the base register takes its new value (R184). -/
def Dev.wrote (d : Dev) (n prio : Nat) (i : Instr) : Dev := d.modCore n fun c => c.writeBack prio i

/-- Whether a FLAG.REL of the set to the same bank of the own scratchpad waits: the bank performs the set's accesses in order (R306). -/
def Dev.bankHeld (d : Dev) (n set p : Nat) : Bool :=
  d.home.reqs.any fun r => r.src == coreSrc n set && !r.away && inOwn n r.addr && (r.addr - scpWin n) / 128 % 32 == p / 128 % 32

/-- A local access of the scalar engine: it waits for its bank, meets the debug option, or goes on (R111, R306). -/
def Dev.scalarLocal (d : Dev) (n set p a : Nat) (g : Dev → Dev) : SlotAct :=
  if d.bankHeld n set p then .wait 1 else .go (if d.slotFaults n 2 then d.scpFault n set 0 7 2 a else g d)

/-- A load's data reach a register (R113, R189); a double error faults, and the data are returned (R123). -/
def Dev.scalarLoad (d : Dev) (n set p a k : Nat) (i : Instr) (reg : Nat) (sx : Bool) : Dev :=
  let (d, bs, w, lat, ue) := d.scalarRead n p k
  let d := d.modCore n fun c => (c.later lat 0 (.s reg (extend sx bs))).stall w
  if ue then d.scalarUe n set a else d.wrote n 0 i

/-- A register awaits the answer to the request that leaves next (R189, R191); one to s0 is awaited by none (R219). -/
def Dev.scored (d : Dev) (n id reg : Nat) : Dev := if reg = 0 then d else d.modCore n fun c => { c with score := c.score ++ [⟨id, reg⟩] }

/-! ## Loads and stores (R214) -/

/-- SLD (R214). -/
def execSld (n : CoreId) (f : FmtSM) (s : State) : Out :=
  act s fun d => d.slotIssue n 0 (.sld n f) f.hd .normal (smRsv f true false false) fun d =>
    let set := d.slotSet n f.hd
    let a := (smEa (d.core n) f).toNat
    let k := widthOf f.w.toNat
    match d.place n set f.space.toNat a k true with
    | .here p => d.scalarLocal n set p a fun d => d.scalarLoad n set p a k (.sld n f) f.d.toNat f.sx
    | .there b =>
      match (d.core n).scHit b k with
      | some bs => .go ((d.modCore n fun c => c.later 3 0 (.s f.d.toNat (extend f.sx bs))).wrote n 0 (.sld n f))
      | none =>
        let d := if (d.core n).scBad.contains (b / 64) then
            (d.raise (F.SCP_EVENT_SC_PARITY n) n clsCorrected).modCore n fun c => c.scDrop (b / 64)
          else d
        .go (((d.issue (d.scalarReq n set b (.load k f.sx) (some f.d.toNat) false)).scored n d.home.nextId f.d.toNat).wrote n 0 (.sld n f))
    | q => .go (d.placeFault n set 0 2 a q)

/-- Store to a local location for the scalar engine (R109, R123). -/
def Dev.scalarStore (d : Dev) (n set p a : Nat) (bs : List Byte) (i : Instr) : Dev :=
  if (d.core n).badStore p bs.length then (d.eccRead n p bs.length).1.scalarUe n set a
  else
    let w := frameWait 2 (d.core n).cycle
    (((d.feed n ((d.core n).cycle + w)).scpWrite n p bs).modCore n fun c => c.stall w).wrote n 0 i

/-- SST (R214). -/
def execSst (n : CoreId) (f : FmtSM) (s : State) : Out :=
  act s fun d => d.slotIssue n 0 (.sst n f) f.hd .normal (smRsv f false false false) fun d =>
    let set := d.slotSet n f.hd
    let a := (smEa (d.core n) f).toNat
    let bs := leBytes (widthOf f.w.toNat) ((d.core n).sreg f.d.toNat).toNat
    match d.place n set f.space.toNat a bs.length false with
    | .here p => d.scalarLocal n set p a fun d => d.scalarStore n set p a bs (.sst n f)
    | .there b => .go (((d.issue (d.scalarReq n set b (.store bs) none false)).scWritten n b bs).wrote n 0 (.sst n f))
    | q => .go (d.placeFault n set 0 2 a q)

/-! ## FLAG.REL and FLAG.ACQ (R218) -/

/-- The writes of a set that a FLAG.REL of bundle `no` must follow, as requests and as descriptors (R218, R309). -/
def Dev.relNeeds (d : Dev) (core set no : Nat) : List Nat × List Nat :=
  ((d.home.reqs.filter fun r => r.src == coreSrc core set && r.op.writes).map (·.id),
   (d.str.descs.filter fun q => q.core == core && q.set == set && !q.cancelled && decide (q.no < no)).map (·.id))

/-- The store of a FLAG.REL waits at its home for the writes it follows. -/
def Dev.releaseTo (d : Dev) (n set b : Nat) (bs : List Byte) : Dev :=
  let (need, needDesc) := d.relNeeds n set (d.core n).no
  (d.issue { d.scalarReq n set b (.store bs) none false with need := need, needDesc := needDesc, rel := true }).scWritten n b bs

/-- A FLAG.REL to the own scratchpad: its store waits at the bank for the writes it follows, or with none is performed at once; neither stalls
(R218, log 169). -/
def Dev.releaseHere (d : Dev) (n set p a : Nat) (bs : List Byte) : Dev :=
  let c := d.core n
  let (need, needDesc) := d.relNeeds n set c.no
  if need.isEmpty && needDesc.isEmpty && c.enginesPast (d.split n) set c.no then
    if c.badStore p bs.length then (d.eccRead n p bs.length).1.scalarUe n set a
    else (d.feed n (c.cycle + frameWait 2 c.cycle)).scpWrite n p bs
  else d.releaseTo n set (d.slotNo * 2 ^ 44 + scpWin n + p) bs

/-- FLAG.REL: issues in one cycle; the store is performed after every earlier write of its set (R218). -/
def execFlagRel (n : CoreId) (f : FmtSM) (s : State) : Out :=
  act s fun d => d.slotIssue n 0 (.flagRel n f) f.hd .normal (smRsv f false false true) fun d =>
    let set := d.slotSet n f.hd
    let a := (smEa (d.core n) f).toNat
    let bs := leBytes (widthOf f.w.toNat) ((d.core n).sreg f.d.toNat).toNat
    .go (match d.place n set f.space.toNat a bs.length false with
    | .here p => (d.releaseHere n set p a bs).wrote n 0 (.flagRel n f)
    | .there b => (d.releaseTo n set b bs).wrote n 0 (.flagRel n f)
    | q => d.placeFault n set 0 2 a q)

/-- The condition of a waiting FLAG.ACQ (R218). -/
def acqCond (cond : Nat) (v old : Word) : Bool :=
  match cond with
  | 0 => true
  | 1 => v == old
  | 2 => old.ule v
  | _ => v != old

/-- A FLAG.ACQ ends with its value: the register is written and the caches are invalidated (R129, R218, R287). -/
def Dev.acqDone (d : Dev) (n : Nat) (q : Acq) (v : Word) : Dev :=
  ((d.cacheStale (d.fld (ctxJob q.set n))).scInv n).modCore n fun c => { c.setS q.reg v with acq := none }

/-- A value arrives for a FLAG.ACQ: it ends, or waits to read again (R218). -/
def Dev.acqValue (d : Dev) (n : Nat) (q : Acq) (v : Word) : Dev :=
  if acqCond q.cond (if q.wide then v else BitVec.ofNat 64 (v.toNat % 2 ^ 32)) q.old then d.acqDone n q v
  else d.modCore n fun c => { c with acq := some { q with req := none } }

/-- A FLAG.ACQ reads its location in the own scratchpad; a double error ends it with its data and faults (R123, R218). -/
def Dev.acqLocal (d : Dev) (n p : Nat) (q : Acq) (k : Nat) : Dev :=
  let (d, bs, _, lat, ue) := d.scalarRead n p k
  let d := d.modCore n fun c => c.stall lat
  let v := extend q.sx bs
  if ue then (d.modCore n fun c => { c.setS q.reg v with acq := none }).scalarUe n q.set q.addr else d.acqValue n q v

/-- A FLAG.ACQ sends for its location. -/
def Dev.acqSend (d : Dev) (n b : Nat) (q : Acq) (k : Nat) : Dev :=
  (d.issue (d.scalarReq n q.set b (.load k q.sx) (some q.reg) true)).modCore n fun c => { c with acq := some { q with req := some d.home.nextId } }

/-- FLAG.ACQ (R218): the old value is read at issue, and no later bundle issues until it ends; the invalidation costs 1 cc. -/
def execFlagAcq (n : CoreId) (f : FmtSM) (s : State) : Out :=
  act s fun d => d.slotIssue n 0 (.flagAcq n f) f.hd .normal (smRsv f true true true) fun d =>
    let c := d.core n
    let set := d.slotSet n f.hd
    let a := (smEa c f).toNat
    let k := widthOf f.w.toNat
    let old := if f.w = 3 then c.sreg f.d.toNat else BitVec.ofNat 64 ((c.sreg f.d.toNat).toNat % 2 ^ 32)
    let q : Acq := ⟨f.d.toNat, old, f.cond.toNat, f.w == 3, f.sx, f.space.toNat, a, set, none⟩
    match d.place n set f.space.toNat a k true with
    | .here p => d.scalarLocal n set p a fun d => (d.acqLocal n p q k).wrote n 0 (.flagAcq n f)
    | .there b => .go ((d.acqSend n b q k).wrote n 0 (.flagAcq n f))
    | r => .go (d.placeFault n set 0 2 a r)

/-- A waiting FLAG.ACQ reads its location again 32 cc after its value arrived (R218). -/
def execFlagAcqReread (n : CoreId) (s : State) : Out :=
  act s fun d =>
    match (d.core n).acq with
    | some q =>
      if q.req.isSome then d
      else
        let d := d.stallFor n 32
        let k := if q.wide then 8 else 4
        match d.place n q.set q.space q.addr k true with
        | .here p =>
          let (d, bs, _, lat, ue) := d.scalarRead n p k
          let d := d.stallFor n lat
          let v := extend q.sx bs
          if ue then (d.modCore n fun c => { c.setS q.reg v with acq := none }).scalarUe n q.set q.addr else d.acqValue n q v
        | .there b => d.acqSend n b q k
        | r => (d.modCore n fun c => { c with acq := none }).placeFault n q.set 0 2 q.addr r
    | none => d

/-! ## Atomics (R219) -/

/-- Reserved encodings of an atomic (R210, R219): FP32 only with ADD, MIN or MAX on 4 bytes. -/
def sxRsv (aop : Nat) (f : FmtSX) : Bool :=
  f.space == 3 || f.upd == 3 || (f.fp && (f.w64 || decide (2 < aop)))

/-- The single errors that a read has corrected leave with the write of the same access (R109, R123). -/
def CoreSt.repaired (c : CoreSt) (a n : Nat) : CoreSt :=
  let hit := (c.badIn a n).filter fun q => !q.2
  { c with badCw := c.badCw.filter (fun q => !(hit.contains q)), fixing := c.fixing.filter fun w => !(hit.contains (w, false)) }

/-- An atomic at the home of its address (R219). -/
def Dev.atom (d : Dev) (n : Nat) (i : Instr) (aop : Nat) (f : FmtSX) : Dev :=
  d.slotIssue n 0 i f.hd .normal (sxRsv aop f) fun d =>
    let c := d.core n
    let set := d.slotSet n f.hd
    let a := (sxEa c f).toNat
    let k := if f.w64 then 8 else 4
    let sv := (c.sreg f.v.toNat).toNat
    let sc := (c.sreg f.c.toNat).toNat
    match d.place n set f.space.toNat a k true with
    | .here p => d.scalarLocal n set p a fun d =>
      if (d.core n).badStore p k then (d.eccRead n p k).1.scalarUe n set a
      else
        let old := leNat ((d.feed n (c.cycle + frameWait 2 c.cycle)).scpRead n p k)
        let d := d.scalarLoad n set p a k i f.d.toNat false
        if (d.core n).badIn p k |>.any (·.2) then d
        else (d.modCore n fun c => c.repaired p k).scpWrite n p (leBytes k (atomicNew aop f.w64 f.fp old sv sc))
    | .there g =>
      let reg := if f.d = 0 then none else some f.d.toNat
      .go ((((d.issue (d.scalarReq n set g (.atomic aop f.w64 f.fp sv sc) reg false)).scored n d.home.nextId f.d.toNat).scAtomic n g).wrote n 0 i)
    | q => .go (d.placeFault n set 0 2 a q)

/-- ATOM.ADD (R219). -/
def execAtomAdd (n : CoreId) (f : FmtSX) (s : State) : Out := act s fun d => d.atom n (.atomAdd n f) 0 f
/-- ATOM.MIN (R219). -/
def execAtomMin (n : CoreId) (f : FmtSX) (s : State) : Out := act s fun d => d.atom n (.atomMin n f) 1 f
/-- ATOM.MAX (R219). -/
def execAtomMax (n : CoreId) (f : FmtSX) (s : State) : Out := act s fun d => d.atom n (.atomMax n f) 2 f
/-- ATOM.MINU (R219). -/
def execAtomMinu (n : CoreId) (f : FmtSX) (s : State) : Out := act s fun d => d.atom n (.atomMinu n f) 3 f
/-- ATOM.MAXU (R219). -/
def execAtomMaxu (n : CoreId) (f : FmtSX) (s : State) : Out := act s fun d => d.atom n (.atomMaxu n f) 4 f
/-- ATOM.SWAP (R219). -/
def execAtomSwap (n : CoreId) (f : FmtSX) (s : State) : Out := act s fun d => d.atom n (.atomSwap n f) 5 f
/-- ATOM.CAS (R219). -/
def execAtomCas (n : CoreId) (f : FmtSX) (s : State) : Out := act s fun d => d.atom n (.atomCas n f) 6 f

/-! ## Selectors -/

/-- The value of a selector (R215, Table 6). -/
def Dev.selector (d : Dev) (n set k : Nat) : Option Word :=
  let c := d.core n
  match k with
  | 0 => some (BitVec.ofNat 64 c.cycle)
  | 1 => some (d.reg R.TCK_NUMBER)
  | 2 => some (d.reg R.TCK_SCHED)
  | 3 => some (BitVec.ofNat 64 (d.fld (ctxId set n) + d.fld (ctxJob set n) * 2 ^ 16 + set * 2 ^ 32))
  | 4 => some (BitVec.ofNat 64 n)
  | 5 => some (BitVec.ofNat 64 (d.fld F.TTH_STATION_STATION))
  | 6 => some (BitVec.ofNat 64 d.slotNo)
  | k => if 8 ≤ k ∧ k ≤ 15 then some ((c.dcOf set (k - 8)).setWidth 64) else none

/-- SRDS: I must be 1 and sa s0; any other selector is reserved (R215). -/
def execSrds (n : CoreId) (f : FmtSA) (s : State) : Out :=
  act s fun d => d.slotIssue n 0 (.srds n f) f.hd .normal
    (!f.i || f.a != 0 || f.b != 0 || f.sub != 0 || (d.selector n (b2n f.hd.set) f.imm.toNat).isNone) fun d =>
    .go (d.modCore n fun c => c.later 1 0 (.s f.d.toNat ((d.selector n (b2n f.hd.set) f.imm.toNat).getD 0)))

/-- Whether an answer or a request belongs to a core's S slots. -/
def ofCore (n src : Nat) : Bool := src == coreSrc n 0 || src == coreSrc n 1

/-- Deliver a value to the register or the FLAG.ACQ that awaits it (R191, R218), and keep its line in the cache (R129) unless the line has become
stale. What a kernel that has ended asked for reaches no register. -/
def Dev.deliver (d : Dev) (n id kern : Nat) (reg : Option Nat) (acq : Bool) (v : Word) (addr : Nat) (line : List Byte) (stale : Bool) : Dev :=
  if (d.core n).kern ≠ kern then d
  else if acq then
    match (d.core n).acq with
    | some q => if q.req = some id then d.acqValue n q v else d
    | none => d
  else
    let d := if line.length = 64 && !stale then d.modCore n fun c => c.scFill (addr / 64) line else d
    match reg with
    | some r => d.modCore n fun c => { c.setS r v with score := c.score.filter (·.req ≠ id) }
    | none => d

/-- The value a request takes from the line that a peer returned. -/
def lineValue (r : Req) (line : List Byte) : Word :=
  match r.op with
  | .load k sx => extend sx (((line.drop (r.addr % 64)) ++ zeros k).take k)
  | _ => BitVec.ofNat 64 (leNat (line.take 8))

/-- SCOREBOARD_ARRIVAL: the oldest answer that carries no error reaches its register; with none waiting, the oldest request of the core that
left for a peer is answered with the line given (R191). -/
def execScoreboardArrival (n : CoreId) (line : List Byte) (s : State) : Out :=
  act s fun d =>
    match d.home.resps.find? (fun r => ofCore n r.src && !r.err) with
    | some r =>
      let d := { d with home := { d.home with resps := d.home.resps.erase r } }
      d.deliver n r.id r.kern r.reg r.acq r.value (d.slotNo * 2 ^ 44 + r.addr) r.line r.stale
    | none =>
      match d.home.reqs.find? (fun r => ofCore n r.src && r.away) with
      | some r => (d.unwait r.id).deliver n r.id r.kern r.reg r.acq (lineValue r line) r.addr (if r.op.writes then [] else line) r.stale
      | none => d

/-- An error comes back for a request of a core: its register waits no more, a FLAG.ACQ ends, and its kernel faults (R191, R202, R218). -/
def Dev.failed (d : Dev) (n id src kern bundle addr : Nat) : Dev :=
  let d := d.modCore n fun c =>
    { c with score := c.score.filter (·.req ≠ id),
             acq := match c.acq with
               | some q => if q.req = some id then none else some q
               | none => none }
  d.asyncFault n (src % 2) kern bundle (d.fld (ctxJob (src % 2) n)) addr

/-- ASYNC_FAULT: an error returns after its instruction issued (R202); ISA KIND 6 of the set that issued it. -/
def execAsyncFault (n : CoreId) (s : State) : Out :=
  act s fun d =>
    match d.home.resps.find? (fun r => ofCore n r.src && r.err) with
    | some r => ({ d with home := { d.home with resps := d.home.resps.erase r } }).failed n r.id r.src r.kern r.bundle r.addr
    | none =>
      match d.home.reqs.find? (fun r => ofCore n r.src && r.away) with
      | some r => (d.unwait r.id).failed n r.id r.src r.kern r.bundle (r.addr % 2 ^ 44)
      | none => d

end Sys2Proof.Machine
end

