-- ==== Sys2Proof/Machine/Grant.lean ====
section
/-! DEFINITION. Ownership of HBM by GiB: grants and what they cover (R390). -/

namespace Sys2Proof.Machine

/-- The GiB of HBM that n bytes from a device offset on touch. -/
def gibsOf (a n : Nat) : List Nat :=
  if n = 0 ∨ hbmSize ≤ a then [] else (List.range ((a + n - 1) / 2 ^ 30 + 1 - a / 2 ^ 30)).map (a / 2 ^ 30 + ·)

/-- Admit a grant over some GiB for a job tag: each then reads that OWNER, and CLEAN 0; a firmware grant changes neither. -/
def Dev.grant (d : Dev) (gibs : List Nat) (job : Nat) : Option Dev :=
  if job = 0xFFFF then (if gibs.all (· == 383) then some d else none)
  else if gibs.all fun g => d.bit (F.SEC_GIB_CLEAN g) || d.fld (F.SEC_GIB_OWNER g) == job then
    some (gibs.foldl (fun d g => (d.setFld (F.SEC_GIB_OWNER g) job).setFld (F.SEC_GIB_CLEAN g) 0) d)
  else none

/-- A write with VALID = 1 of a grant register: performed when admitted, otherwise discarded with DIRTY_ALLOC. -/
def Dev.granted (d : Dev) (gibs : List Nat) (job : Nat) (g : Dev → Dev) : Dev :=
  match d.grant gibs job with
  | some d => g d
  | none => d.raise F.SEC_EVENT_DIRTY_ALLOC 0 clsInfo

/-- The HBM range of a core set: base and length in bytes. -/
def Dev.setHbm (d : Dev) (n set : Nat) : Nat × Nat := (d.fld (ctxHbmBase set n) * 65536, d.fld (ctxHbmBound set n) * 65536)

/-- A write of KEL_JRn (R331, R337, R390). -/
def Dev.writeJr (d : Dev) (i v : Nat) : Dev :=
  let off := R.KEL_JR i
  let first := F.KEL_JR_FIRST_GIB i |>.ofNat v
  let last := F.KEL_JR_LAST_GIB i |>.ofNat v
  if 383 < first ∨ 383 < last then d.rsvWrite off
  else if bitOf v 63 then
    d.granted ((List.range (last + 1 - first)).map (first + ·)) (F.KEL_JR_JOB i |>.ofNat v) fun d => d.plain off v
  else d.plain off v

/-- A write of DEV_WINk_CTL (R301, R390). -/
def Dev.writeWin (d : Dev) (k v : Nat) : Dev :=
  let off := R.DEV_WIN_CTL k
  let sz := F.DEV_WIN_CTL_SIZE_LOG2 k |>.ofNat v
  let base := d.fld (F.DEV_WIN_BASE_BASE k) * 65536
  if sz < 16 ∨ 34 < sz then d.rsvWrite off
  else if bitOf v 63 then
    match regionOf base (2 ^ sz) with
    | .hbm => d.granted (gibsOf base (2 ^ sz)) (F.DEV_WIN_CTL_JOB k |>.ofNat v) fun d => d.plain off v
    | .scratch => d.plain off v
    | _ => d.raise F.DEV_WIN_EVENT_CONFIG_ERR 0 clsInfo
  else d.plain off v

/-- A write of ETH_MR_CTL of a region (R364, R374, R390); a region that lies in neither HBM nor scratchpad is refused at its use. -/
def Dev.writeMr (d : Dev) (i v : Nat) : Dev :=
  let sz := F.ETH_MR_CTL_SIZE_LOG2 i |>.ofNat v
  let base := d.fld (F.ETH_MR_BASE_BASE i) * 64
  let put := fun (d : Dev) => d.setReg (R.ETH_MR_CTL i) (BitVec.ofNat 64 v &&& 0xE0FCFFFF00FFFFFF)
  if sz < 12 ∨ 34 < sz then d.rsvWrite 0x80048
  else if bitOf v 63 && decide (base < hbmSize) then d.granted (gibsOf base (2 ^ sz)) (F.ETH_MR_CTL_JOB i |>.ofNat v) put
  else put d

/-- The job a grant register admits, with the GiB it covers; none while VALID reads 0 or it lies outside HBM. -/
def Dev.grants (d : Dev) : List (Nat × List Nat) :=
  (((List.range 16).filter fun i => d.bit (F.KEL_JR_VALID i)).map fun i =>
    (d.fld (F.KEL_JR_JOB i), (List.range (d.fld (F.KEL_JR_LAST_GIB i) + 1 - d.fld (F.KEL_JR_FIRST_GIB i))).map (d.fld (F.KEL_JR_FIRST_GIB i) + ·))) ++
  (((List.range 288).filter fun i => d.bit (ctxValid (i % 2) (i / 2))).map fun i =>
    (d.fld (ctxJob (i % 2) (i / 2)), gibsOf (d.setHbm (i / 2) (i % 2)).1 (d.setHbm (i / 2) (i % 2)).2)) ++
  (((List.range 64).filter fun k => d.bit (F.DEV_WIN_CTL_VALID k)).map fun k =>
    (d.fld (F.DEV_WIN_CTL_JOB k), gibsOf (d.fld (F.DEV_WIN_BASE_BASE k) * 65536) (2 ^ d.fld (F.DEV_WIN_CTL_SIZE_LOG2 k)))) ++
  (((List.range 256).filter fun i => d.bit (F.ETH_MR_CTL_VALID i)).map fun i =>
    (d.fld (F.ETH_MR_CTL_JOB i), gibsOf (d.fld (F.ETH_MR_BASE_BASE i) * 64) (2 ^ d.fld (F.ETH_MR_CTL_SIZE_LOG2 i))))

/-- VALID of a core set clears, and with it the core's scalar cache (R129). -/
def Dev.revokeSet (d : Dev) (n set : Nat) : Dev := if d.bit (ctxValid set n) then (d.setFld (ctxValid set n) 0).scInv n else d

/-- VALID clears in every grant register that names a job (R391); grants outside HBM stay. -/
def Dev.revoke (d : Dev) (job : Nat) : Dev :=
  let d := (List.range 16).foldl (fun d i => if d.fld (F.KEL_JR_JOB i) = job then d.setFld (F.KEL_JR_VALID i) 0 else d) d
  let d := (List.range 288).foldl (fun d i =>
    if d.fld (ctxJob (i % 2) (i / 2)) = job then d.revokeSet (i / 2) (i % 2) else d) d
  let d := (List.range 64).foldl (fun d k =>
    if d.fld (F.DEV_WIN_CTL_JOB k) = job ∧ d.fld (F.DEV_WIN_BASE_BASE k) * 65536 < hbmSize then d.setFld (F.DEV_WIN_CTL_VALID k) 0 else d) d
  (List.range 256).foldl (fun d i =>
    if d.fld (F.ETH_MR_CTL_JOB i) = job ∧ d.fld (F.ETH_MR_BASE_BASE i) * 64 < hbmSize then d.setFld (F.ETH_MR_CTL_VALID i) 0 else d) d

end Sys2Proof.Machine
end

