-- ==== Sys2Proof/Machine/Codec.lean ====
section
/-! DEFINITION. Blocks, code tables and table slots of the codec (R241 to R251, R262). -/

namespace Sys2Proof.Machine

/-! ## Code tables (R244, R245) -/

/-- Code length of symbol s. -/
def codeLen (t : List Byte) (s : Nat) : Nat := (t.getD (s / 2) 0).toNat / 16 ^ (s % 2) % 16

/-- The 256 lengths of a table. -/
def codeLens (t : List Byte) : List Nat := (List.range 256).map (codeLen t)

/-- A table from its lengths. -/
def tableOf (ls : List Nat) : List Byte := (List.range 128).map fun i => BitVec.ofNat 8 (ls.getD (2 * i) 0 + 16 * ls.getD (2 * i + 1) 0)

/-- The Kraft sum × 4,096 of the symbols that have codes. -/
def kraft (ls : List Nat) : Nat := (ls.map fun l => if l = 0 then 0 else 2 ^ (12 - l)).sum

/-- Whether a table is valid. -/
def tableOk (t : List Byte) : Bool :=
  let ls := codeLens t
  t.length == 128 && ls.all (· ≤ 12) && ls.any (· ≠ 0) && decide (kraft ls ≤ 4096)

/-- Canonical codewords: (length, codeword, symbol), by length and then symbol. -/
def codewords (ls : List Nat) : List (Nat × Nat × Nat) :=
  ((List.range 12).foldl (fun (r : Nat × List (Nat × Nat × Nat)) k =>
    let l := k + 1
    let r := (List.range 256).foldl (fun (r : Nat × List (Nat × Nat × Nat)) s =>
      if ls.getD s 0 = l then (r.1 + 1, r.2 ++ [(l, r.1, s)]) else r) r
    (2 * r.1, r.2)) (0, [])).2

/-- Bits of a codeword, most significant first. -/
def msbBits : Nat → Nat → List Bool
  | 0, _ => []
  | n + 1, v => bitOf v n :: msbBits n v

/-- Bits of bytes, bit 0 of byte 0 first. -/
def lsbBits (bs : List Byte) : List Bool := bs.flatMap fun b => (List.range 8).map fun i => b.getLsbD i

/-- Bytes filled from bit 0 upward. -/
def bitBytes : Nat → List Bool → List Byte
  | 0, _ => []
  | _, [] => []
  | k + 1, bs => BitVec.ofNat 8 ((List.range 8).foldl (fun v i => v + b2n (bs.getD i false) * 2 ^ i) 0) :: bitBytes k (bs.drop 8)

/-- The bitstream of data under a table, or none when a symbol has no code. -/
def encodeBits (cw : List (Nat × Nat × Nat)) : List Byte → Option (List Bool)
  | [] => some []
  | b :: bs =>
    match cw.find? (fun w => w.2.2 == b.toNat) with
    | none => none
    | some w => (encodeBits cw bs).map (msbBits w.1 w.2.1 ++ ·)

/-- Decode n bytes: the data, or the KIND of Table 5 (17, 18). `l` and `c` are the bits of the codeword begun. -/
def decodeBits (cw : List (Nat × Nat × Nat)) : List Bool → Nat → Nat → Nat → Except Nat (List Byte)
  | rest, 0, _, _ => if rest.any id then .error 18 else .ok []
  | [], _ + 1, _, _ => .error 18
  | b :: bs, n + 1, l, c =>
    let c := 2 * c + b2n b
    match cw.find? (fun w => w.1 == l + 1 && w.2.1 == c) with
    | some w => (decodeBits cw bs n 0 0).map (BitVec.ofNat 8 w.2.2 :: ·)
    | none => if l + 1 = 12 then .error 17 else decodeBits cw bs (n + 1) (l + 1) c

/-! ## BUILD (R246) -/

/-- A Huffman node: its key (sum, id) and its leaves. -/
structure HNode where
  sum : Nat
  id : Nat
  syms : List Nat
deriving DecidableEq, Repr

/-- Insert by key. -/
def hInsert (n : HNode) : List HNode → List HNode
  | [] => [n]
  | m :: ms => if n.sum < m.sum ∨ (n.sum = m.sum ∧ n.id < m.id) then n :: m :: ms else m :: hInsert n ms

/-- Merge the two nodes of smallest key until one is left; every leaf of a merge is one deeper. -/
def huffman : Nat → Nat → List HNode → List Nat → List Nat
  | 0, _, _, ls => ls
  | fuel + 1, id, a :: b :: ms, ls =>
    let syms := a.syms ++ b.syms
    huffman fuel (id + 1) (hInsert ⟨a.sum + b.sum, id, syms⟩ ms) (ls.zipIdx.map fun p => if syms.contains p.2 then p.1 + 1 else p.1)
  | _, _, _, ls => ls

/-- The better of two candidates of step 2: least count, then greater length, then greater symbol. -/
def lengthenBetter (cs ls : List Nat) (a b : Nat) : Bool :=
  let ca := cs.getD a 0
  let cb := cs.getD b 0
  let la := ls.getD a 0
  let lb := ls.getD b 0
  decide (ca < cb) || (ca == cb && (decide (lb < la) || (la == lb && decide (b < a))))

/-- Step 2: lengthen while the Kraft sum exceeds 4,096. -/
def limit12 (cs : List Nat) : Nat → List Nat → List Nat
  | 0, ls => ls
  | fuel + 1, ls =>
    if kraft ls ≤ 4096 then ls
    else
      let cand := (List.range 256).filter fun s => ls.getD s 0 != 0 && decide (ls.getD s 0 < 12)
      match cand with
      | [] => ls
      | x :: xs =>
        let s := xs.foldl (fun m y => if lengthenBetter cs ls y m then y else m) x
        limit12 cs fuel (ls.set s (ls.getD s 0 + 1))

/-- Shorten one symbol while room is left. -/
def shorten (s : Nat) : Nat → List Nat → List Nat
  | 0, ls => ls
  | fuel + 1, ls =>
    let l := ls.getD s 0
    if 1 < l ∧ kraft ls + 2 ^ (12 - l) ≤ 4096 then shorten s fuel (ls.set s (l - 1)) else ls

/-- Insert into decreasing count, smaller symbol first. -/
def freqInsert (cs : List Nat) (s : Nat) : List Nat → List Nat
  | [] => [s]
  | t :: ts => if cs.getD t 0 < cs.getD s 0 ∨ (cs.getD t 0 = cs.getD s 0 ∧ s < t) then s :: t :: ts else t :: freqInsert cs s ts

/-- The lengths of a histogram; none when it is empty. -/
def buildLens (cs : List Nat) : Option (List Nat) :=
  let present := (List.range 256).filter fun s => cs.getD s 0 != 0
  match present with
  | [] => none
  | [s] => some ((List.replicate 256 0).set s 1)
  | _ =>
    let nodes := present.foldl (fun ns s => hInsert ⟨cs.getD s 0, s, [s]⟩ ns) []
    let ls := (huffman 256 256 nodes (List.replicate 256 0)).map (min 12)
    let ls := limit12 cs 4096 ls
    some ((present.foldl (fun o s => freqInsert cs s o) []).foldl (fun ls s => shorten s 12 ls) ls)

/-! ## Blocks (R241 to R243, R258) -/

/-- A block header (Table 1). -/
structure BlockHdr where
  mode : Nat
  core : Nat
  slot : Nat
  gen : Nat
  flags : Nat
  raw : Nat
  coded : Nat
  index : Nat
  crc : Nat
  rsv : Bool
deriving DecidableEq, Repr

/-- Read a header. -/
def blockHdr (bs : List Byte) : BlockHdr :=
  let b := fun i => (bs.getD i 0).toNat
  ⟨b 0 % 4, b 0 / 16, b 1 % 16, b 2, b 3, kNat bs 4 2, kNat bs 6 2, kNat bs 8 4, kNat bs 12 4,
    b 0 / 4 % 4 != 0 || decide (16 ≤ b 1) || decide (4 ≤ b 3)⟩

/-- The header's bytes. -/
def BlockHdr.bytes (h : BlockHdr) : List Byte :=
  leBytes 1 (h.mode + 16 * h.core) ++ leBytes 1 h.slot ++ leBytes 1 h.gen ++ leBytes 1 h.flags ++ leBytes 2 h.raw ++ leBytes 2 h.coded ++
    leBytes 4 h.index ++ leBytes 4 h.crc

/-- Stored bytes of a block: its header and its body padded to 16. -/
def BlockHdr.stored (h : BlockHdr) : Nat := 16 + ceilDiv h.coded 16 * 16

/-- FIRST and LAST. -/
def BlockHdr.first (h : BlockHdr) : Bool := bitOf h.flags 0
def BlockHdr.last (h : BlockHdr) : Bool := bitOf h.flags 1

/-- Whether a header breaks Table 1: KIND 19. -/
def BlockHdr.bad (h : BlockHdr) : Bool :=
  h.rsv || h.mode == 3 || decide (12 ≤ h.core) || h.raw == 0 || decide (4096 < h.raw) ||
    (match h.mode with
    | 0 => h.coded != h.raw || h.slot != 0 || h.gen != 0
    | 1 => decide (h.coded = 0) || decide (15 * h.raw / 16 < h.coded) || decide (h.raw < 129) || h.gen == 0
    | _ => h.coded != 0 || h.slot != 0 || h.gen != 0)

/-- Decode a block's body under a table: the data or a KIND (16 to 18). -/
def decodeBody (h : BlockHdr) (table : List Byte) (body : List Byte) : Except Nat (List Byte) :=
  let data : Except Nat (List Byte) :=
    match h.mode with
    | 0 => .ok (body.take h.raw)
    | 1 => decodeBits (codewords (codeLens table)) (lsbBits (body.take h.coded)) h.raw 0 0
    | _ => .ok (zeros h.raw)
  match data with
  | .error k => .error k
  | .ok bs =>
    if (body.drop h.coded).any (· ≠ 0) then .error 18
    else if crc32c bs ≠ h.crc then .error 16 else .ok bs

/-- Build a block of data (R243): the header and the stored bytes. Coding is tried when a table is given. -/
def makeBlock (table : Option (List Byte × Nat × Nat)) (core flags index : Nat) (bs : List Byte) : BlockHdr × List Byte :=
  let crc := crc32c bs
  let n := bs.length
  let raw : BlockHdr × List Byte := (⟨0, core, 0, 0, flags, n, n, index, crc, false⟩, bs)
  let (h, body) :=
    if bs.all (· = 0) then ((⟨2, core, 0, 0, flags, n, 0, index, crc, false⟩, []) : BlockHdr × List Byte)
    else if n < 129 then raw
    else match table with
      | none => raw
      | some (t, slot, gen) =>
        match encodeBits (codewords (codeLens t)) bs with
        | none => raw
        | some bits =>
          let c := ceilDiv bits.length 8
          if 16 * c ≤ 15 * n then (⟨1, core, slot, gen, flags, n, c, index, crc, false⟩, bitBytes c bits) else raw
  (h, h.bytes ++ body ++ zeros (ceilDiv h.coded 16 * 16 - h.coded))

/-! ## Table slots (R247 to R251) -/

/-- Number of a context's table slot. -/
def tslot (ctx slot : Nat) : Nat := 16 * ctx + slot

/-- The HBM offset of its table (R247). -/
def Dev.tableAt (d : Dev) (k : Nat) : Nat := d.fld F.CDC_TDIR_BASE * 2 ^ 22 + 128 * k

/-- Take or release a reference (R249). -/
def Dev.refSlot (d : Dev) (k : Nat) : Dev := d.setFld (F.CDC_SLOT_GEN_REFS k) (d.fld (F.CDC_SLOT_GEN_REFS k) + 1)
def Dev.unrefSlot (d : Dev) (k : Nat) : Dev := d.setFld (F.CDC_SLOT_GEN_REFS k) (d.fld (F.CDC_SLOT_GEN_REFS k) - 1)

/-- The table a unit holds (R251). -/
def Dev.heldTable (d : Dev) (unit k : Nat) : Option (List Byte) :=
  (d.codec.held.find? fun h => h.1 == unit && h.2.1 == k).map (·.2.2)

/-- Keep at most 32 tables of a unit, newest first. -/
def heldTrim (unit : Nat) : Nat → List (Nat × Nat × List Byte) → List (Nat × Nat × List Byte)
  | _, [] => []
  | k, h :: hs =>
    if h.1 = unit then (match k with | 0 => heldTrim unit 0 hs | k + 1 => h :: heldTrim unit k hs) else h :: heldTrim unit k hs

/-- A unit takes a table, or uses it again. -/
def Dev.holdTable (d : Dev) (unit k : Nat) (t : List Byte) : Dev :=
  let rest := d.codec.held.filter fun h => !(h.1 == unit && h.2.1 == k)
  { d with codec := { d.codec with held := heldTrim unit 32 ((unit, k, t) :: rest) } }

/-- The histogram a command names: none when empty or unreadable. -/
def Dev.histogram (d : Dev) (a : Nat) : Dev × Option (List Nat) :=
  if hbmSize < a + 1024 then (d, none)
  else match d.hbmRead a 1024 with
    | (d, none) => (d, none)
    | (d, some bs) =>
      let cs := (List.range 256).map fun s => kNat bs (4 * s) 4
      (d, if cs.all (· = 0) then none else some cs)

/-- Refuse a table command (R248). -/
def Dev.tblRefuse (d : Dev) (result : Nat) : Dev :=
  (d.setFld F.CDC_TBL_STATUS_RESULT result).raise F.CDC_EVENT_TBL_ERR 0 clsContained

/-- A write of CDC_TBL_CMD (R248): accepted, with the table it will write or install, or refused. -/
def Dev.tblCmd (d : Dev) (v : Nat) : Dev :=
  let op := v / 2 ^ 60 % 16
  let k := tslot (v / 2 ^ 48 % 2048) (v / 2 ^ 44 % 16)
  let a := v / 128 % 2 ^ 37 * 128
  let rsv := op == 0 || decide (4 < op)
  let d := if rsv then d.rsvWrite R.CDC_TBL_CMD else d
  if d.bit F.CDC_TBL_STATUS_BUSY then d.raise F.CDC_EVENT_TBL_ERR 0 clsContained
  else if rsv then d
  else if d.fld (F.CDC_SLOT_GEN_REFS k) ≠ 0 then d.tblRefuse 1
  else
    let accept := fun (d : Dev) (t : List Byte) =>
      let d := d.setFld F.CDC_TBL_STATUS_BUSY 1
      let d := if op = 2 ∨ op = 4 then d.setFld (F.CDC_SLOT_GEN_STATE k) 2 else d
      { d with codec := { d.codec with op := some ⟨op, k, t, none⟩ } }
    if op = 2 then
      match if hbmSize < a + 128 then (d, none) else d.hbmRead a 128 with
      | (d, none) => d.tblRefuse 2
      | (d, some t) =>
        if tableOk t = false then d.tblRefuse 2 else if d.bit F.CDC_TDIR_VALID = false then d.tblRefuse 4 else accept d t
    else if op = 3 then (if d.bit F.CDC_TDIR_VALID = false then d.tblRefuse 4 else accept d [])
    else match d.histogram a with
      | (d, none) => d.tblRefuse 3
      | (d, some cs) =>
        match buildLens cs with
        | none => d.tblRefuse 3
        | some ls => if d.bit F.CDC_TDIR_VALID = false then d.tblRefuse 4 else accept d (tableOf ls)

/-- Whether what a command reads lies in a stack under repair (R322). -/
def Dev.tblWaits (d : Dev) (v : Nat) : Bool := v / 2 ^ 60 % 16 != 3 && d.readWaits (v / 128 % 2 ^ 37 * 128) 1024

/-- A write of CDC_TBL_CMD; one whose table or histogram lies in a stack under repair waits for it, BUSY. -/
def Dev.writeTblCmd (d : Dev) (v : Nat) : Dev :=
  if d.bit F.CDC_TBL_STATUS_BUSY = false ∧ d.tblWaits v then
    { d.setFld F.CDC_TBL_STATUS_BUSY 1 with codec := { d.codec with op := some ⟨0, 0, [], some v⟩ } }
  else d.tblCmd v

/-- A CDC_TBL_CMD write with its OP given. -/
def Dev.tblOp (d : Dev) (tag op : Nat) (v : Word) : Dev :=
  d.fw tag R.CDC_TBL_CMD fun d => d.writeTblCmd (v.toNat % 2 ^ 60 + op * 2 ^ 60)

/-- BUILD (R246, R248): a write of CDC_TBL_CMD with OP 1; the other fields as written. -/
def execBuild (t : Tag) (v : Word) (s : State) : Out := act s fun d => d.tblOp t.toNat 1 v
/-- INSTALL (R248). -/
def execInstall (t : Tag) (v : Word) (s : State) : Out := act s fun d => d.tblOp t.toNat 2 v
/-- RETIRE (R248). -/
def execRetire (t : Tag) (v : Word) (s : State) : Out := act s fun d => d.tblOp t.toNat 3 v
/-- BUILD_INSTALL (R248). -/
def execBuildInstall (t : Tag) (v : Word) (s : State) : Out := act s fun d => d.tblOp t.toNat 4 v

/-- The generation after g (R248). -/
def nextGen (g : Nat) : Nat := if g = 255 then 1 else g + 1

/-- The effect of the command in progress (R248, R251). -/
def Dev.tblDone (d : Dev) (q : TblOp) : Dev :=
  let d := { d with codec := { d.codec with op := none } }
  let d := if q.op = 1 ∨ q.op = 4 then (d.hbmWrite (d.fld F.CDC_TBL_ARG_ADDR * 128) q.table).1 else d
  let d :=
    if q.op = 2 ∨ q.op = 4 then
      let g := nextGen (d.fld (F.CDC_SLOT_GEN_GEN q.slot))
      let d := (d.hbmWrite (d.tableAt q.slot) q.table).1
      let d := (d.setFld (F.CDC_SLOT_GEN_GEN q.slot) g).setFld (F.CDC_SLOT_GEN_STATE q.slot) 1
      let d := d.setFld F.CDC_TBL_STATUS_GEN g
      (List.range 24).foldl (fun d u => d.holdTable u q.slot q.table) d
    else if q.op = 3 then d.setFld (F.CDC_SLOT_GEN_STATE q.slot) 0 else d
  let d := (d.setFld F.CDC_TBL_STATUS_BUSY 0).setFld F.CDC_TBL_STATUS_RESULT 0
  d.raise F.CDC_EVENT_TBL_DONE 0 clsInfo

/-- TABLE_COMMAND_DONE (R248, R251): the command in progress takes its effect, or one that waited for a stack is performed once the stack serves
again. -/
def execTableCommandDone (s : State) : Out :=
  act s fun d =>
    match d.codec.op with
    | none => d
    | some q =>
      match q.held with
      | some v =>
        if d.tblWaits v then d
        else ({ d.setFld F.CDC_TBL_STATUS_BUSY 0 with codec := { d.codec with op := none } }).tblCmd v
      | none =>
        let args := d.fld F.CDC_TBL_ARG_ADDR * 128
        if ((q.op == 1 || q.op == 4) && d.writeWaits args q.table) || ((q.op == 2 || q.op == 4) && d.writeWaits (d.tableAt q.slot) q.table) then d
        else d.tblDone q

/-- What generator i of the packers holds (R262). -/
def Dev.pgen (d : Dev) (i : Nat) : Nat := Store.get (fun i => genSeed 0x5A5A5A i) d.codec.gens i
def Dev.setPgen (d : Dev) (i v : Nat) : Dev :=
  { d with codec := { d.codec with gens := Store.put (fun i => genSeed 0x5A5A5A i) d.codec.gens i v } }

/-- A write of CDC_SEED (R262, R265). -/
def Dev.cdcSeed (d : Dev) (v : Nat) : Dev :=
  let p := v / 2 ^ 60 % 16
  let s := v % 2 ^ 24
  if 12 ≤ p ∧ p ≤ 14 then d.rsvWrite R.CDC_SEED
  else
    let ks := if p = 15 then List.range 12 else [p]
    ks.foldl (fun d k => (List.range 64).foldl (fun d g => d.setPgen (64 * k + g) (genSeed s (64 * k + g))) d) d

/-- CDC_SEED (R262). -/
def execCdcSeed (t : Tag) (v : Word) (s : State) : Out := act s fun d => d.fw t.toNat R.CDC_SEED fun d => d.cdcSeed v.toNat

end Sys2Proof.Machine
end

