-- ==== Sys2Proof/Machine/EthOps.lean ====
section
/-! DEFINITION. What the Ethernet port shares with the rest of the device: messages handed to it, flows, and the end of a killed job's depot
reads and service sessions (R365, R368, R369, R372). -/

namespace Sys2Proof.Machine

/-- Bytes of the frame that carries a message, with its headers and FCS, over IPv4 (log 25). -/
def EthOut.frame (tag : Nat) : EthOut → Nat
  | .pfc _ _ => 64
  | .arp v6 _ _ => if v6 then 90 + tag else 64
  | .echo v6 _ bs => max 64 (18 + tag + (if v6 then 40 else 20) + 8 + bs.length)
  | .cnp _ => 78 + tag
  | .ack _ _ => 66 + tag
  | .nak _ _ _ => 66 + tag
  | .readData _ bs => ceilDiv bs.length 4096 * (66 + tag) + bs.length
  | .readAsk _ _ _ _ => 78 + tag
  | .again _ => 78 + tag
  | .send _ bs => max 1 (ceilDiv bs.length 4096) * (62 + tag) + bs.length
  | .delayReq v6 _ => (if v6 then 110 else 90) + tag
  | .datagram _ _ bs => max 64 (46 + tag + bs.length)

/-- Hand a message to the port: its frame bytes are counted. -/
def Dev.emit (d : Dev) (o : EthOut) : Dev :=
  let d := { d with eth := { d.eth with out := d.eth.out ++ [o] } }
  d.count F.ETH_TX_BYTES_BYTES (o.frame (if d.fld F.ETH_CTRL_VID = 0 then 0 else 4))

/-- Take and return a flow (R365). -/
def Dev.takeFlow (d : Dev) : Dev :=
  let n := d.fld F.ETH_STATUS_FLOWS_FREE - 1
  let d := d.setFld F.ETH_STATUS_FLOWS_FREE n
  if n = 0 then d.raise F.ETH_EVENT_FLOWS_EMPTY 0 clsInfo else d
def Dev.freeFlow (d : Dev) : Dev := d.setFld F.ETH_STATUS_FLOWS_FREE (min 4096 (d.fld F.ETH_STATUS_FLOWS_FREE + 1))

/-- Versions of the service protocol (R373). -/
def svcMin : Nat := 0x0100
def svcMax : Nat := 0x0101

/-- The 32-byte header of a service message (R369, Table 4). -/
def svcHdr (ver typ flags session seq ack len code : Nat) : List Byte :=
  leBytes 2 ver ++ leBytes 1 typ ++ leBytes 1 flags ++ leBytes 4 session ++ leBytes 4 seq ++ leBytes 4 ack ++ leBytes 4 len ++ leBytes 4 code ++ zeros 8

/-- An ERROR message. -/
def svcError (ver session seq ack code : Nat) : List Byte :=
  svcHdr ver 7 0 session seq ack 4 code ++ leBytes 2 svcMin ++ leBytes 2 svcMax

/-- A session ends with an ERROR, its keys are erased, and its flow returns. -/
def Dev.sessionError (d : Dev) (q : Session) (code : Nat) : Dev :=
  let d := d.emit (.datagram q.ip q.port (svcError q.ver q.id (q.tx + 1) q.rx code))
  { d with eth := { d.eth with sessions := d.eth.sessions.filter (·.id ≠ q.id) } }.freeFlow

/-- A KILL at the port: records of the job being read are dropped, and the sessions of its endpoints end with code 3. -/
def Dev.ethKill (d : Dev) (job : Nat) : Dev :=
  let d := { d with eth := { d.eth with recs := d.eth.recs.filter fun r => r.job != job || r.written } }
  (d.eth.sessions.filter fun q => d.fld (F.ETH_SVC_JOB q.ep) == job).foldl (fun d q => d.sessionError q 3) d

end Sys2Proof.Machine
end

