-- ==== Sys2Proof/Machine/Transcend.lean ====
section
/-! DEFINITION. The transcendentals of R167: each function in fixed point far finer than FP32, and the free result held to its error bound. -/

namespace Sys2Proof.Machine

/-- The eleven functions, numbered from VRCP as their opcodes are. -/
inductive Tfun where
  | rcp | rsqrt | exp2 | exp | log2 | log | sin | cos | tanh | sigm | erf
deriving DecidableEq, Repr

/-- The opcode of a function (R222). -/
def Tfun.op : Tfun → Nat
  | .rcp => 0x58 | .rsqrt => 0x59 | .exp2 => 0x5A | .exp => 0x5B | .log2 => 0x5C | .log => 0x5D
  | .sin => 0x5E | .cos => 0x5F | .tanh => 0x60 | .sigm => 0x61 | .erf => 0x62

/-- Table 2's bound of a function, in ULP of the exact result (R167). -/
def Tfun.bound : Tfun → Nat
  | .rcp => 1 | .rsqrt => 1 | .tanh => 3 | .sigm => 3 | .erf => 4
  | _ => 2

/-! Fixed point counts units of 2⁻²⁵⁶, so that every FP32 number below 2¹⁶ is exact in it and a function is known about 2⁻²⁴⁰ closely. -/

/-- ln 2 and π in fixed point, rounded down. -/
def ln2Fix : Nat := 0xb17217f7d1cf79abc9e3b39803f2f6af40f343267298b62d8a0d175b8baafa2b
def piFix : Nat := 0x3243f6a8885a308d313198a2e03707344a4093822299f31d0082efa98ec4e6c89
def oneFix : Nat := 2 ^ 256

/-- The series of e^x from the term t = x^(k−1) ÷ (k−1)! on. -/
def expSeries (x : Nat) : Nat → Nat → Nat → Nat
  | 0, _, _ => 0
  | n + 1, k, t => t + expSeries x n (k + 1) (t * x / oneFix / k)

/-- The alternating series of sine (k = 2, t = x) and cosine (k = 1, t = 1), q the square of the argument. -/
def altSeries (q : Nat) : Nat → Nat → Nat → Nat
  | 0, _, _ => 0
  | n + 1, k, t => t - altSeries q n (k + 2) (t * q / oneFix / (k * (k + 1)))

/-- The series of atanh z from the term p ÷ k = z^k ÷ k on, q = z². -/
def atanhSeries (q : Nat) : Nat → Nat → Nat → Nat
  | 0, _, _ => 0
  | n + 1, k, p => p / k + atanhSeries q n (k + 2) (p * q / oneFix)

/-- The series Σ 2^n x^(2n+1) ÷ (2n+1)!!, q = x²: the error function times e^(x²) √π ÷ 2. -/
def erfSeries (q : Nat) : Nat → Nat → Nat → Nat
  | 0, _, _ => 0
  | n + 1, k, t => t + erfSeries q n (k + 2) (t * (2 * q) / oneFix / k)

/-- A fixed-point number as a value. -/
def ofFix (k : Int) : Fval := .fin (decide (k < 0)) k.natAbs (-256)

/-- A finite value in fixed point, exact for e ≥ −256. -/
def toFix (m : Nat) (e : Int) : Nat := m * 2 ^ (e + 256).toNat

/-- e^r × 2^n for r in fixed point below 1. -/
def expParts (r : Nat) (n : Int) : Fval := .fin false (expSeries r 64 1 oneFix) (n - 256)

/-- e^x for x in fixed point. -/
def expFix (x : Int) : Fval := expParts (x % ln2Fix).toNat (x / ln2Fix)

/-- ln (m × 2^e) in fixed point, m ≠ 0. -/
def lnFix (m : Nat) (e : Int) : Int :=
  let y := m * oneFix / 2 ^ Nat.log2 m
  let z := (y - oneFix) * oneFix / (y + oneFix)
  (e + Nat.log2 m) * ln2Fix + (2 * atanhSeries (z * z / oneFix) 96 1 z : Nat)

/-- sin x, or cos x with `shift` 1, for x ≥ 0 in fixed point: the quadrant, and the series on what is left of it. -/
def sinFix (shift x : Nat) : Int :=
  let q := 2 * x / piFix
  let r := x - q * piFix / 2
  let r2 := r * r / oneFix
  let sin : Int := (altSeries r2 48 2 r : Nat)
  let cos : Int := (altSeries r2 48 1 oneFix : Nat)
  match (q + shift) % 4 with
  | 0 => sin
  | 1 => cos
  | 2 => -sin
  | _ => -cos

/-- erf x for 0 ≤ x < 8 in fixed point. -/
def erfFix (x : Nat) : Fval :=
  let q := x * x / oneFix
  let root := isqrt 258 (piFix * oneFix) 0
  (Fval.fin false (2 * erfSeries q 450 3 x * oneFix / root) (-256)).mul (expFix (-(q : Int)))

/-- A value that lies just below 1, and one just above 0. -/
def belowOne : Fval := .fin false (2 ^ 200 - 1) (-200)
def aboveZero : Fval := .fin false 1 (-400)

/-- 1 ÷ √x for x > 0, with a sticky bit. -/
def rsqrtVal (m : Nat) (e : Int) : Fval :=
  let (m, e) := if e % 2 = 0 then (m, e) else (2 * m, e - 1)
  let r := isqrt 161 (2 ^ 320 / m) 0
  .fin false (2 * r + b2n (r * r * m != 2 ^ 320)) (-(e / 2) - 161)

/-- The value of a function at a finite x = (−1)^neg × m × 2^e inside its domain, m ≠ 0 for VRCP, VRSQRT and the logarithms: on the exact
result's side of every FP32 number and far closer to it than the bounds of R167. -/
def Tfun.value (t : Tfun) (neg : Bool) (m : Nat) (e : Int) : Fval :=
  let x : Fval := .fin neg m e
  let big := decide (8 ≤ Fval.exponent m e)
  let tiny := decide (Fval.exponent m e < -40)
  let fix := toFix m e
  let sfix : Int := if neg then -(fix : Int) else fix
  let cube := (x.mul x).mul x
  let one : Fval := .fin false 1 0
  match t with
  | .rcp => one.div x
  | .rsqrt => rsqrtVal m e
  | .exp2 => if big then (if neg then aboveZero else .inf false)
    else expParts ((sfix % oneFix).toNat * ln2Fix / oneFix) (sfix / oneFix)
  | .exp => if big then (if neg then aboveZero else .inf false) else expFix sfix
  | .log2 => ofFix ((e + Nat.log2 m) * oneFix + (lnFix m (-(Nat.log2 m : Int))) * oneFix / ln2Fix)
  | .log => ofFix (lnFix m e)
  | .sin =>
    if m = 0 then x else if tiny then x.add (cube.neg.scale (-3))
    else if neg then ofFix (-(sinFix 0 fix)) else ofFix (sinFix 0 fix)
  | .cos => if m ≠ 0 ∧ tiny then one.add ((x.mul x).neg.scale (-1)) else ofFix (sinFix 1 fix)
  | .tanh =>
    if m = 0 then x else if tiny then x.add (cube.neg.scale (-2))
    else
      let y := if big then belowOne
        else (let u := expFix (-2 * (fix : Int)); (one.add u.neg).div (one.add u))
      if neg then y.neg else y
  | .sigm =>
    if big then (if neg then aboveZero else belowOne)
    else
      let u := expFix (-(fix : Int))
      (if neg then u else one).div (one.add u)
  | .erf =>
    if m = 0 then x
    else
      let y := if tiny then ((Fval.fin false m e).mul (.fin false (2 * oneFix * oneFix / isqrt 258 (piFix * oneFix) 0) (-256))).add
          ((Fval.fin false m e).mul (.fin true 1 (-100)))
        else if 3 ≤ Fval.exponent m e then belowOne else erfFix fix
      if neg then y.neg else y

/-- |v − y| ≤ k ULP of the result y, a ULP as R167 defines it; false for a v that is no finite number. -/
def withinUlp (k : Nat) (y v : Fval) : Bool :=
  match y, v with
  | .fin a m e, .fin b n f =>
    let u : Int := max (Fval.exponent m e) (-126) - 23
    let e0 := min (min e f) u
    decide ((signedAt b n f e0 - signedAt a m e e0).natAbs ≤ k * 2 ^ (u - e0).toNat)
  | _, _ => false

/-- A result at least 2¹²⁸ overflows. -/
def Fval.overflows : Fval → Bool
  | .fin _ m e => decide (m ≠ 0) && decide (128 ≤ Fval.exponent m e)
  | v => v.special

/-- The result of a transcendental at a finite input outside the special cases: the free value where Table 2's bound admits it, the result
rounded to nearest even where it does not (log 9). A VEXP2 or VEXP that overflows gives +∞ exactly. -/
def Tfun.finite (t : Tfun) (free : Nat) (neg : Bool) (m : Nat) (e : Int) : Nat :=
  let y := t.value neg m e
  if (t = .exp2 ∨ t = .exp) ∧ y.overflows then 0x7F800000
  else if withinUlp t.bound y (ofFP32 free) then free else toFP32 y

/-- The FP32 result of a transcendental: the special cases of Table 2 exactly; elsewhere a free value (log 9) within the table's bound. -/
def transcend (t : Tfun) (x : Nat) : Nat :=
  let free := Config.transcendental t.op x % 2 ^ 32
  let one := 0x3F800000
  let sign := fun neg => b2n neg * 2 ^ 31
  match ofFP32 x with
  | .nan => 0x7FC00000
  | .inf neg =>
    match t with
    | .rcp => sign neg
    | .rsqrt => if neg then 0x7FC00000 else 0
    | .exp2 => if neg then 0 else 0x7F800000
    | .exp => if neg then 0 else 0x7F800000
    | .log2 => if neg then 0x7FC00000 else 0x7F800000
    | .log => if neg then 0x7FC00000 else 0x7F800000
    | .sin => 0x7FC00000
    | .cos => 0x7FC00000
    | .tanh => sign neg + one
    | .sigm => if neg then 0 else one
    | .erf => sign neg + one
  | .fin neg m e =>
    let far := (Fval.fin false 65536 0).lt (.fin false m e)
    let unit := if (ofFP32 one).lt (ofFP32 (free % 2 ^ 31)) || (ofFP32 free).isNan then sign (bitOf free 31) + one else free
    match t with
    | .rcp => if m = 0 then sign neg + 0x7F800000 else t.finite free neg m e
    | .rsqrt => if m = 0 then sign neg + 0x7F800000 else if neg then 0x7FC00000 else t.finite free neg m e
    | .log2 => if m = 0 then 0xFF800000 else if neg then 0x7FC00000 else if x = one then 0 else t.finite free neg m e
    | .log => if m = 0 then 0xFF800000 else if neg then 0x7FC00000 else if x = one then 0 else t.finite free neg m e
    | .sin => if far then unit else t.finite free neg m e
    | .cos => if far then unit else t.finite free neg m e
    | _ => t.finite free neg m e

/-- A 16-bit form computes in FP32 and rounds once (R167). -/
def transcendLane (t : Tfun) (fmt x : Nat) : Nat :=
  if fmt = 9 then transcend t x
  else elemEncode fmt false .even (ofFP32 (transcend t (toFP32 (elemDecode fmt x))))

end Sys2Proof.Machine
end

