-- ==== Sys2Proof/Machine/Vector.lean ====
section
/-! DEFINITION. V slot: lane-wise arithmetic, conversion, reduction, transcendentals and generator seeding (R165 to R173, R221 to R226). -/

namespace Sys2Proof.Machine

/-- Whether a lane format has 16-bit lanes (R166, R221). -/
def lane16 (fmt : Nat) : Bool := fmt == 7 || fmt == 8

/-- Apply an element operation to one 32-bit lane, or to its low and high 16-bit elements (R166, R223). -/
def laneMap (fmt : Nat) (g : Nat → Nat → Nat → Nat) (a b c : BitVec 32) : BitVec 32 :=
  if lane16 fmt then
    BitVec.ofNat 32 (g (a.toNat % 65536) (b.toNat % 65536) (c.toNat % 65536) % 65536
      + g (a.toNat / 65536) (b.toNat / 65536) (c.toNat / 65536) % 65536 * 65536)
  else BitVec.ofNat 32 (g a.toNat b.toNat c.toNat)

/-- Occupy the lanes (R190): an instruction that finds them occupied waits, and bundle issue stalls. The wait is returned. -/
def CoreSt.lanes (c : CoreSt) (beats : Nat) : CoreSt × Nat :=
  let w := c.laneFree - c.cycle
  ({ c with laneFree := c.cycle + w + beats, laneAt := c.cycle }.stall w, w)

/-- Number of beats of a VA instruction (R221). -/
def vaBeats (f : FmtVA) : Nat := f.beats.toNat + 1

/-- Reserved encodings of a lane-wise instruction: a format it does not admit, or a field it does not use that is not 0 (R207, R221). -/
def vaRsv (f : FmtVA) (fmts : List Nat) (useA useB useC useSub : Bool) : Bool :=
  !fmts.contains f.fmt.toNat || f.fmt2 != 0 || f.sat || f.sr || (!useA && f.a != 0) || (!useB && (f.b != 0 || f.bs)) ||
    (f.bs && decide (32 ≤ f.b.toNat)) || (!useC && f.c != 0) || (!useSub && f.sub != 0) || f.lane != 0

/-- Operand b: a register, or a scalar standing for every lane (R221). -/
def vaB (c : CoreSt) (f : FmtVA) : List (BitVec 32) :=
  if f.bs then
    let w := (c.sreg (f.b.toNat % 32)).toNat
    let x := if lane16 f.fmt.toNat then w % 65536 * 65537 else w
    List.replicate 512 (BitVec.ofNat 32 x)
  else c.vreg f.b.toNat

/-- A lane-wise instruction over BEATS beats; beat b usable at issue + lat + b (R222). -/
def Dev.vLanes (d : Dev) (n : Nat) (i : Instr) (f : FmtVA) (rsv : Bool) (lat : Nat) (g : Nat → Nat → Nat → Nat) : Dev :=
  d.slotIssue n 1 i f.hd .normal rsv fun d =>
    .go (d.modCore n fun c =>
      let r := ((c.vreg f.a.toNat).zip ((vaB c f).zip (c.vreg f.c.toNat))).map fun x => laneMap f.fmt.toNat g x.1 x.2.1 x.2.2
      let (c, w) := c.lanes (vaBeats f)
      c.laterBeats (w + lat) f.d.toNat (vaBeats f) 0 r)

/-- The lane formats of R209, Table 3, and its float ones. -/
def vFmts : List Nat := [7, 8, 9, 10]
def vFloats : List Nat := [7, 8, 9]

/-- A float operation on elements with one rounding to the lane format, to nearest even (R165, R166). -/
def fOp1 (fmt : Nat) (g : Fval → Fval) (a : Nat) : Nat := elemEncode fmt false .even (g (elemDecode fmt a))
def fOp2 (fmt : Nat) (g : Fval → Fval → Fval) (a b : Nat) : Nat := elemEncode fmt false .even (g (elemDecode fmt a) (elemDecode fmt b))
def fOp3 (fmt : Nat) (g : Fval → Fval → Fval → Fval) (a b c : Nat) : Nat :=
  elemEncode fmt false .even (g (elemDecode fmt a) (elemDecode fmt b) (elemDecode fmt c))

/-- A wrapping INT32 operation. -/
def iOp (k : Int) : Nat := wrap 32 k

/-- The element operations of Table 8 (R222). -/
def vAddE (fmt a b : Nat) : Nat := if fmt = 10 then iOp (a + b) else fOp2 fmt Fval.add a b
def vSubE (fmt a b : Nat) : Nat := if fmt = 10 then iOp ((a : Int) - b) else fOp2 fmt (fun x y => x.add y.neg) a b
def vMulE (fmt a b : Nat) : Nat := if fmt = 10 then iOp (a * b) else fOp2 fmt Fval.mul a b
def vFmaE (fmt a b c : Nat) : Nat := if fmt = 10 then iOp (a * b + c) else fOp3 fmt Fval.fma a b c
def vMinE (fmt a b : Nat) : Nat := if fmt = 10 then (if signed 32 b < signed 32 a then b else a) else fOp2 fmt Fval.minNum a b
def vMaxE (fmt a b : Nat) : Nat := if fmt = 10 then (if signed 32 a < signed 32 b then b else a) else fOp2 fmt Fval.maxNum a b
def signBit (fmt : Nat) : Nat := if lane16 fmt then 0x8000 else 0x80000000
/-- A sign-bit operation on a float element; a NaN gives the canonical one (R160). -/
def signOp (fmt : Nat) (g : Nat → Nat) (a : Nat) : Nat :=
  let v := elemDecode fmt a
  if v.isNan then elemEncode fmt false .even v else g a
def vAbsE (fmt a : Nat) : Nat := if fmt = 10 then iOp (signed 32 a).natAbs else signOp fmt (· % signBit fmt) a
def vNegE (fmt a : Nat) : Nat := if fmt = 10 then iOp (-(a : Int)) else signOp fmt (· ^^^ signBit fmt) a
def vCmpE (fmt sub a b : Nat) : Nat :=
  let x := elemDecode fmt a
  let y := elemDecode fmt b
  let r := match sub with
    | 0 => x.eq y
    | 1 => !(x.eq y)
    | 2 => x.lt y
    | 3 => x.lt y || x.eq y
    | 4 => y.lt x
    | _ => y.lt x || x.eq y
  if r then 2 * signBit fmt - 1 else 0
def vDivE (fmt a b : Nat) : Nat := fOp2 fmt Fval.div a b
def vSqrtE (fmt a : Nat) : Nat := fOp1 fmt Fval.sqrt a

/-- VNOP (R206). -/
def execVnop (n : CoreId) (f : FmtS0) (s : State) : Out :=
  act s fun d => d.slotIssue n 1 (.vnop n f) f.hd .normal (nopRsv f) .go

/-- VADD (R222). -/
def execVadd (n : CoreId) (f : FmtVA) (s : State) : Out :=
  act s fun d => d.vLanes n (.vadd n f) f (vaRsv f vFmts true true false false) 4 fun a b _ => vAddE f.fmt.toNat a b
/-- VSUB (R222). -/
def execVsub (n : CoreId) (f : FmtVA) (s : State) : Out :=
  act s fun d => d.vLanes n (.vsub n f) f (vaRsv f vFmts true true false false) 4 fun a b _ => vSubE f.fmt.toNat a b
/-- VMUL (R222). -/
def execVmul (n : CoreId) (f : FmtVA) (s : State) : Out :=
  act s fun d => d.vLanes n (.vmul n f) f (vaRsv f vFmts true true false false) 4 fun a b _ => vMulE f.fmt.toNat a b
/-- VFMA: one rounding (R222). -/
def execVfma (n : CoreId) (f : FmtVA) (s : State) : Out :=
  act s fun d => d.vLanes n (.vfma n f) f (vaRsv f vFmts true true true false) 4 fun a b c => vFmaE f.fmt.toNat a b c
/-- VMIN (R165, R222). -/
def execVmin (n : CoreId) (f : FmtVA) (s : State) : Out :=
  act s fun d => d.vLanes n (.vmin n f) f (vaRsv f vFmts true true false false) 4 fun a b _ => vMinE f.fmt.toNat a b
/-- VMAX (R165, R222). -/
def execVmax (n : CoreId) (f : FmtVA) (s : State) : Out :=
  act s fun d => d.vLanes n (.vmax n f) f (vaRsv f vFmts true true false false) 4 fun a b _ => vMaxE f.fmt.toNat a b
/-- VABS (R222). -/
def execVabs (n : CoreId) (f : FmtVA) (s : State) : Out :=
  act s fun d => d.vLanes n (.vabs n f) f (vaRsv f vFmts true false false false) 4 fun a _ _ => vAbsE f.fmt.toNat a
/-- VNEG (R222). -/
def execVneg (n : CoreId) (f : FmtVA) (s : State) : Out :=
  act s fun d => d.vLanes n (.vneg n f) f (vaRsv f vFmts true false false false) 4 fun a _ _ => vNegE f.fmt.toNat a
/-- VAND (R222). -/
def execVand (n : CoreId) (f : FmtVA) (s : State) : Out :=
  act s fun d => d.vLanes n (.vand n f) f (vaRsv f vFmts true true false false) 4 fun a b _ => a &&& b
/-- VOR (R222). -/
def execVor (n : CoreId) (f : FmtVA) (s : State) : Out :=
  act s fun d => d.vLanes n (.vor n f) f (vaRsv f vFmts true true false false) 4 fun a b _ => a ||| b
/-- VXOR (R222). -/
def execVxor (n : CoreId) (f : FmtVA) (s : State) : Out :=
  act s fun d => d.vLanes n (.vxor n f) f (vaRsv f vFmts true true false false) 4 fun a b _ => a ^^^ b
/-- VSHL, INT32 only (R222). -/
def execVshl (n : CoreId) (f : FmtVA) (s : State) : Out :=
  act s fun d => d.vLanes n (.vshl n f) f (vaRsv f [10] true true false false) 4 fun a b _ => a * 2 ^ (b % 32) % 2 ^ 32
/-- VSHR, INT32 only (R222). -/
def execVshr (n : CoreId) (f : FmtVA) (s : State) : Out :=
  act s fun d => d.vLanes n (.vshr n f) f (vaRsv f [10] true true false false) 4 fun a b _ => a / 2 ^ (b % 32)
/-- VSRA, INT32 only (R222). -/
def execVsra (n : CoreId) (f : FmtVA) (s : State) : Out :=
  act s fun d => d.vLanes n (.vsra n f) f (vaRsv f [10] true true false false) 4 fun a b _ => iOp (signed 32 a / 2 ^ (b % 32))
/-- VCMP: all ones where true; SUB 6 and 7 reserved (R222). -/
def execVcmp (n : CoreId) (f : FmtVA) (s : State) : Out :=
  act s fun d => d.vLanes n (.vcmp n f) f (vaRsv f vFmts true true false true || decide (5 < f.sub.toNat)) 4
    fun a b _ => vCmpE f.fmt.toNat f.sub.toNat a b
/-- VSEL (R222). -/
def execVsel (n : CoreId) (f : FmtVA) (s : State) : Out :=
  act s fun d => d.vLanes n (.vsel n f) f (vaRsv f vFmts true true true false) 4 fun a b c => if c ≠ 0 then a else b
/-- VDIV (R165, R222). -/
def execVdiv (n : CoreId) (f : FmtVA) (s : State) : Out :=
  act s fun d => d.vLanes n (.vdiv n f) f (vaRsv f vFloats true true false false) 12 fun a b _ => vDivE f.fmt.toNat a b
/-- VSQRT (R165, R222). -/
def execVsqrt (n : CoreId) (f : FmtVA) (s : State) : Out :=
  act s fun d => d.vLanes n (.vsqrt n f) f (vaRsv f vFloats true false false false) 12 fun a _ _ => vSqrtE f.fmt.toNat a

/-- A transcendental on every lane (R167, R222). -/
def Dev.vTrans (d : Dev) (n : Nat) (i : Instr) (f : FmtVA) (t : Tfun) : Dev :=
  d.vLanes n i f (vaRsv f vFloats true false false false) 12 fun a _ _ => transcendLane t f.fmt.toNat a

/-- VRCP (R167). -/
def execVrcp (n : CoreId) (f : FmtVA) (s : State) : Out := act s fun d => d.vTrans n (.vrcp n f) f .rcp
/-- VRSQRT (R167). -/
def execVrsqrt (n : CoreId) (f : FmtVA) (s : State) : Out := act s fun d => d.vTrans n (.vrsqrt n f) f .rsqrt
/-- VEXP2 (R167). -/
def execVexp2 (n : CoreId) (f : FmtVA) (s : State) : Out := act s fun d => d.vTrans n (.vexp2 n f) f .exp2
/-- VEXP (R167). -/
def execVexp (n : CoreId) (f : FmtVA) (s : State) : Out := act s fun d => d.vTrans n (.vexp n f) f .exp
/-- VLOG2 (R167). -/
def execVlog2 (n : CoreId) (f : FmtVA) (s : State) : Out := act s fun d => d.vTrans n (.vlog2 n f) f .log2
/-- VLOG (R167). -/
def execVlog (n : CoreId) (f : FmtVA) (s : State) : Out := act s fun d => d.vTrans n (.vlog n f) f .log
/-- VSIN (R167). -/
def execVsin (n : CoreId) (f : FmtVA) (s : State) : Out := act s fun d => d.vTrans n (.vsin n f) f .sin
/-- VCOS (R167). -/
def execVcos (n : CoreId) (f : FmtVA) (s : State) : Out := act s fun d => d.vTrans n (.vcos n f) f .cos
/-- VTANH (R167). -/
def execVtanh (n : CoreId) (f : FmtVA) (s : State) : Out := act s fun d => d.vTrans n (.vtanh n f) f .tanh
/-- VSIGM (R167). -/
def execVsigm (n : CoreId) (f : FmtVA) (s : State) : Out := act s fun d => d.vTrans n (.vsigm n f) f .sigm
/-- VERF (R167). -/
def execVerf (n : CoreId) (f : FmtVA) (s : State) : Out := act s fun d => d.vTrans n (.verf n f) f .erf

/-! ## Conversion (R224) -/

/-- Element i of a packed register (R224). -/
def packedElem (bits v i : Nat) : Nat := v / 2 ^ (bits * i) % 2 ^ bits

/-- Elements packed from bit 0. -/
def packElems (bits : Nat) : List Nat → Nat
  | [] => 0
  | e :: es => e % 2 ^ bits + 2 ^ bits * packElems bits es

/-- A core's generator (R171, R172). -/
def CoreSt.gen (c : CoreSt) (i : Nat) : Nat := Store.get (fun j => genSeed 0xA5A5A5 j) c.gens i

/-- Set a generator. -/
def CoreSt.setGen (c : CoreSt) (i v : Nat) : CoreSt := { c with gens := Store.put (fun j => genSeed 0xA5A5A5 j) c.gens i v }

/-- The rounding of one element: nearest even, or stochastic with generator i, which advances (R171). -/
def CoreSt.rnd (c : CoreSt) (sr : Bool) (i : Nat) : CoreSt × Rnd :=
  if sr then (let g := genNext (c.gen i); (c.setGen i g, .stoch g)) else (c, .even)

/-- Narrow values in order, element k with the generator that `lane k` names. -/
def CoreSt.narrow (c : CoreSt) (fmt2 : Nat) (sat sr : Bool) (lane : Nat → Nat) : Nat → List Fval → CoreSt × List Nat
  | _, [] => (c, [])
  | k, v :: vs =>
    let (c, r) := c.rnd sr (lane k)
    let (c, es) := c.narrow fmt2 sat sr lane (k + 1) vs
    (c, elemEncode fmt2 sat r v :: es)

/-- Convert a block of values to a microscaling format: the scale and the elements (R170). -/
def CoreSt.mxBlock (c : CoreSt) (fmt : Nat) (sr : Bool) (lane : Nat → Nat) (k : Nat) (vs : List Fval) : CoreSt × Nat × List Nat :=
  let s := mxScale fmt vs
  let rounds := s ≠ 0xFF && !(vs.all Fval.isZero)
  let (c, es) := go c s (sr && rounds) k vs
  (c, s, es)
where
  go (c : CoreSt) (s : Nat) (sr : Bool) : Nat → List Fval → CoreSt × List Nat
    | _, [] => (c, [])
    | k, v :: vs =>
      let (c, r) := c.rnd sr (lane k)
      let (c, es) := go c s sr (k + 1) vs
      (c, mxElem fmt s r v :: es)

/-- Convert q blocks of 32 values each. -/
def CoreSt.mxBlocks (c : CoreSt) (fmt : Nat) (sr : Bool) (lane : Nat → Nat) : Nat → Nat → List Fval → CoreSt × List Nat × List Nat
  | 0, _, _ => (c, [], [])
  | q + 1, k, vs =>
    let (c, s, es) := c.mxBlock fmt sr lane k (vs.take 32)
    let (c, ss, fs) := c.mxBlocks fmt sr lane q (k + 32) (vs.drop 32)
    (c, s :: ss, es ++ fs)

/-- Reserved forms of VCVT (R209, R224). -/
def vcvtRsv (f : FmtVA) : Bool :=
  let a := f.fmt.toNat
  let b := f.fmt2.toNat
  decide (10 < a) || decide (10 < b) || f.b != 0 || f.bs || f.c != 0 || f.sub != 0 || f.lane != 0 ||
    ((isMX a || isMX b) && (!((isMX a && b == 9) || (a == 9 && isMX b)) || f.beats != 7)) ||
    (f.sr && decide (elemBits a < elemBits b))

/-- The converted register: destination lanes from beat 0 on (R224); an element of a microscaling block widens with SAT = 0 (R168). -/
def CoreSt.vcvt (c : CoreSt) (f : FmtVA) : CoreSt × List (BitVec 32) :=
  let a := f.fmt.toNat
  let b := f.fmt2.toNat
  let ea := elemBits a
  let eb := elemBits b
  let src := lanesNat (c.vreg f.a.toNat)
  let lane := fun k => k * ea / 32 % 64
  if isMX b then
    let vs := (List.range 512).map fun i => ofFP32 (packedElem 32 src i)
    let (c, ss, es) := c.mxBlocks b f.sr lane 16 0 vs
    (c, natLanes 512 (packElems eb es + packElems 8 ss * 2 ^ (8 * 2032)))
  else
    let n := vaBeats f * 2048 / max ea eb
    let vs := (List.range n).map fun i =>
      if isMX a then mxDecode a (packedElem 8 src (2032 + i / 32)) (packedElem ea src i) else elemDecode a (packedElem ea src i)
    let (c, es) := c.narrow b (f.sat && !isMX a) f.sr lane 0 vs
    let out := natLanes (n * eb / 32) (packElems eb es)
    (c, out ++ (c.vreg f.d.toNat).drop out.length)

/-- VCVT (R224). A packed result is usable with the last beat of the wider side (log 14). -/
def execVcvt (n : CoreId) (f : FmtVA) (s : State) : Out :=
  act s fun d => d.slotIssue n 1 (.vcvt n f) f.hd .normal (vcvtRsv f) fun d =>
    .go (d.modCore n fun c =>
      let (c, out) := c.vcvt f
      let (c, w) := c.lanes (vaBeats f)
      if elemBits f.fmt.toNat ≤ elemBits f.fmt2.toNat && !isMX f.fmt.toNat then c.laterBeats (w + 4) f.d.toNat (vaBeats f) 0 out
      else
        let k := if isMX f.fmt2.toNat || isMX f.fmt.toNat then 8
          else ceilDiv (vaBeats f * elemBits f.fmt2.toNat) (elemBits f.fmt.toNat)
        c.laterAll (w + 4 + f.beats.toNat) f.d.toNat k 0 out)

/-! ## Reduction, broadcast, extraction, seeding -/

/-- One step of the reduction tree: element i with element i + half (R225). -/
def redStep (g : Nat → Nat → Nat) (half : Nat) (es : List Nat) : List Nat := List.zipWith g (es.take half) (es.drop half)

/-- Reduce 2^k elements (R225). -/
def redTree (g : Nat → Nat → Nat) : Nat → List Nat → Nat
  | 0, es => es.headD 0
  | k + 1, es => redTree g k (redStep g (2 ^ k) es)

/-- The elements of one beat. -/
def beatElems (fmt : Nat) (ls : List (BitVec 32)) : List Nat :=
  if lane16 fmt then ls.flatMap fun l => [l.toNat % 65536, l.toNat / 65536] else ls.map (·.toNat)

/-- The reduction SUB selects (R225). -/
def redOp (fmt sub a b : Nat) : Nat :=
  match sub with
  | 0 => vAddE fmt a b
  | 1 => vMaxE fmt a b
  | _ => vMinE fmt a b

/-- Reduce each beat into its lane 0; the other lanes are +0 (R225). -/
def redBeats (fmt sub : Nat) : Nat → List (BitVec 32) → List (BitVec 32)
  | 0, _ => []
  | k + 1, ls =>
    BitVec.ofNat 32 (redTree (redOp fmt sub) (if lane16 fmt then 7 else 6) (beatElems fmt (ls.take 64))) ::
      List.replicate 63 0 ++ redBeats fmt sub k (ls.drop 64)

/-- VRED: SUB 0 sum, 1 maximum, 2 minimum (R225). -/
def execVred (n : CoreId) (f : FmtVA) (s : State) : Out :=
  act s fun d => d.slotIssue n 1 (.vred n f) f.hd .normal (vaRsv f vFmts true false false true || decide (2 < f.sub.toNat)) fun d =>
    .go (d.modCore n fun c =>
      let r := redBeats f.fmt.toNat f.sub.toNat (vaBeats f) (c.vreg f.a.toNat)
      let (c, w) := c.lanes (vaBeats f)
      c.laterBeats (w + 4) f.d.toNat (vaBeats f) 0 r)

/-- VBCAST: bits [40:36] name a scalar register; bit 41 must be 0 (R226). -/
def execVbcast (n : CoreId) (f : FmtVA) (s : State) : Out :=
  act s fun d => d.slotIssue n 1 (.vbcast n f) f.hd .normal (vaRsv f vFmts true false false false || decide (32 ≤ f.a.toNat)) fun d =>
    .go (d.modCore n fun c =>
      let w := (c.sreg (f.a.toNat % 32)).toNat
      let x := if lane16 f.fmt.toNat then w % 65536 * 65537 else w
      let (c, k) := c.lanes (vaBeats f)
      c.laterBeats (k + 4) f.d.toNat (vaBeats f) 0 (List.replicate (64 * vaBeats f) (BitVec.ofNat 32 x)))

/-- VEXT: one lane, zero-extended, to a scalar register; usable with the beat that holds it (R226). -/
def execVext (n : CoreId) (f : FmtVA) (s : State) : Out :=
  act s fun d => d.slotIssue n 1 (.vext n f) f.hd .normal
    (vaRsv { f with lane := 0 } vFmts true false false false || f.beats != 0 || decide (32 ≤ f.d.toNat) ||
      (!(lane16 f.fmt.toNat) && decide (512 ≤ f.lane.toNat))) fun d =>
    .go (d.modCore n fun c =>
      let e := if lane16 f.fmt.toNat then 16 else 32
      let v := packedElem e (lanesNat (c.vreg f.a.toNat)) f.lane.toNat
      let (c, w) := c.lanes 1
      c.later (w + 4 + f.lane.toNat * e / 2048) 1 (.s (f.d.toNat % 32) (BitVec.ofNat 64 v)))

/-- VSEED waits for every MDRAIN accepted before it and for the lanes, then reloads the generators (R172, R190). -/
def execVseed (n : CoreId) (f : FmtVA) (s : State) : Out :=
  act s fun d => d.slotIssue n 1 (.vseed n f) f.hd .normal (vseedRsv f) fun d =>
    if (d.core n).drainsWait then .wait 1
    else
      .go (d.modCore n fun c =>
        let x := (c.sreg (f.a.toNat % 32)).toNat % 2 ^ 24
        (List.range 64 ++ (List.range 128).map (· + 128)).foldl (fun c i => c.setGen i (genSeed x i)) (c.stall (c.laneFree - c.cycle)))

end Sys2Proof.Machine
end

