-- ==== Sys2Proof/Machine/VectorMem.lean ====
section
/-! DEFINITION. V slot: local loads and stores, and accumulator accesses (R111, R112, R128, R143, R144, R227). -/

namespace Sys2Proof.Machine

/-- Bytes of a VLD or VST. -/
def vmBytes (f : FmtVM) : Nat := 256 * (f.beats.toNat + 1)

/-- The access of a VLD or VST waits for its frame slot: before the scalar slot of its bundle, or after it when the vector slots of the frame have
passed (R110 to R112). A free-running engine performs it in its own order (R199). -/
def Dev.vPerform (d : Dev) (n : Nat) (q : VLate) (i : Instr) : Dev :=
  let c := d.core n
  let d := (d.modCore n fun c => c.stall q.wait).wrote n 1 i
  if 6 ≤ c.cycle % 8 ∧ c.perf = none then d.modCore n fun c => { c with late := c.late ++ [q] } else d.performLate n q

/-- What a VLD or VST meets, or its access (R111, R120, R125, R185, R290). -/
def Dev.vAccess (d : Dev) (n : Nat) (f : FmtVM) (i : Instr) (read : Bool) (reg : Option Nat) (bytes : List Byte) : Dev :=
  let set := d.slotSet n f.hd
  let a := vmEa (d.core n) f
  let k := vmBytes f
  match d.localChk n set a k 128 read with
  | .isa q => d.isaFault n set 1 q a
  | .scp q => d.scpFault n set 1 q 1 a
  | .ok p =>
    if d.slotFaults n 1 then d.scpFault n set 1 7 1 a
    else d.vPerform n ⟨reg, bytes, p, k, a, set, frameWait 1 (d.core n).cycle⟩ i

/-- VLD: performed in a vector frame slot, the whole access in one cycle; usable after the latency of R113 (R227). -/
def execVld (n : CoreId) (f : FmtVM) (s : State) : Out :=
  act s fun d => d.slotIssue n 1 (.vld n f) f.hd .normal (f.rsv != 0 || f.upd == 3) fun d =>
    .go (d.vAccess n f (.vld n f) true (some f.v.toNat) [])

/-- VST: the register is read at issue; whole words, so no codeword is read first (R109, R123, R227). -/
def execVst (n : CoreId) (f : FmtVM) (s : State) : Out :=
  act s fun d => d.slotIssue n 1 (.vst n f) f.hd .normal (f.rsv != 0 || f.upd == 3) fun d =>
    .go (d.vAccess n f (.vst n f) false none (leBytes (vmBytes f) (lanesNat (((d.core n).vreg f.v.toNat).take (vmBytes f / 4)))))

/-! ## Accumulator rows (R128, R143, R144, R227) -/

/-- An accumulator access waits w cycles and occupies the vector engine for its k rows (R189, R190). -/
def CoreSt.accBusy (c : CoreSt) (w k : Nat) : CoreSt := { c with laneFree := c.cycle + w + k, laneAt := c.cycle }.stall w

/-- Row i of a VLDACC reaches its beats. -/
def CoreSt.accLoad (c : CoreSt) (split : Bool) (h j w v i : Nat) : CoreSt :=
  let ls := c.accGet split h (j + i)
  if split then c.laterAll (w + 6 + i) v 1 i ls else c.laterAll (w + 6 + i) v 2 (2 * i) ls

/-- Read k rows from j on: each codeword in error is counted; true when one was uncorrectable (R123, R127). -/
def Dev.accReads (d : Dev) (n : Nat) (split : Bool) (h j : Nat) : Nat → Nat → Dev × Bool
  | 0, _ => (d, false)
  | k + 1, i =>
    let (d, ue) := d.accRead n split h ((j + i) % 2048)
    let (d, ue2) := d.accReads n split h j k (i + 1)
    (d, ue || ue2)

/-- VLDACC (R227): row j usable at issue + 6 + j, after the waits of R143 and R144. -/
def execVldacc (n : CoreId) (f : FmtVC) (s : State) : Out :=
  act s fun d => d.slotIssue n 1 (.vldacc n f) f.hd .normal (vcRsv (d.split n) f) fun d =>
    let c := d.core n
    let sp := d.split n
    let h := b2n f.hd.set
    let k := vcRows sp f
    let j := vcRow c f
    if d.rowsWait n f then .wait 1
    else if d.accZeroing n h then .go (d.isaFault n h 1 6 0)
    else
      let w := c.accWait sp h 8192 j k (c.laneFree - c.cycle) - k
      let (d, ue) := d.accReads n sp h j k 0
      let d := d.modCore n fun c => (List.range k).foldl (fun c i => c.accLoad sp h j w f.v.toNat i) (c.accBusy w k)
      .go (if ue then (d.mtxRecord n 4 (if sp then h else 0) 0 j c.cycle).faultAt n h 1 2 4 0 else d)

/-- VSTACC writes FP32 bit patterns unchanged (R227). -/
def execVstacc (n : CoreId) (f : FmtVC) (s : State) : Out :=
  act s fun d => d.slotIssue n 1 (.vstacc n f) f.hd .normal (vcRsv (d.split n) f) fun d =>
    let c := d.core n
    let sp := d.split n
    let h := b2n f.hd.set
    let k := vcRows sp f
    let j := vcRow c f
    let w := c.accWait sp h 8192 j k (c.laneFree - c.cycle) - k
    let m := if sp then 64 else 128
    .go (d.modCore n fun c =>
      (List.range k).foldl (fun c i => c.accPut sp h (j + i) (((c.vreg f.v.toNat).drop (m * i)).take m)) (c.accBusy w k))

end Sys2Proof.Machine
end

