-- ==== Sys2Proof/Machine/Matrix.lean ====
section
/-! DEFINITION. M slot: acceptance by the array unit and the drain-out unit, and the events of their work (R132 to R156, R228 to R233). -/

namespace Sys2Proof.Machine

/-! ## Acceptance (R136, R228, R229) -/

/-- An array instruction joins its unit's queue; a stream meets the tile that will then be in the cells, with none +0 in every cell (R133, R137,
log 15). -/
def ArrUnit.accept (u : ArrUnit) (split : Bool) (o : ArrOp) : ArrUnit :=
  let o :=
    if o.op = 1 ∨ o.op = 4 then o
    else match u.tileAhead with
      | some (fmt, k2, klen, nlen) => { o with fmtB := fmt, k2 := k2, klen := klen, nlen := nlen }
      | none => { o with fmtB := o.fmt, k2 := o.fmt == 5, klen := 128, nlen := if split then 64 else 128 }
  u.take split o

/-- Hand an array instruction to its unit, or wait for an entry of its queue (R136). A count of 0 completes at once (R229); operand addresses are
aligned to 128 bytes (R185, R230). -/
def Dev.acceptArray (d : Dev) (n : Nat) (i : Instr) : SlotAct :=
  match (d.core n).arrayOp i with
  | none => .go d
  | some o =>
    let h := b2n o.half
    if o.count = 0 then .go (d.wrote n 2 i)
    else if (d.core n).arrayFull o then .wait 1
    else if o.addr % 128 ≠ 0 ∨ o.addrB % 128 ≠ 0 then .go (d.isaFault n (d.mSet n h) 2 4 (if o.addr % 128 ≠ 0 then o.addr else o.addrB))
    else .go ((d.modCore n fun c => c.setUnit h ((c.unit h).accept (d.split n) o)).wrote n 2 i)

/-- An array instruction issues. -/
def Dev.mIssue (d : Dev) (n : Nat) (i : Instr) (h : Head) (rsv : Bool) : Dev :=
  d.slotIssue n 2 i h .normal rsv fun d => d.acceptArray n i

/-- MNOP (R206). -/
def execMnop (n : CoreId) (f : FmtS0) (s : State) : Out :=
  act s fun d => d.slotIssue n 2 (.mnop n f) f.hd .normal (nopRsv f) .go

/-- MLOAD (R133, R230). -/
def execMload (n : CoreId) (f : FmtML) (s : State) : Out := act s fun d => d.mIssue n (.mload n f) f.hd (mlRsv f)

/-- MSTREAM: weight-stationary (R132, R139). -/
def execMstream (n : CoreId) (f : FmtMS) (s : State) : Out := act s fun d => d.mIssue n (.mstream n f) f.hd (msRsv f)

/-- MSTREAM.T: transposed (R132, R133). -/
def execMstreamT (n : CoreId) (f : FmtMS) (s : State) : Out := act s fun d => d.mIssue n (.mstreamT n f) f.hd (msRsv f)

/-- MDIST: a distance form over the weight-stationary dataflow (R149). -/
def execMdist (n : CoreId) (f : FmtMD) (s : State) : Out := act s fun d => d.mIssue n (.mdist n f) f.hd (mdRsv f)

/-- MDIST.T: a distance form over the transposed dataflow (R149). -/
def execMdistT (n : CoreId) (f : FmtMD) (s : State) : Out := act s fun d => d.mIssue n (.mdistT n f) f.hd (mdRsv f)

/-- MSTREAM.OS: output-stationary over K k-steps (R132, R140, R231). -/
def execMstreamOs (n : CoreId) (f : FmtMO) (s : State) : Out := act s fun d => d.mIssue n (.mstreamOs n f) f.hd (moRsv f)

/-- MDRAIN: accepted by the drain-out unit, which performs one and keeps two waiting (R136, R142, R233). -/
def execMdrain (n : CoreId) (f : FmtMR) (s : State) : Out :=
  act s fun d => d.slotIssue n 2 (.mdrain n f) f.hd .normal (mrRsv f) fun d =>
    let q := (d.core n).drainOp f
    let h := b2n q.half
    if q.count = 0 then .go d
    else if (d.core n).drainFull q then .wait 1
    else if q.addr % 128 ≠ 0 then .go (d.isaFault n (d.mSet n h) 2 4 q.addr)
    else .go (d.modCore n fun c => c.setUnit h { c.unit h with dq := (c.unit h).dq ++ [q] })

/-! ## Admission (R134, R135, R149, R230, R232) -/

/-- Formats of the 8-bit group but INT8. -/
def grp8 (k : Nat) : Bool := decide (k ≤ 5)

/-- Pairs of Table 2. -/
def pairOk (a b : Nat) : Bool :=
  if a = 6 ∨ b = 6 then a == 6 && b == 6
  else (grp8 a && grp8 b) || (pair16 a b && (grp8 a || pair16 a a) && (grp8 b || pair16 b b))

/-- Whether an array instruction meeting a tile is admitted; KIND 1 when not. With no tile loaded every cell holds +0 and any stream is met (log 15). -/
def ArrOp.admitted (o : ArrOp) (split : Bool) (t : Option Tile) : Bool :=
  let k2 := match t with | some t => t.k2 | none => o.fmt == 5
  let w := match t with | some t => t.fmt | none => o.fmt
  let long := decide (o.stride * 128 < rowBytes o.fmt (if k2 && o.op != 4 && o.op != 3 then 256 else 128))
  match o.op with
  | 1 => !o.k2 || o.fmt == 5
  | 2 => pairOk o.fmt w && !long && (o.fmt != 5 || w != 5 || k2) && (!k2 || o.fmt == 5)
  | 3 => !split && pairOk o.fmt w && !long && !(t.isSome && isMX w) && (!k2 || o.fmt == 5)
  | 4 => pairOk o.fmt o.fmtB && !(o.fmt == 5 && o.fmtB == 5 && o.count % 2 == 1) && !long &&
      decide (rowBytes o.fmtB (if split then 64 else 128) ≤ o.stride * 128)
  | _ => !split && o.fmt == w && (o.fmt == 0 || o.fmt == 1 || o.fmt == 6 || o.fmt == 7 || o.fmt == 8) && !long

/-- The neutral element of a form (Table 5); +0 for the multiply dataflows. -/
def neutral (form : Nat) : Fval := if form = 2 then .inf false else if form = 3 then .inf true else .fin false 0 0

/-- The stationary rows as values, 128 or 256 of them, padded (R133). -/
def Tile.vals (t : Tile) (cols form : Nat) : List (List Fval) :=
  let kk := if t.k2 then 2 * t.klen else t.klen
  (List.range (if t.k2 then 256 else 128)).map fun k =>
    (List.range cols).map fun j =>
      if k < kk ∧ j < t.nlen then
        let e := (t.rows.getD k []).getD j 0
        if isMX t.fmt then mxDecode t.fmt ((t.scales.getD (k / 32) []).getD j 0) e else elemDecode t.fmt e
      else neutral form

/-! ## Operand values (R163, R230, R231) -/

/-- The values of one row given its elements and its scales, which `at_` names for an element. -/
def rowVals (fmt : Nat) (es : List Nat) (ss : List Byte) (at_ : Nat → Nat) : List Fval :=
  es.zipIdx.map fun p => if isMX fmt then mxDecode fmt (ss.getD (at_ p.2) 0).toNat p.1 else elemDecode fmt p.1

/-- Streamed row i: one scale per 32 elements, the scales of 16 rows to a word. -/
def ArrRun.streamRow (r : ArrRun) (cols i : Nat) : List Fval :=
  let k := r.op.width cols
  rowVals r.op.fmt (unpack (elemBits r.op.fmt) k (r.rows.getD i [])) (r.scales.getD (i / 16) []) fun e => k / 32 * (i % 16) + e / 32

/-- K-step i of A, and of B: one scale per position and 32 steps. -/
def ArrRun.stepA (r : ArrRun) (i : Nat) : List Fval :=
  rowVals r.op.fmt (unpack (elemBits r.op.fmt) 128 (r.rows.getD i [])) (r.scales.getD (i / 32) []) id
def ArrRun.stepB (r : ArrRun) (cols i : Nat) : List Fval :=
  rowVals r.op.fmtB (unpack (elemBits r.op.fmtB) cols (r.rowsB.getD i [])) (r.scalesB.getD (i / 32) []) id

/-! ## Results (R149, R150, R162 to R164) -/

/-- Round a value once to FP32. -/
def round32 (v : Fval) : Fval := ofFP32 (toFP32 v)

/-- FP32 sum. -/
def add32 (a b : Fval) : Fval := round32 (a.add b)

/-- Minimum and maximum that a NaN wins (R150). -/
def minNan (a b : Fval) : Fval := if a.isNan || b.isNan then .nan else a.minNum b
def maxNan (a b : Fval) : Fval := if a.isNan || b.isNan then .nan else a.maxNum b

/-- The magnitude of a value. -/
def Fval.mag : Fval → Fval
  | .fin _ m e => .fin false m e
  | .inf _ => .inf false
  | v => v

/-- A cell's term: the product, or a form of Table 5 on FP32 values. -/
def cellTerm (form : Nat) (x w : Fval) : Fval :=
  match form with
  | 0 => (add32 x w.neg).mag
  | 1 => let y := add32 x w.neg; round32 (y.mul y)
  | 2 => add32 x w
  | 3 => add32 x w
  | 4 => if w.lt x then Fval.ofInt 1 else .fin false 0 0
  | _ => round32 (x.mul w)

/-- How terms join along the sum path, and how a finished sum combines with the row's earlier content. -/
def joinTerm (form : Nat) (a b : Fval) : Fval :=
  match form with
  | 2 => minNan a b
  | 3 => maxNan a b
  | _ => add32 a b

/-- The sum over paired elements, from +0 or the form's neutral element, in ascending order (R163). -/
def sumPath (form : Nat) (xs ws : List Fval) : Fval :=
  (List.zipWith (cellTerm form) xs ws).foldl (joinTerm form) (neutral form)

/-- Adjacent products of the 4-bit group are added exactly before the one rounding (R162). -/
def sumPairs : List Fval → List Fval → Fval → Fval
  | x :: x' :: xs, w :: w' :: ws, acc => sumPairs xs ws (add32 acc (round32 ((x.mul w).add (x'.mul w'))))
  | _, _, acc => acc

/-- Column j of a list of rows. -/
def column (rows : List (List Fval)) (j : Nat) : List Fval := rows.map fun r => r.getD j (.fin false 0 0)

/-- Column j of the stationary values, and stationary row k of a K2 tile by streamed element. -/
def pairCell (cells : List (List Fval)) (k : Nat) : List Fval :=
  (List.range 256).map fun j => (cells.getD (2 * k + j % 2) []).getD (j / 2) (.fin false 0 0)

/-- The new sums of result row i of a stream (Table 1), before the combine. -/
def ArrRun.streamSums (r : ArrRun) (cols i : Nat) : List Fval :=
  let x := r.streamRow cols i
  let dup := x.flatMap fun v => [v, v]
  match r.op.op with
  | 3 => (List.range 128).map fun k => if r.op.k2 then sumPairs dup (pairCell r.cells k) (.fin false 0 0) else sumPath 8 x (r.cells.getD k [])
  | 6 => (List.range 128).map fun k => sumPath r.op.form x (r.cells.getD k [])
  | _ => (List.range cols).map fun j =>
      if r.op.k2 then sumPairs x (column r.cells j) (.fin false 0 0) else sumPath r.op.form x (column r.cells j)

/-- The sums of an output-stationary pass: 128 rows of the cells' sum registers (R132, R140). -/
def ArrRun.stepSums (r : ArrRun) (cols : Nat) : List (List Fval) :=
  let as := (List.range r.op.count).map r.stepA
  let bs := (List.range r.op.count).map (r.stepB cols)
  (List.range 128).map fun i =>
    let a := column as i
    (List.range cols).map fun j => if r.op.paired then sumPairs a (column bs j) (.fin false 0 0) else sumPath 8 a (column bs j)

/-- A result row as written (R141): columns at or above the tile's extent are +0, or left with ACC. -/
def ArrRun.rowOut (r : ArrRun) (cols : Nat) (sums : List Fval) (old : List (BitVec 32)) : List (BitVec 32) :=
  let ext := if r.op.op = 4 then cols else r.op.nlen
  sums.zipIdx.map fun p =>
    let prev := old.getD p.2 0
    if ext ≤ p.2 then (if r.op.acc then prev else 0)
    else BitVec.ofNat 32 (toFP32 (if r.op.acc then joinTerm r.op.form (ofFP32 prev.toNat) p.1 else p.1))

/-! ## Zero gating (R148) -/

/-- Whether a product is gated: one operand ±0, the other finite. -/
def gatedProd (x w : Fval) : Bool := (x.isZero && !w.special) || (w.isZero && !x.special)

/-- How many of some cells are gated. -/
def countCells (rows cols : Nat) (g : Nat → Nat → Bool) : Nat :=
  (List.range rows).foldl (fun s k => (List.range cols).foldl (fun s j => s + b2n (g k j)) s) 0

/-- Gated cell-cycles of streamed row i: one cell per stationary row and column, both products in the 4-bit group. -/
def ArrRun.gatedRow (r : ArrRun) (cols i : Nat) : Nat :=
  let x := r.streamRow cols i
  let cell := fun k j => (r.cells.getD k []).getD j (.fin false 0 0)
  let at_ := fun k => x.getD k (.fin false 0 0)
  match r.op.op with
  | 2 => r.op.rowCycles * countCells 128 cols fun k j =>
      if r.op.k2 then gatedProd (at_ (2 * k)) (cell (2 * k) j) && gatedProd (at_ (2 * k + 1)) (cell (2 * k + 1) j) else gatedProd (at_ k) (cell k j)
  | 3 => r.op.rowCycles * countCells 128 128 fun k j =>
      if r.op.k2 then gatedProd (at_ j) (cell (2 * k) j) && gatedProd (at_ j) (cell (2 * k + 1) j) else gatedProd (at_ j) (cell k j)
  | _ => 0

/-- Gated cell-cycles of a pass; a cell of a 4-bit pass takes two k-steps in a cycle. -/
def ArrRun.gatedSteps (r : ArrRun) (cols : Nat) : Nat :=
  (List.range r.op.entries).foldl (fun s e =>
    s + r.op.rowCycles * countCells 128 cols fun i j => (r.op.rowsOf e).all fun k =>
      gatedProd ((r.stepA k).getD i (.fin false 0 0)) ((r.stepB cols k).getD j (.fin false 0 0))) 0

/-- Count gated cell-cycles ÷ 1,024, the remainder carried (R148, R158). -/
def Dev.countGated (d : Dev) (n h k : Nat) : Dev :=
  if d.bit (F.MTX_CORE_CTRL_GATE_EN n) = false then d
  else
    let u := (d.core n).unit h
    let t := u.gated + k
    ((d.count (F.MTX_GATED_CELLS n) (t / 1024)).monitor 5 n (t / 1024)).modCore n fun c => c.setUnit h { u with gated := t % 1024 }

/-! ## Events -/

/-- The stationary values that a stream meets; no tile is +0 in every cell (log 15). -/
def ArrUnit.cellsFor (u : ArrUnit) (cols : Nat) (o : ArrOp) : List (List Fval) :=
  match u.tile with
  | some t => t.vals cols o.form
  | none => List.replicate (if o.k2 then 256 else 128) (List.replicate cols (.fin false 0 0))

/-- An admitted instruction enters the array: an MLOAD for 128 cycles, the others until their last result (R132, R139, R158). -/
def Dev.beginRun (d : Dev) (n h : Nat) (r : ArrRun) : Dev :=
  let k := r.op.occupancy
  ((d.count (F.MTX_RUN_CC_CC n) k).monitor 2 n k).modCore n fun c =>
    let u := c.unit h
    c.setUnit h (if r.op.op = 1 then { u with ld := some r }
      else { u with run := u.run ++ [if r.op.op = 4 then r else { r with cells := u.cellsFor (d.cols n) r.op }] })

/-- Whether what is in the array has yet to take in rows (R137, R153). -/
def ArrUnit.taking (u : ArrUnit) : Bool := u.ld.isSome || u.run.any fun r => !r.waits.isEmpty || r.bad.isSome

/-- ARRAY_INSTRUCTION_BEGIN: the first waiting array instruction of a half begins in the cycle R137 gives: 32 cc after its acceptance, with the array
free and its first rows in the feeders. One whose operands are not admitted faults (R134, R135, R149, R232). -/
def execArrayInstructionBegin (n : CoreId) (half : Bool) (s : State) : Out :=
  act s fun d =>
    let h := b2n half
    match ((d.core n).unit h).aq with
    | [] => d
    | r0 :: _ =>
      let d := d.feed n r0.t
      let u := (d.core n).unit h
      match u.aq with
      | [] => d
      | r :: aq =>
        if u.taking then d
        else
          let d := d.modCore n fun c => c.setUnit h { c.unit h with aq := aq }
          if r.op.admitted (d.split n) u.tile then d.beginRun n h r else d.arrayFault n h r.op 1 0 r.t r.op.addr

/-- The operand row that comes to enter the array first of those that could not be read: its cycle, half and instruction (R152). -/
def CoreSt.badRow (c : CoreSt) : Option (Nat × Nat × ArrRun × Nat × Nat × Nat) :=
  (([0, 1].flatMap fun h => (c.unit h).run.filterMap fun r => r.bad.map fun q => (r.enter q.1, h, r, q))).foldl (fun m x =>
    match m with
    | some y => if x.1 < y.1 then some x else some y
    | none => some x) none

/-- An instruction leaves the array. -/
def CoreSt.leave (c : CoreSt) (h : Nat) (r : ArrRun) : CoreSt := c.setUnit h { c.unit h with run := (c.unit h).run.erase r }

/-- Feed the array up to the next result row of a half; an operand row that faults before then does so first, and its freeze puts the row off. At
most k rows fault. -/
def Dev.toResult (d : Dev) (n h : Nat) : Nat → Dev
  | 0 => d
  | k + 1 =>
    match ((d.core n).unit h).run with
    | [] => d
    | r :: _ =>
      let d := d.feed n (r.due r.next)
      match (d.core n).badRow with
      | none => d
      | some (t, g, x, q) =>
        if r.due r.next < t ∨ (d.core n).freezeDue t then d
        else ((d.modCore n fun c => c.leave g x).operandFault n g x.op q t).toResult n h k

/-- The registers of wrong parity that a result row of an instruction passes (R152). -/
def ArrUnit.parityHit (u : ArrUnit) (o : ArrOp) : Bool :=
  u.par.any fun k => k == 2 || k == 3 || (k == 0 && o.op != 4) || (k == 1 && o.op == 4)

/-- The sum registers of a pass fill as its last step enters (R132). -/
def Dev.fillSums (d : Dev) (n h : Nat) (r : ArrRun) : Dev :=
  if r.op.op ≠ 4 ∨ r.next ≠ 0 then d
  else
    let cols := d.cols n
    let rows := (r.stepSums cols).map fun row => row.map fun v => BitVec.ofNat 32 (toFP32 v)
    (d.countGated n h (r.gatedSteps cols)).modCore n fun c => c.setUnit h { c.unit h with sums := rows.zipIdx.map fun p => (p.2, p.1) }

/-- Write the next result row of an instruction (R141). -/
def Dev.writeRow (d : Dev) (n h : Nat) (r : ArrRun) (rs : List ArrRun) : Dev :=
  let sp := d.split n
  let cols := d.cols n
  let j := (r.op.row0 + r.next) % 2048
  let d := d.fillSums n h r
  let d := if r.op.op = 4 then d else d.countGated n h (r.gatedRow cols r.next)
  d.modCore n fun c =>
    let sums := if r.op.op = 4 then (Store.get (fun _ => []) (c.unit h).sums r.next).map fun w => ofFP32 w.toNat else r.streamSums cols r.next
    let c := c.accPut sp h j (r.rowOut cols sums (c.accGet sp h j))
    let c := { c with accLast := Store.put (fun _ => 0) c.accLast (accBuf sp h j) (r.due r.next) }
    c.setUnit h { c.unit h with run := if r.next + 1 < r.op.resultRows then { r with next := r.next + 1 } :: rs else rs }

/-- RESULT_ROW_WRITE: the oldest instruction of a half with results due writes its next row (R140, R141), or faults (R152, R153). The row waits for a
freeze that comes before it, and for an MDRAIN accepted earlier that has yet to read it (R144, R146). -/
def execResultRowWrite (n : CoreId) (half : Bool) (s : State) : Out :=
  act s fun d =>
    let h := b2n half
    let d := d.toResult n h 8
    let u := (d.core n).unit h
    match u.run with
    | [] => d
    | r :: rs =>
      let t := r.due r.next
      let j := (r.op.row0 + r.next) % 2048
      let fault := fun (d : Dev) (kind : Nat) => (d.modCore n fun c => c.leave h r).arrayFault n h r.op kind r.next t 0
      if (d.core n).freezeDue t || u.drainDue r.op.no j then d
      else if u.parityHit r.op then fault d 2
      else if r.op.acc then
        match d.accRead n (d.split n) h j with
        | (d, true) => fault d 4
        | (d, false) => d.writeRow n h r rs
      else d.writeRow n h r rs

/-- A cycle in which the array of both halves stands still is counted and told (R146, R158). -/
def Dev.freezeTold (d : Dev) (n : Nat) (drain : Bool) : Dev :=
  let d := (d.freezeCount n 1).raise (F.MTX_EVENT_FREEZE n) n clsInfo
  if drain then (d.count (F.MTX_DRAIN_FREEZE_CC_CC n) 1).raise (F.MTX_EVENT_DRAIN_FREEZE n) n clsInfo else d

/-- An instruction of a half freezes in a cycle, at operand or result row i; with FREEZE_FAULT its first freeze is a fault (R147). -/
def Dev.frozeAt (d : Dev) (n h i t : Nat) (before after : ArrRun) : Dev :=
  let put := fun (r : ArrRun) => if r = before then { after with froze := true } else r
  if d.bit (F.MTX_CORE_CTRL_FREEZE_FAULT n) && !before.froze then
    (d.modCore n fun c =>
      let u := c.unit h
      c.setUnit h { u with run := u.run.erase before, ld := u.ld.filter (· ≠ before) }).arrayFault n h before.op 6 i t 0
  else d.modCore n fun c => c.setUnit h { c.unit h with run := (c.unit h).run.map put, ld := (c.unit h).ld.map put }

/-- A freeze cycle lengthens what the unit has in the array but for one instruction, whose plan has it already (R146). -/
def ArrUnit.freezeOthers (u : ArrUnit) (r : ArrRun) : ArrUnit :=
  let g := fun (x : ArrRun) => if x = r then x else x.shift 1
  { u with run := u.run.map g, ld := u.ld.map g }

/-- The latest row that has entered by a cycle, 0 for none. -/
def ArrRun.rowIn (r : ArrRun) (t : Nat) : Nat := ((List.range r.op.rowsIn).filter fun i => decide (r.enter i ≤ t)).length - 1

/-- FREEZE_CYCLE: the feeder that the next row needs is empty, in the cycle that its plan gives; or the drain must write a row while its queue of 16 is
full behind one that waits for an MDRAIN (R144 to R147); or bus hold or the throttle stops the array in a cycle (R423, R424). -/
def execFreezeCycle (n : CoreId) (half : Bool) (cause : FreezeCause) (s : State) : Out :=
  act s fun d =>
    let h := b2n half
    let u := (d.core n).unit h
    match cause with
    | .power =>
      let c := d.core n
      let t := d.nowCc
      let stops := d.bit F.PWR_STATUS_HOLD || decide (t % 16 < d.fld F.PWR_THROTTLE_LEVEL)
      if !stops || (decide (c.frozen.1 ≤ t) && decide (t < c.frozen.2)) then d
      else
        let d := (d.modCore n fun c => c.freezeAll t 1).freezeTold n false
        match ((d.core n).unit h).inArray with
        | [] => d
        | x :: _ => d.frozeAt n h (x.rowIn t) t x x
    | .drain =>
      match u.run with
      | [] => d
      | r :: _ =>
        let i := r.next + 16
        if u.drainDue r.op.no ((r.op.row0 + r.next) % 2048) = false ∨ (u.run.map fun x => x.op.resultRows - x.next).sum ≤ 16 then d
        else
          let t := r.due i
          let d := (d.modCore n fun c => c.freezeAll t 1).freezeTold n true
          match ((d.core n).unit h).run with
          | [] => d
          | x :: _ => d.frozeAt n h i t x x
    | .feeder =>
      match u.inArray.find? fun r => !r.waits.isEmpty with
      | none => d
      | some r =>
        match r.waits with
        | [] => d
        | (i, k) :: ws =>
          let t := r.t + r.op.off i + r.freeze
          let d := d.modCore n fun c =>
            let c := { c with frozen := (if c.frozen.2 = t then c.frozen.1 else t, t + 1) }
            (c.setUnit h ((c.unit h).freezeOthers r)).setUnit (1 - h) ((c.unit (1 - h)).frozenFor t 1)
          (d.freezeTold n false).frozeAt n h i t r { r with freeze := r.freeze + 1, waits := if k ≤ 1 then ws else (i, k - 1) :: ws }

/-! ## MDRAIN (R142, R233) -/

/-- Convert one row: generators are those of its array columns (R171); the bytes of the row and its block scales. -/
def CoreSt.drainRow (c : CoreSt) (q : DrainOp) (h cols : Nat) (ls : List (BitVec 32)) : CoreSt × List Byte × List Byte :=
  let vs := ls.map fun l => ofFP32 l.toNat
  let lane := fun k => 128 + h * cols % 128 + k
  let bits := elemBits q.ofmt
  if isMX q.ofmt then
    let (c, ss, es) := c.mxBlocks q.ofmt q.sr lane (cols / 32) 0 vs
    (c, leBytes (rowBytes q.ofmt cols) (packElems bits es), ss.map (BitVec.ofNat 8 ·))
  else
    let (c, es) := c.narrow q.ofmt q.sat q.sr lane 0 vs
    (c, leBytes (rowBytes q.ofmt cols) (packElems bits es), [])

/-- A matrix engine write at a local offset; a KIND when it is refused. -/
def Dev.mWrite (d : Dev) (n set a : Nat) (bs : List Byte) : Except Nat Dev :=
  match d.localChk n set a bs.length 1 false with
  | .isa q => .error q
  | .scp q => .error q
  | .ok p => .ok (d.scpWrite n p bs)

/-- MDRAIN stops at a faulting row, whose cycle is given: rows performed stay, the array does not freeze, and the array unit drops what waits
(R153). -/
def Dev.drainFault (d : Dev) (n h : Nat) (q : DrainOp) (kind row cycle addr : Nat) : Dev :=
  let d := d.mtxRecord n kind (if d.split n then h else 0) 6 row cycle
  let d := d.modCore n fun c => c.setUnit h { c.unit h with aq := [] }
  d.engineFault n (d.mSet n h) 2 q.bundle 2 kind addr cycle

/-- A row of an MDRAIN that cannot be written (R152). -/
def Dev.drainRefused (d : Dev) (n h : Nat) (q : DrainOp) (kind row cycle addr : Nat) : Dev :=
  (d.scpRecord n (d.mSet n h) kind 0 addr).drainFault n h q 3 row cycle addr

/-- Perform rows from i on, read in the cycles given; a scale word follows the last of its 16 rows (R142, R233). -/
def Dev.drainRows (d : Dev) (n h : Nat) (q : DrainOp) : List Nat → Nat → List Byte → Dev
  | [], _, _ => d
  | t :: ts, i, ss =>
    let sp := d.split n
    let cols := d.cols n
    let set := d.mSet n h
    let s := cols / 32
    match d.accRead n sp h ((q.row0 + i) % 2048) with
    | (d, true) => d.drainFault n h q 4 i t 0
    | (d, false) =>
      let (c, bs, row) := (d.core n).drainRow q h cols ((d.core n).accGet sp h (q.row0 + i))
      let d := d.setCore n c
      let a := q.addr + i * q.stride * 128
      match d.mWrite n set a bs with
      | .error k => d.drainRefused n h q k i t a
      | .ok d =>
        let ss := ss ++ row
        if isMX q.ofmt && (i % 16 == 15 || ts.isEmpty) then
          let b := q.addr + ceilDiv q.count 16 * 16 * q.stride * 128 + 128 * (i / 16)
          match d.mWrite n set b ((ss ++ zeros (16 * s)).take (16 * s)) with
          | .error k => d.drainRefused n h q k i t b
          | .ok d => d.drainRows n h q ts (i + 1) []
        else d.drainRows n h q ts (i + 1) ss

/-- MDRAIN_COMPLETE: the drain-out unit's MDRAIN has read and performed its rows (R142, R143), which waits while an array instruction accepted earlier
has yet to write one of them (R144). A row count above 2,048 faults when it would begin (R229). -/
def execMdrainComplete (n : CoreId) (half : Bool) (s : State) : Out :=
  act s fun d =>
    let h := b2n half
    let c := d.core n
    let u := c.unit h
    match u.dq with
    | [] => d
    | q :: dq =>
      let done := fun (d : Dev) (free : Nat) => d.modCore n fun c => c.setUnit h { c.unit h with dq := dq, dFree := free }
      let from_ := q.start u.dFree
      if 2048 < q.count then (done d from_).drainFault n h q 1 0 from_ q.addr
      else if (List.range q.count).any (fun i => u.rowDue q.no ((q.row0 + i) % 2048)) then d
      else
        let ts := c.readCycles (d.split n) h q q.count 0 from_
        let last := ts.getLastD from_
        ((done d (last + 1)).feed n (last + 4)).drainRows n h q ts 0 []

/-- SPLIT changes (R155): every stationary and sum register clears, a fence ends, and SCP_CORE_STATUS.SPLIT follows. -/
def Dev.setSplit (d : Dev) (n : Nat) (v : Bool) : Dev :=
  if d.split n = v then d
  else
    let d := d.setFld (F.MTX_CORE_CTRL_SPLIT n) (b2n v)
    let d := d.setFld (F.SCP_CORE_STATUS_SPLIT n) (b2n v)
    let d := d.setFld (F.MTX_CORE_STATUS_FENCED0 n) 0
    let d := d.setFld (F.MTX_CORE_STATUS_FENCED1 n) 0
    d.modCore n fun c =>
      let kept := fun h => { ArrUnit.reset with gated := (c.unit h).gated }
      (c.setUnit 0 (kept 0)).setUnit 1 (kept 1)

/-- A write of MTX_CORE_CTRL (R155, R158): discarded for SPLIT while the core runs, refused for SPLIT = 1 without a valid set 1. -/
def Dev.writeCoreCtrl (d : Dev) (n v : Nat) : Dev :=
  let d := d.setFld (F.MTX_CORE_CTRL_FREEZE_FAULT n) (v / 8)
  let d := d.setFld (F.MTX_CORE_CTRL_GATE_EN n) (v / 4)
  let sp := bitOf v 0
  if sp = d.split n then d
  else if d.running n then d.raise (F.MTX_EVENT_LOCKED_WRITE n) n clsInfo
  else if sp && !(d.bit (ctxValid 1 n)) then d.raise (F.MTX_EVENT_CONFIG_ERR n) n clsInfo
  else d.setSplit n sp

/-- SPLIT_WRITE (R155): firmware writes MTX_CORE_CTRL. -/
def execSplitWrite (n : CoreId) (v : Word) (s : State) : Out := act s fun d => d.writeCoreCtrl n v.toNat

end Sys2Proof.Machine
end

