-- ==== Sys2Proof/Machine/Streams.lean ====
section
/-! DEFINITION. The stream and context engine: contexts, channels, descriptors, slots, movers, release and kill (R266 to R292). -/

namespace Sys2Proof.Machine

/-! ## Accesses beyond the device (R297, R299, R353) -/

/-- An access that leaves the device is sent, or refused and recorded: to another device of the board, or through a far aperture (R299). -/
def Dev.leave (d : Dev) (addr : Nat) (data : List Byte) : Dev × Bool :=
  let off := addr % 2 ^ 44
  if addr / 2 ^ 44 ≠ d.slotNo then
    let (tx, ty) := d.boardXY (addr / 2 ^ 44 % 16)
    if d.inRegion tx ty = false then (d.ownRecord 8 off, false)
    else match d.routePort tx ty with
      | none => (d.ownRecord 8 off, false)
      | some p => (d.sendPacket p 1 (some (none, off)) data, true)
  else
    let j := (off - farBase) / 2 ^ 34
    let tx := d.fld (F.DEV_APER_X j)
    let ty := d.fld (F.DEV_APER_Y j)
    if d.bit (F.DEV_APER_VALID j) = false then (d.ownFault 7 off F.DEV_WIN_EVENT_APERTURE, false)
    else if d.inRegion tx ty = false then (d.ownFault 8 off F.DEV_WIN_EVENT_APERTURE, false)
    else match d.routePort tx ty with
      | none => (d.ownFault 8 off F.DEV_WIN_EVENT_APERTURE, false)
      | some p => (d.sendPacket p 1 (some (some (d.fld (F.DEV_APER_WIN j)), (off - farBase) % 2 ^ 34)) data, true)

/-- Whether a board address lies beyond the device: another device of the board, or a far aperture. -/
def Dev.beyond (d : Dev) (addr : Nat) : Bool :=
  addr / 2 ^ 44 != d.slotNo || regionOf (addr % 2 ^ 44) 1 == .far

/-- Read n bytes at a board address; `peer` is what a device beyond answers, none for an error. -/
def Dev.brdRead (d : Dev) (tag addr n : Nat) (peer : Option (List Byte)) : Dev × Option (List Byte) :=
  if 2 ^ 48 ≤ addr then (d.ownFault 1 (addr % 2 ^ 44) F.DEV_WIN_EVENT_UNMAPPED, none)
  else if d.beyond addr then
    match d.leave addr [] with
    | (d, false) => (d, none)
    | (d, true) => (d, peer.map fun bs => (bs ++ zeros n).take n)
  else d.memRead tag (addr % 2 ^ 44) n

/-- Write bytes at a board address. -/
def Dev.brdWrite (d : Dev) (tag addr : Nat) (bs : List Byte) : Dev × Bool :=
  if 2 ^ 48 ≤ addr then (d.ownFault 1 (addr % 2 ^ 44) F.DEV_WIN_EVENT_UNMAPPED, false)
  else if d.beyond addr then d.leave addr bs
  else d.memWrite tag (addr % 2 ^ 44) bs

/-! ## Faults (R291) -/

/-- STR_FAULT, its event and its count. -/
def Dev.strRecord (d : Dev) (kind ctx handle : Nat) : Dev :=
  let d := d.setFld F.STR_FAULT_KIND kind
  let d := d.setFld F.STR_FAULT_CTX ctx
  let d := d.setFld F.STR_FAULT_HANDLE handle
  (d.raise F.STR_EVENT_FAULT 0 clsContained).countErr F.STR_ERR_COUNT_FAULTS F.STR_EVENT_COUNT_SAT 0

/-- Who issues an operation of a core's set now, and firmware on a channel's behalf, which counts as the channel's context (R275, R291). -/
def Dev.issuer (d : Dev) (core set : Nat) : Issuer := ⟨core, set, d.fld (ctxId set core), (d.core core).kern, (d.core core).bundle⟩
def Chan.firmware (q : Chan) : Issuer := ⟨144, 0, q.ctx, 0, 0⟩

/-- A stream fault of work begun earlier, delivered to the context that pushed or armed it (R291, R202); firmware's is recorded only. -/
def Dev.lateStr (d : Dev) (a : Issuer) (job kind handle : Nat) : Dev :=
  let d := d.strRecord kind a.ctx handle
  if a.core < 144 then d.lateFault a.core a.set 3 a.bundle a.kern job 4 kind 0 (d.core a.core).cycle else d

/-! ## Descriptors (R274 to R276) -/

/-- Accept a descriptor. -/
def Dev.addDesc (d : Dev) (q : Desc) : Dev :=
  { d with str := { d.str with descs := d.str.descs ++ [{ q with id := d.str.nextDesc }], nextDesc := d.str.nextDesc + 1 } }

/-- Replace a descriptor, or take it out. -/
def Dev.setDesc (d : Dev) (q : Desc) : Dev :=
  { d with str := { d.str with descs := d.str.descs.map fun x => if x.id = q.id then q else x } }
def Dev.dropDesc (d : Dev) (id : Nat) : Dev := { d with str := { d.str with descs := d.str.descs.filter (·.id ≠ id) } }

/-- The core set through which firmware's pushes reach a context's HBM: the first bound to it (log 16). -/
def Dev.boundSet (d : Dev) (ctx : Nat) : Option (Nat × Nat) :=
  ((List.range 288).find? fun i => d.bit (ctxValid (i % 2) (i / 2)) && d.fld (ctxId (i % 2) (i / 2)) == ctx).map fun i => (i / 2, i % 2)

/-- Whether n bytes at a board address pass the job-tag check of absolute space: those in a scratchpad window of this device need a core that
admits the tag, and lie in its populated part (R117, R118, R275). -/
def Dev.absOk (d : Dev) (tag a n : Nat) : Bool :=
  let off := a % 2 ^ 44
  if a / 2 ^ 44 ≠ d.slotNo ∨ off + n ≤ scpBase ∨ scpBase + 0x90000000 ≤ off then true
  else
    (List.range 144).all fun c => decide (off + n ≤ scpWin c) || decide (scpWin c + 0x1000000 ≤ off) ||
      ((d.portSet c tag).isSome && decide (off + n ≤ scpWin c + scpBytes))

/-- Relocate and check n bytes of a space (R118, R120, R121, R275): a board address, or none. Firmware (core 144) has no local space. -/
def Dev.reloc (d : Dev) (core set ctx tag space a n : Nat) : Option Nat :=
  match space with
  | 0 =>
    if 144 ≤ core ∨ 4096 * d.fld (ctxBound4k set core) < a + n then none
    else some (d.slotNo * 2 ^ 44 + scpWin core + 4096 * d.fld (ctxBase4k set core) + a)
  | 1 =>
    match if core < 144 then some (core, set) else d.boundSet ctx with
    | none => none
    | some (c, s) =>
      if d.fld (ctxHbmBound s c) * 65536 < a + n then none
      else some (d.slotNo * 2 ^ 44 + d.fld (ctxHbmBase s c) * 65536 + a)
  | 2 => if 2 ^ 48 < a + n ∨ d.absOk tag a n = false then none else some a
  | _ => none

/-- The cluster of a core (R11): 12 rows of 12 cores, clusters of 4 × 3. -/
def clusterOf (core : Nat) : Nat := core / 12 / 4 * 3 + core % 12 / 4

/-! ## Templates (R275, Table 3) -/

/-- A signed 32-bit field. -/
def sNat (bs : List Byte) (at_ : Nat) : Int := signed 32 (kNat bs at_ 4)

/-- Read a template from its 64 bytes. -/
def templateOf (bs : List Byte) : Template :=
  let src := kNat bs 8 8
  let dst := kNat bs 16 8
  ⟨kNat bs 0 1, kNat bs 1 1, kNat bs 2 1, kNat bs 3 1, kNat bs 4 4, src % 2 ^ 48, src / 2 ^ 48 % 4, dst % 2 ^ 48, dst / 2 ^ 48 % 4,
    sNat bs 24, sNat bs 28, kNat bs 32 8, kNat bs 40 8, kNat bs 48 4, kNat bs 52 4, kNat bs 56 2⟩

/-- An address advanced by n steps, modulo 2^64: one below 0 lies in no space (R275). -/
def stepAddr (a : Nat) (n : Nat) (step : Int) : Nat := (((a : Int) + n * step) % 2 ^ 64).toNat

/-- CODEC template fields. -/
def Template.slot (t : Template) : Nat := t.codec % 16
def Template.rawOnly (t : Template) : Bool := bitOf t.codec 4
def Template.form (t : Template) : Nat := t.codec / 32 % 2
def Template.tickBound (t : Template) : Bool := bitOf t.flags 0
def Template.cache (t : Template) : Bool := bitOf t.flags 1

/-- The deadline of a template transfer accepted now (R276). -/
def Dev.deadlineOf (d : Dev) (t : Template) : Option Due :=
  if t.dlNs = 0xFFFFFFFF then none else some ⟨d.fld F.TCK_NUMBER_NUMBER + t.dlTicks, d.baseNs t.dlNs, none⟩

/-- The deadline of a DMOVE accepted now: the opening of the settle window (R276). -/
def Dev.moveDue (d : Dev) : Due := ⟨d.fld F.TCK_NUMBER_NUMBER + 1, -(d.baseNs 500 : Int), none⟩

/-- When a deadline falls, in time units; none while no domain runs. -/
def Dev.dueTime (d : Dev) (q : Due) : Option Nat := (q.at_.orElse fun _ => d.boundaryOf q.tick).map fun t => ((t : Int) + q.off).toNat

/-- The boundary that begins a tick has fired at a time: the deadlines counted from it stand (R276). -/
def Dev.passDues (d : Dev) (tick t : Nat) : Dev :=
  { d with str := { d.str with descs := d.str.descs.map fun (q : Desc) =>
      { q with deadline := q.deadline.map fun w => if w.tick = tick ∧ w.at_ = none then { w with at_ := some t } else w } } }

/-- A transfer's template addresses, relocated: source and destination, or none (R275). COPY follows the alignment of R237, PACK that of R260. -/
def Dev.relocTmpl (d : Dev) (core set ctx tag : Nat) (t : Template) (src dst len dlen : Nat) : Option (Nat × Nat) :=
  if t.kind = 1 ∧ (src % 64 ≠ 0 ∨ dst % 64 ≠ 0 ∨ len % 64 ≠ 0) then none
  else if t.kind = 2 ∧ dst % 128 ≠ 0 then none
  else match d.reloc core set ctx tag t.srcSpace src len, d.reloc core set ctx tag t.dstSpace dst dlen with
    | some a, some b => if t.kind ≠ 1 ∧ (d.beyond a ∨ d.beyond b) then none else some (a, b)
    | _, _ => none

/-! ## Streams (R280 to R282) -/

/-- Cancel a channel's work (R283, R284): its descriptors and run wait for the return of R285, and code table references are released
(R249). -/
def Dev.cancelChan (d : Dev) (i : Nat) : Dev :=
  let mine := d.str.descs.filter fun q => q.chan == i + 1 && !q.cancelled
  let d := mine.foldl (fun d q => if q.kind ≠ 1 then d.unrefSlot (tslot q.ctx q.tmpl.slot) else d) d
  let d := { d with str := { d.str with descs := d.str.descs.map fun (q : Desc) => if q.chan = i + 1 then { q with cancelled := true } else q } }
  let q := d.chan i
  let busy := !mine.isEmpty || q.run.isSome
  d.setChan i { q with run := none, rearm := none, armer := none, waited := false, entry := none, cancelled := q.cancelled || busy,
                       ready := if q.typ = 5 then q.ready - (q.pushes - q.launch) else q.ready,
                       launch := if q.typ = 5 then q.pushes else q.launch }

/-- Whether a channel has a fill whose units have not all started, or that has failed: fills run one after another (R282). -/
def Dev.fillOpen (d : Dev) (i : Nat) : Bool :=
  d.str.descs.any fun q => q.chan == i + 1 && q.slot.isSome && !q.cancelled && (q.err || decide (q.moved < q.len))

/-- Start the next fill of a run when its slot has drained and a descriptor is free (R280, R281); a fill whose addresses fail the check
raises KIND 6 and ends the run. -/
def Dev.startFill (d : Dev) (i : Nat) : Dev :=
  let q := d.chan i
  match q.run, q.armer with
  | some k, some a =>
    if q.live = false ∨ q.cancelled ∨ q.count ≤ k ∨ d.fillOpen i then d
    else
      let slot := q.fills % 2
      if q.drained.getD slot true = false then
        if d.bit (F.STR_CTX_FLAG_FAULT q.ctx) then (d.lateStr a q.job 5 (chanHandle i q)).cancelChan i
        else if q.waited then d
        else (d.setChan i { q with waited := true }).raise F.STR_EVENT_FLAG_WAIT 0 clsInfo
      else if d.descRoom q.ctx = false then d
      else
        let t := q.tmpl
        let src := stepAddr t.src k t.srcStep
        match d.relocTmpl a.core a.set q.ctx q.job t src (t.dst + slot * q.slotBytes) q.slotBytes q.slotBytes with
        | none => (d.lateStr a q.job 6 (chanHandle i q)).cancelChan i
        | some (x, y) =>
          let d := d.setChan i { q with run := some (k + 1), fills := q.fills + 1, waited := false }
          d.addDesc { Desc.blank with
            chan := i + 1, ctx := q.ctx, tag := q.job, core := a.core, set := a.set, cluster := clusterOf (if a.core < 144 then a.core else q.core),
            src := x, dst := y, len := q.slotBytes, tickBound := q.tickBound, cache := t.cache, slot := some slot, tmpl := t,
            pusher := a.ctx, kern := a.kern, bundle := a.bundle }
  | _, _ => d

/-- What an operation on a channel comes to. -/
inductive ChanAct where
  | done (d : Dev)
  | fault (kind : Nat)
  | full

/-- Transfer n of a QUEUE or CODEC channel (R270, R274, R275). -/
def Dev.pushTransfer (d : Dev) (i : Nat) (a : Issuer) (dc : Option Nat) : ChanAct :=
  let q := d.chan i
  let t := q.tmpl
  if t.pushable q.typ a.core = false then .fault 2
  else if d.descRoom q.ctx = false then .full
  else
    let src := stepAddr t.src q.pushes t.srcStep
    let dst := stepAddr t.dst q.pushes t.dstStep
    match d.relocTmpl a.core a.set q.ctx q.job t src dst t.len (if t.kind = 2 then t.dstMax else if t.kind = 3 then 0 else t.len) with
    | none => .fault 6
    | some (x, y) =>
      let d := d.setChan i { q with pushes := (q.pushes + 1) % 2 ^ 32 }
      let d := if t.kind = 1 then d else d.refSlot (tslot q.ctx t.slot)
      .done (d.addDesc { Desc.blank with
        kind := t.kind, chan := i + 1, ctx := q.ctx, tag := q.job, core := a.core, set := a.set,
        cluster := clusterOf (if a.core < 144 then a.core else q.core), dc := dc, src := x, dst := y, len := t.len, tickBound := t.tickBound,
        cache := t.cache, deadline := d.deadlineOf t, tmpl := t, pusher := a.ctx, kern := a.kern, bundle := a.bundle,
        no := (d.core a.core).no })

/-- Release the oldest FULL slot of a STREAM or RING channel (R280); a waiting fill may then start. -/
def Dev.releaseSlot (d : Dev) (i : Nat) : Dev :=
  let q := d.chan i
  match q.order with
  | [] => d
  | k :: ks => (d.setChan i { q with full := q.full.set k false, drained := q.drained.set k true, order := ks }).startFill i

/-- PUSH (R270, Table 1). -/
def Dev.chanPush (d : Dev) (i : Nat) (a : Issuer) (dc : Option Nat) : ChanAct :=
  let q := d.chan i
  let release := fun (_ : Unit) =>
    let d := d.releaseSlot i
    ChanAct.done (match dc with | some k => d.modCore a.core fun c => c.later 1 3 (.dc a.set k) | none => d)
  match q.typ with
  | 1 => d.pushTransfer i a dc
  | 2 => release ()
  | 3 => release ()
  | 4 => d.pushTransfer i a dc
  | 5 => if q.count ≤ q.ready then .fault 2 else .done (d.setChan i { q with ready := q.ready + 1, pushes := q.pushes + 1 })
  | _ => .fault 2

/-- ARM (R282): a run starts, or a re-arm is held; a further ARM is rejected. -/
def Dev.chanArm (d : Dev) (i : Nat) (a : Issuer) : ChanAct :=
  let q := d.chan i
  if q.typ ≠ 2 then .fault 2
  else if q.tmpl.kind ≠ 1 ∨ q.tmpl.srcSpace = 3 ∨ q.tmpl.dstSpace = 3 ∨ (144 ≤ a.core ∧ (q.tmpl.srcSpace = 0 ∨ q.tmpl.dstSpace = 0)) then .fault 2
  else match q.run with
    | none => .done ((d.setChan i { q with run := some 0, armer := some a }).startFill i)
    | some _ => if q.rearm.isSome then .fault 3 else .done ((d.setChan i { q with rearm := some a }).raise F.STR_EVENT_REARM_HELD 0 clsInfo)

/-- CANCEL (R283). -/
def Dev.chanCancel (d : Dev) (i : Nat) : ChanAct :=
  let q := d.chan i
  if q.typ = 3 ∨ q.typ = 6 then .fault 2 else .done (d.cancelChan i)

/-! ## The landing-buffer cache (R286, R287) -/

/-- Landing slots that serve as cache. -/
def Dev.cacheSlots (d : Dev) : Nat :=
  if d.bit F.STR_CTRL_CACHE_EN = false ∨ d.bit F.TTH_CTRL_MODE then 0 else ((List.range 6).filter fun k => !(d.slotActive k)).length

/-- Invalidate the cache in full. -/
def Dev.cacheInv (d : Dev) : Dev := { d with str := { d.str with cache := [] } }

/-- Keep at most 8 lines of one set, newest first. -/
def cacheTrim (sets set : Nat) : Nat → List (Nat × Nat × Bool × List Byte) → List (Nat × Nat × Bool × List Byte)
  | _, [] => []
  | k, l :: ls =>
    if l.2.1 % sets = set then (match k with | 0 => cacheTrim sets set 0 ls | k + 1 => l :: cacheTrim sets set k ls)
    else l :: cacheTrim sets set k ls

/-- Put a line in, as the most recently used of its set. -/
def Dev.cacheFill (d : Dev) (tag line : Nat) (bs : List Byte) : Dev :=
  let sets := d.cacheSlots * 2048
  let lines := cacheTrim sets (line % sets) 8 ((tag, line, false, bs) :: d.str.cache.filter fun l => !(l.1 == tag && l.2.1 == line))
  { d with str := { d.str with cache := lines } }

/-- Read n bytes of own HBM through the cache, line by line. -/
def Dev.cacheRead (d : Dev) (tag a n : Nat) : Dev × Option (List Byte) × Bool :=
  let lines := (List.range (ceilDiv (a % 2048 + n) 2048)).map (a / 2048 + ·)
  let (d, bss, hit) := lines.foldl (fun (r : Dev × Option (List Byte) × Bool) l =>
    match r.2.1 with
    | none => r
    | some acc =>
      match r.1.str.cache.find? fun x => x.1 == tag && x.2.1 == l && !x.2.2.1 with
      | some x => (r.1.cacheFill tag l x.2.2.2, some (acc ++ x.2.2.2), r.2.2)
      | none => match r.1.hbmRead (2048 * l) 2048 with
        | (d, none) => (d, none, false)
        | (d, some bs) => (d.cacheFill tag l bs, some (acc ++ bs), false)) (d, some [], true)
  (d, bss.map fun bs => (bs.drop (a % 2048)).take n, hit)

/-- A WRITE unit updates the lines that hold its bytes. -/
def Dev.cacheUpdate (d : Dev) (a : Nat) (bs : List Byte) : Dev :=
  { d with str := { d.str with cache := d.str.cache.map fun l =>
      (l.1, l.2.1, l.2.2.1, l.2.2.2.zipIdx.map fun p =>
        let x := 2048 * l.2.1 + p.2
        if a ≤ x ∧ x < a + bs.length then bs.getD (x - a) 0 else p.1) } }

/-! ## Movers (R276 to R278) -/

/-- Class of a descriptor's units: 0 READ, 1 WRITE, 2 REMOTE (R278). A COMMAND channel's record (kind 4) is read to no destination. -/
def Dev.unitClass (d : Dev) (q : Desc) : Nat :=
  if d.beyond q.src || (q.kind != 4 && d.beyond q.dst) then 2 else if q.kind ≠ 4 ∧ q.dst % 2 ^ 44 < hbmSize then 1 else 0

/-- Where a COMMAND channel's next launch record lies: entry `launch` of its ring, relocated for its core's set (R275, R292). -/
def Dev.entryAddr (d : Dev) (i : Nat) : Option Nat :=
  let q := d.chan i
  d.reloc q.core q.set q.ctx q.job q.tmpl.srcSpace (q.tmpl.src + 128 * (q.launch % q.count)) 128

/-- Whether a COMMAND channel has a ready entry whose record has not been read. -/
def Chan.unread (q : Chan) : Bool := q.live && q.typ == 5 && !q.cancelled && decide (q.launch < q.pushes) && q.entry.isNone

/-- The reads of COMMAND channels that wait for a mover of a cluster, as transfers of one unit that are due now (R276, R277). -/
def Dev.entryReads (d : Dev) (cluster : Nat) : List Desc :=
  (List.range d.str.fresh).filterMap fun i =>
    let q := d.chan i
    if q.unread && clusterOf q.core == cluster then
      (d.entryAddr i).map fun a => { Desc.blank with kind := 4, chan := i + 1, ctx := q.ctx, tag := q.job, core := q.core, set := q.set,
                                                     cluster := cluster, src := a, len := 128 }
    else none

/-- When a STREAM channel's consumer runs dry (R276). -/
def Dev.fillDue (d : Dev) (c : Chan) : Nat :=
  let from_ := match c.order with | k :: _ => c.fullAt.getD k d.time | [] => d.time
  from_ + d.baseNs c.periodNs * c.order.length

/-- The deadline by which units compete (R276): that of a fill is when its consumer's buffer runs dry, that of a COMMAND read the present time. -/
def Dev.unitDeadline (d : Dev) (q : Desc) : Option Nat :=
  if q.kind = 4 then some d.time
  else match q.slot with
    | none => q.deadline.bind d.dueTime
    | some _ => some (d.fillDue (d.chan (q.chan - 1)))

/-- Whether a unit goes before another: earlier deadline, then lower channel index, then earlier acceptance. -/
def Dev.unitBefore (d : Dev) (a b : Desc) : Bool :=
  let rest := decide (a.chan < b.chan) || (a.chan == b.chan && decide (a.id < b.id))
  match d.unitDeadline a, d.unitDeadline b with
  | some x, some y => decide (x < y) || (x == y && rest)
  | some _, none => true
  | none, some _ => false
  | none, none => rest

/-- Shares of the classes (R278, R293). -/
def Dev.share (d : Dev) (c : Nat) : Int :=
  match c with
  | 0 => d.fld F.STR_CTRL_READ_SHARE
  | 1 => d.fld F.STR_CTRL_WRITE_SHARE
  | _ => d.fld F.STR_CTRL_REMOTE_SHARE

/-- A mover's accumulated share. -/
def Dev.shareAcc (d : Dev) (m c : Nat) : Int := Store.get (fun _ => 0) d.str.acc (m * 3 + c)
def Dev.setShareAcc (d : Dev) (m c : Nat) (v : Int) : Dev :=
  { d with str := { d.str with acc := Store.put (fun _ => 0) d.str.acc (m * 3 + c) v } }

/-- Choose a class by shares: the greatest accumulation, ties READ, WRITE, REMOTE. -/
def Dev.chooseClass (d : Dev) (m : Nat) (cs : List Nat) : Dev × Nat :=
  let d := cs.foldl (fun d c => d.setShareAcc m c (d.shareAcc m c + d.share c)) d
  let best := cs.foldl (fun b c => if d.shareAcc m b < d.shareAcc m c then c else b) (cs.headD 0)
  let sum := (cs.map d.share).foldl (· + ·) 0
  (d.setShareAcc m best (d.shareAcc m best - sum), best)

/-- Whether a mover of a cluster may start a unit of a descriptor. -/
def Desc.eligible (q : Desc) (cluster : Nat) : Bool := q.kind == 1 && !q.cancelled && !q.err && q.cluster == cluster && decide (q.moved < q.len)

/-- The bytes of a descriptor's next unit. -/
def Desc.unitLen (q : Desc) : Nat := min 2048 (q.len - q.moved)

/-- Whether a unit must wait for its homes: a stack under repair, or a full command queue (R322, R327); it then has not started (log 34). -/
def Dev.unitWaits (d : Dev) (q : Desc) (peer : Option (List Byte)) : Bool :=
  let n := q.unitLen
  let src := q.src + q.moved
  let dst := q.dst + q.moved
  (!(d.beyond src) && d.readWaits (src % 2 ^ 44) n) ||
    (q.kind != 4 && !(d.beyond dst) && d.writeWaits (dst % 2 ^ 44) (if d.beyond src then ((peer.getD []) ++ zeros n).take n else d.rd (src % 2 ^ 44) n))

/-- A unit starts: it is counted (R277, R278, R293). -/
def Dev.countUnit (d : Dev) (q : Desc) (cls : Nat) : Dev :=
  let d := d.count (match cls with | 0 => F.STR_UNITS_READ_UNITS | 1 => F.STR_UNITS_WRITE_UNITS | _ => F.STR_UNITS_REMOTE_UNITS) 1
  let d := d.monitor 8 q.cluster 1
  if q.unitLen < 2048 then (d.count F.STR_SHORT_UNITS 1).monitor 9 q.cluster 1 else d

/-- Read a unit's source, through the landing-buffer cache where it serves (R287). -/
def Dev.unitRead (d : Dev) (q : Desc) (peer : Option (List Byte)) : Dev × Option (List Byte) :=
  let n := q.unitLen
  let src := q.src + q.moved
  if q.cache && decide (0 < d.cacheSlots) && !(d.beyond src) && regionOf (src % 2 ^ 44) n == .hbm then
    let (d, bs, hit) := d.cacheRead q.tag (src % 2 ^ 44) n
    (if hit && bs.isSome then (d.count F.STR_CACHE_HIT_UNITS 1).monitor 10 0 1 else d, bs)
  else d.brdRead q.tag src n peer

/-- A fill's first write clears DRAINED of its slot (R280). -/
def Dev.fillBegins (d : Dev) (q : Desc) : Dev :=
  match q.slot with
  | some k => if q.moved = 0 then d.setChan (q.chan - 1) { d.chan (q.chan - 1) with drained := (d.chan (q.chan - 1)).drained.set k false } else d
  | none => d

/-- Move one unit of a descriptor; a COMMAND channel's record is kept for its launch. -/
def Dev.moveUnit (d : Dev) (q : Desc) (cls : Nat) (peer : Option (List Byte)) : Dev :=
  match (d.countUnit q cls).unitRead q peer with
  | (d, bs) =>
    if q.kind = 4 then d.setChan (q.chan - 1) { d.chan (q.chan - 1) with entry := some bs }
    else match bs with
      | none => d.setDesc { q with err := true }
      | some bs =>
        match (d.fillBegins q).brdWrite q.tag (q.dst + q.moved) bs with
        | (d, false) => d.setDesc { q with err := true }
        | (d, true) => (if cls = 1 then d.cacheUpdate ((q.dst + q.moved) % 2 ^ 44) bs else d).setDesc { q with moved := q.moved + q.unitLen }

/-- MOVER_UNIT_START: a mover starts one unit, or idles (R278); `peer` is what a device beyond answers for it. -/
def execMoverUnitStart (m : Fin 24) (peer : Option (List Byte)) (s : State) : Out :=
  act s fun d =>
    let d := ((List.range d.str.fresh).filter fun i => (d.chan i).run.isSome).foldl (fun d i => d.startFill i) d
    let es := (d.str.descs.filter (·.eligible (m.val / 2)) ++ d.entryReads (m.val / 2)).filter fun q => !(d.unitWaits q peer)
    let cs := (List.range 3).filter fun c => es.any fun q => d.unitClass q == c
    match cs with
    | [] => d
    | _ =>
      let (d, c) := d.chooseClass m.val cs
      match es.filter fun q => d.unitClass q == c with
      | [] => d
      | q :: qs => d.moveUnit (qs.foldl (fun b x => if d.unitBefore x b then x else b) q) c peer

/-- The handle of the channel a descriptor belongs to, 0 for a DMOVE. -/
def Dev.descHandle (d : Dev) (q : Desc) : Nat := if q.chan = 0 then 0 else chanHandle (q.chan - 1) (d.chan (q.chan - 1))

/-- Who pushed or armed a descriptor. -/
def Desc.issuer (q : Desc) : Issuer := ⟨q.core, q.set, q.pusher, q.kern, q.bundle⟩

/-- Whether a descriptor has been performed to its end, or has failed. -/
def Desc.finished (q : Desc) : Bool :=
  !q.cancelled && q.slot.isNone && (q.err || (decide (q.len ≤ q.moved) && (q.kind != 2 || (q.pack.map (·.done)).getD false)))

/-- DESCRIPTOR_COMPLETE: the i-th finished descriptor, in order of acceptance, ends (R237, R270, R291): its counter gains 1, or its error is
delivered; a code table reference is released (R249). -/
def execDescriptorComplete (i : Nat) (s : State) : Out :=
  act s fun d =>
    match (d.str.descs.filter Desc.finished)[i]? with
    | none => d
    | some q =>
      let d := d.dropDesc q.id
      let d := if q.kind = 1 then d else d.unrefSlot (tslot q.ctx q.tmpl.slot)
      if q.err then
        if q.chan = 0 then d.lateFault q.core q.set 3 q.bundle q.kern q.tag 3 6 0 (d.core q.core).cycle
        else if q.kind = 1 then d.lateStr q.issuer q.tag 7 (d.descHandle q) else d
      else match q.dc with
        | some k => if q.core < 144 then d.modCore q.core fun c => c.dcAdd q.set k else d
        | none => d

/-- STREAM_FILL_COMPLETE: the last byte of a channel's fill has been performed, so FULL sets; the next fill or a held re-arm may start
(R280, R282). -/
def execStreamFillComplete (i : Fin 8192) (s : State) : Out :=
  act s fun d =>
    match d.str.descs.find? fun q => q.chan == i.val + 1 && q.slot.isSome && !q.cancelled && (q.err || decide (q.len ≤ q.moved)) with
    | none => d
    | some q =>
      let d := d.dropDesc q.id
      let c := d.chan i.val
      if q.err then (d.lateStr q.issuer q.tag 7 (chanHandle i.val c)).cancelChan i.val
      else
        let k := q.slot.getD 0
        let c := { c with full := c.full.set k true, fullAt := c.fullAt.set k d.time, order := c.order ++ [k] }
        let left := d.str.descs.any fun x => x.chan == i.val + 1 && x.slot.isSome && !x.cancelled
        let c := if !left && c.run == some c.count then
            (match c.rearm with
             | some a => { c with run := some 0, armer := some a, rearm := none }
             | none => { c with run := none, armer := none })
          else c
        (d.setChan i.val c).startFill i.val

/-! ## Return of cancelled work (R285) -/

/-- Cancelled descriptors, stream slot states and the indices of destroyed channels return; a released context whose memories are zeroed becomes
FREE (R288). -/
def Dev.returnCancelled (d : Dev) : Dev :=
  let d := { d with str := { d.str with descs := d.str.descs.filter fun q => !q.cancelled } }
  let d := (List.range d.str.fresh).foldl (fun d i =>
    let q := d.chan i
    if q.cancelled = false then d
    else if q.live then
      (d.setChan i { q with cancelled := false, full := if q.typ = 2 then [false, false] else q.full,
                            drained := if q.typ = 2 then [true, true] else q.drained,
                            order := if q.typ = 2 then [] else q.order, fills := if q.typ = 2 then 0 else q.fills }).startFill i
    else { (d.setChan i { Chan.reset with gen := q.gen }) with str :=
      { (d.setChan i { Chan.reset with gen := q.gen }).str with freed := d.str.freed ++ [i] } }) d
  let free := d.str.rels.filter fun r => !r.tables
  let d := free.foldl (fun d r => ((d.setFld (F.STR_CTX_STATE r.ctx) 0).setFld (F.STR_CTX_JOB r.ctx) 0).raise F.STR_EVENT_RELEASED 0 clsInfo) d
  { d with str := { d.str with rels := d.str.rels.filter fun r => r.tables } }

/-- CANCELLED_RETURN: with no domain running, the last dropped read completes (R285). -/
def execCancelledReturn (s : State) : Out :=
  act s fun d => if d.bit F.TCK_CTRL_RUN then d else d.returnCancelled

/-! ## Channels (R271, R272) -/

/-- The reply word of a channel record. -/
def chanReply (handle result : Nat) : List Byte := leBytes 4 handle ++ leBytes 1 result ++ zeros 2 ++ leBytes 1 1

/-- Write the reply with release semantics and raise CHAN_DONE (R271). -/
def Dev.reply (d : Dev) (rec handle result : Nat) : Dev :=
  ((d.hbmWrite (rec + 56) (chanReply handle result)).1).raise F.STR_EVENT_CHAN_DONE 0 clsInfo

/-- Whether a channel record is invalid (R271, Tables 2 and 3). -/
def recBad (bs : List Byte) : Bool :=
  let typ := kNat bs 0 1
  let count := kNat bs 4 4
  let slotBytes := kNat bs 8 4
  let period := kNat bs 12 4
  let t := bs.drop 64
  let kind := kNat t 0 1
  let pow2 := (List.range 12).any fun k => count == 2 ^ (k + 1)
  let streams := typ == 2
  let command := typ == 5
  typ == 0 || decide (6 < typ) || decide (2 ≤ kNat bs 1 1) || (!streams && kNat bs 1 1 != 0) || kNat bs 2 2 != 0 ||
    (if streams then count == 0 else if command then !pow2 else count != 0) ||
    (if streams then slotBytes == 0 || slotBytes % 64 != 0 else slotBytes != 0) || (!streams && period != 0) ||
    (if command then decide (144 ≤ kNat bs 16 2) || decide (2 ≤ kNat bs 18 1) else kNat bs 16 3 != 0) ||
    ((bs.drop 19).take 29).any (· ≠ 0) || kNat bs 48 4 != 0 || kNat bs 52 4 != 0 ||
    decide (4 ≤ kNat t 1 1) || decide (64 ≤ kNat t 3 1) || decide (2 ^ 50 ≤ kNat t 8 8) || decide (2 ^ 50 ≤ kNat t 16 8) ||
    (kind != 2 && kNat t 2 1 != 0) || (kind == 2 && (kNat t 2 1 == 0 || decide (32 < kNat t 2 1))) ||
    (streams && kNat t 28 4 != 0) || ((kind != 2 || bitOf (kNat t 3 1) 5 == false) && kNat t 32 8 != 0) ||
    (kind != 2 && (kNat t 40 8 != 0 || kNat t 48 4 != 0)) || ((t.drop 58).take 6).any (· ≠ 0)

/-- CREATE (R272): the index free the longest, its next generation. -/
def Dev.chanCreate (d : Dev) (ctx rec : Nat) (bs : List Byte) : Dev :=
  let typ := kNat bs 0 1
  let core := kNat bs 16 2
  let set := kNat bs 18 1
  if recBad bs then d.reply rec 0 2
  else if typ = 5 ∧ ((List.range d.str.fresh).any fun i => (d.chan i).live && (d.chan i).typ == 5 && (d.chan i).core == core && (d.chan i).set == set)
  then d.reply rec 0 5
  else
    let pick := if d.str.fresh < 8192 then some d.str.fresh else d.str.freed.head?
    match pick with
    | none => d.reply rec 0 1
    | some i =>
      let gen := if (d.chan i).gen = 2047 then 1 else (d.chan i).gen + 1
      let q : Chan := { Chan.reset with live := true, gen := gen, typ := typ, ctx := ctx, job := d.fld (F.STR_CTX_JOB ctx), core := core, set := set,
                                        tickBound := bitOf (kNat bs 1 1) 0, count := kNat bs 4 4, slotBytes := kNat bs 8 4,
                                        periodNs := kNat bs 12 4, tmpl := templateOf (bs.drop 64) }
      let d := d.setChan i q
      let d := if d.str.fresh < 8192 then { d with str := { d.str with fresh := d.str.fresh + 1 } }
        else { d with str := { d.str with freed := d.str.freed.drop 1 } }
      d.reply rec (chanHandle i q) 0

/-- Destroy a channel (R272, R283): cancelled, stale from now on, its index returning at R285. -/
def Dev.chanDestroy (d : Dev) (i : Nat) : Dev :=
  let d := d.cancelChan i
  d.setChan i { d.chan i with live := false, cancelled := true }

/-- Whether the tether engine or the codec uses a channel (R272). -/
def Dev.chanBusy (d : Dev) (i : Nat) : Bool :=
  let q := d.chan i
  let h := chanHandle i q
  (q.typ == 3 && d.bit F.TTH_STATUS_ACTIVE && (List.range 144).any fun n => d.fld (F.CDC_RING_HANDLE n) == h) ||
    (q.typ == 6 && (d.bit F.TTH_STATUS_ACTIVE || d.bit F.TTH_CTRL_MODE) && q.job == d.fld (F.STR_CTX_JOB (d.fld F.CDC_CTRL_SPOOL_CTX)))

/-- A write of STR_CHAN_CMD (R271, R272, R293); one whose record lies in a stack under repair waits to be sent (log 180). -/
def Dev.chanCmd (d : Dev) (tag v : Nat) : Dev :=
  let op := v / 2 ^ 62 % 4
  let ctx := v / 2 ^ 51 % 2048
  let rec_ := v / 128 % 2 ^ 37 * 128
  if op = 0 ∨ op = 3 then d.rsvWrite R.STR_CHAN_CMD
  else if hbmSize < rec_ + 128 ∨ d.repairing rec_ 128 then d
  else match d.hbmRead rec_ 128 with
    | (d, none) => d
    | (d, some bs) =>
      if tag ≠ 0xFFFF ∧ tag ≠ d.fld (F.STR_CTX_JOB ctx) then d.reply rec_ 0 4
      else if d.fld (F.STR_CTX_STATE ctx) ≠ 1 then d.reply rec_ 0 3
      else if op = 1 then d.chanCreate ctx rec_ bs
      else match d.handleFor (d.fld (F.STR_CTX_JOB ctx)) (kNat bs 48 4) with
        | none => d.reply rec_ 0 7
        | some i => if d.chanBusy i then d.reply rec_ 0 6 else (d.chanDestroy i).reply rec_ 0 0

/-- CREATE (R271, R272): a write of STR_CHAN_CMD with OP 1, admitted with the firmware tag or a job tag. -/
def execCreate (t : Tag) (v : Word) (s : State) : Out := act s fun d => d.chanCmd t.toNat (v.toNat % 2 ^ 62 + 2 ^ 62)
/-- DESTROY (R271, R272): OP 2. -/
def execDestroy (t : Tag) (v : Word) (s : State) : Out := act s fun d => d.chanCmd t.toNat (v.toNat % 2 ^ 62 + 2 * 2 ^ 62)

/-- A write of STR_PUSH (R273, R275, R282, R293): refused operations raise REFUSED. -/
def Dev.strPush (d : Dev) (v : Nat) : Dev :=
  let op := v / 2 ^ 62 % 4
  let refused := fun (d : Dev) =>
    (d.raise F.STR_EVENT_REFUSED 0 clsContained).countErr F.STR_ERR_COUNT_REFUSED F.STR_EVENT_COUNT_SAT 0
  if op = 3 then d.rsvWrite R.STR_PUSH
  else match d.handleIdx (v % 2 ^ 32) with
    | none => refused d
    | some i =>
      match (match op with | 0 => d.chanPush i (d.chan i).firmware none | 1 => d.chanArm i (d.chan i).firmware | _ => d.chanCancel i) with
      | .done d => d
      | .full => refused (d.raise F.STR_EVENT_POOL_EMPTY 0 clsInfo)
      | .fault 3 => refused d
      | .fault k => refused (d.strRecord k (d.chan i).ctx (v % 2 ^ 32))

/-- STR_PUSH: a firmware PUSH (R293). -/
def execStrPush (t : Tag) (v : Word) (s : State) : Out := act s fun d => d.fw t.toNat R.STR_PUSH fun d => d.strPush (v.toNat % 2 ^ 62)
/-- STR_ARM: a firmware ARM (R282, R293). -/
def execStrArm (t : Tag) (v : Word) (s : State) : Out := act s fun d => d.fw t.toNat R.STR_PUSH fun d => d.strPush (v.toNat % 2 ^ 62 + 2 ^ 62)
/-- STR_CANCEL: a firmware CANCEL (R283, R293). -/
def execStrCancel (t : Tag) (v : Word) (s : State) : Out := act s fun d => d.fw t.toNat R.STR_PUSH fun d => d.strPush (v.toNat % 2 ^ 62 + 2 * 2 ^ 62)

/-! ## Contexts (R266, R268, R288 to R290) -/

/-- Refuse a context command. -/
def Dev.ctxRefuse (d : Dev) : Dev :=
  (d.raise F.STR_EVENT_CMD_ERR 0 clsContained).countErr F.STR_ERR_COUNT_REFUSED F.STR_EVENT_COUNT_SAT 0

/-- ALLOC (R266). A JOB of 0xFFFF is refused with CMD_ERR alone (log 186). -/
def Dev.ctxAlloc (d : Dev) (ctx job : Nat) : Dev :=
  if d.fld (F.STR_CTX_STATE ctx) ≠ 0 ∨ job = 0xFFFF ∨ d.str.kills.any (·.1 == job) then d.ctxRefuse
  else (d.setFld (F.STR_CTX_STATE ctx) 1).setFld (F.STR_CTX_JOB ctx) job

/-- A core's engines abandon what they hold (R289): nothing of it is performed. -/
def Dev.abandon (d : Dev) (n : Nat) : Dev :=
  let d := { d with home := { d.home with reqs := d.home.reqs.filter (fun r => r.src / 2 ≠ n || 288 ≤ r.src),
                                          resps := d.home.resps.filter (fun r => r.src / 2 ≠ n || 288 ≤ r.src) } }
  d.modCore n fun c =>
    { c with units := [], copies := [], queues := [], perf := none, late := [], acq := none, score := [], pend := [], branch := none,
             begun := false, ended := false, stopped := false, tickWait := false, running := [], faults := [], loaded := false, extra := 0,
             planned := 0, align := false }

/-- A core set leaves its context (R288 steps 1 and 2): VALID clears, the scalar cache empties, and a fence ends, but for that of a half whose
merged kernel goes on, which ends with it. -/
def Dev.unbind (d : Dev) (n set : Nat) : Dev :=
  let d := d.setFld (ctxValid set n) 0
  let d := if d.running n then d else d.setFld (if set = 0 then F.MTX_CORE_STATUS_FENCED0 n else F.MTX_CORE_STATUS_FENCED1 n) 0
  (if set = 0 then d.revive n else d).scInv n

/-- Core sets bound to a context. -/
def Dev.boundTo (d : Dev) (ctx : Nat) : List (Nat × Nat) :=
  ((List.range 288).filter fun i => d.bit (ctxValid (i % 2) (i / 2)) && d.fld (ctxId (i % 2) (i / 2)) == ctx).map fun i => (i / 2, i % 2)

/-- Begin the release of a context (R288): its channels are destroyed, its core sets leave it, and what they held is to be zeroed; their cores
read STATE 0 until it is (R290). -/
def Dev.releaseCtx (d : Dev) (ctx : Nat) (kill : Option Nat) : Dev :=
  let d := d.setFld (F.STR_CTX_STATE ctx) 2
  let d := (List.range d.str.fresh).foldl (fun d i => if (d.chan i).live && (d.chan i).ctx == ctx then d.chanDestroy i else d) d
  let d := { d with str := { d.str with descs := d.str.descs.map fun (q : Desc) => if q.ctx = ctx then { q with cancelled := true } else q } }
  let sets := d.boundTo ctx
  let zero := sets.map fun p => (p.1, p.2, d.fld (ctxBase4k p.2 p.1), d.fld (ctxBound4k p.2 p.1))
  let d := sets.foldl (fun d p => d.unbind p.1 p.2) d
  let d := { d with str := { d.str with rels := d.str.rels ++ [{ ctx := ctx, kill := kill, zero := zero, regs := [], tables := true }] } }
  sets.foldl (fun d p => if d.running p.1 then d else d.setFld (F.SCP_CORE_STATUS_STATE p.1) 0) d

/-- RELEASE (R268, R288). -/
def Dev.ctxRelease (d : Dev) (ctx : Nat) : Dev :=
  if d.fld (F.STR_CTX_STATE ctx) ≠ 1 ∨ (d.boundTo ctx).any (fun p => d.running p.1) then d.ctxRefuse
  else (d.releaseCtx ctx none)

/-- Stop a core for the KILL of one of its sets' job (R289). A kernel that runs for the other set's job too runs on, and the killed half is
fenced; a core on which only the other set's job runs loses nothing. -/
def Dev.killCore (d : Dev) (n job : Nat) : Dev :=
  let mine := fun set => d.bit (ctxValid set n) && d.fld (ctxJob set n) == job
  let used := (d.core n).running.map (·.1)
  if !(mine 0 || mine 1) then d
  else if d.running n && used.any fun set => !(mine set) then
    (used.filter mine).foldl (fun d h =>
      (d.setFld (if h = 0 then F.MTX_CORE_STATUS_FENCED0 n else F.MTX_CORE_STATUS_FENCED1 n) 1).modCore n fun c =>
        c.setUnit h { c.unit h with aq := [], dq := [], run := [] }) d
  else (d.abandon n).setFld (F.SCP_CORE_STATUS_STATE n) 0

/-- A keel command of a killed job stops where it is, after a number of lines that the spec leaves open (R331, R336). -/
def Dev.cutCommand (d : Dev) (c : KCmd) : KCmd × Dev :=
  if c.performed || c.cut.isSome then (c, d) else let (w, d) := d.drawWord; ({ c with cut := some w.toNat }, d)

/-- KILL of a job (R289, R290): cores, requests, keel commands, keys, contexts; the landing slots too when the tether engine serves it. -/
def Dev.killJob (d : Dev) (job : Nat) : Dev :=
  let d := d.eachCore fun d n => d.killCore n job
  let d := { d with home := { d.home with reqs := d.home.reqs.filter fun r => !(r.tag == job && !r.away) } }
  let d := (List.range 12).foldl (fun d k =>
    let q := d.kQueue k
    match q with
    | [] => d
    | c :: cs =>
      let rest := cs.filter fun x => x.tag != job
      if c.tag = job then (match d.cutCommand c with | (c, d) => d.setKQueue k (c :: rest)) else d.setKQueue k (c :: rest)) d
  let keys := (List.range 1024).foldl (fun (ks : Store Key) i =>
    let e := Store.get (fun _ => Key.reset) ks i
    if e.live && e.job == job then Store.put (fun _ => Key.reset) ks i { e with live := false, key := [], gen := if e.gen = 65535 then 1 else e.gen + 1 }
    else ks) d.sec.keys
  let d := { d with sec := { d.sec with keys := keys } }
  let d := (d.cacheInv).ethKill job
  let serves := d.fld (F.STR_CTX_STATE (d.fld F.CDC_CTRL_SPOOL_CTX)) == 1 && d.fld (F.STR_CTX_JOB (d.fld F.CDC_CTRL_SPOOL_CTX)) == job
  let d := (List.range 2048).foldl (fun d c =>
    if d.fld (F.STR_CTX_STATE c) = 1 ∧ d.fld (F.STR_CTX_JOB c) = job then d.releaseCtx c (some job)
    else if d.fld (F.STR_CTX_STATE c) = 2 ∧ d.fld (F.STR_CTX_JOB c) = job then
      { d with str := { d.str with rels := d.str.rels.map fun r => if r.ctx = c then { r with kill := some job } else r } }
    else d) d
  let d := if serves then
      let off := ((d.tetherStop).setFld F.TTH_CTRL_ENABLE 0).zero landBase 0xC000000
      { off with codec := { off.codec with secs := [] } }
    else d
  let d := { d with pwr := { d.pwr with flat := true } }
  if d.str.kills.any (·.1 == job) then d else { d with str := { d.str with kills := d.str.kills ++ [(job, serves)] } }

/-- Jobs that hold a context. -/
def Dev.jobs (d : Dev) : List Nat :=
  (((List.range 2048).filter fun c => d.fld (F.STR_CTX_STATE c) == 1).map fun c => d.fld (F.STR_CTX_JOB c)).eraseDups

/-- Every job on the device: those that hold a context, and those firmware keeps. -/
def Dev.allJobs (d : Dev) : List Nat := (d.jobs ++ d.gnd.jobs.map (·.tag)).eraseDups

/-- Every job on the device is killed. -/
def Dev.killAll (d : Dev) : Dev :=
  let d := d.allJobs.foldl (fun d j => d.killJob j) d
  { d with gnd := { d.gnd with jobs := [] } }

/-- CORE_EN reads 0 on every core. -/
def Dev.coresOff (d : Dev) : Dev :=
  d.eachCore fun d n =>
    let d := d.setFld (F.SCP_CORE_CTRL_CORE_EN n) 0
    if d.coreState n = 1 then d.setFld (F.SCP_CORE_STATUS_STATE n) 0 else d

/-- A device-fatal error (R439): recorded, the ripcord pulled, every job killed, every core held. -/
def Dev.fatal (d : Dev) (cause : Nat) : Dev :=
  let d := (d.setFld F.TEL_FATAL_CAUSE cause).setFld F.TEL_FATAL_TICK (d.fld F.TCK_NUMBER_NUMBER)
  let d := (d.raise F.TEL_EVENT_FATAL 0 clsFatal).pullRipcord 14
  let d := { d with mgmt := { d.mgmt with alert := d.mgmt.alert ||| 4 } }
  d.killAll.coresOff

/-- A write of STR_CTX_CMD (R266, R268, R289, R293). -/
def Dev.ctxCmd (d : Dev) (v : Nat) : Dev :=
  let op := v / 2 ^ 60 % 16
  let ctx := v / 2 ^ 48 % 2048
  let job := v / 2 ^ 32 % 65536
  match op with
  | 1 => d.ctxAlloc ctx job
  | 2 => d.ctxRelease ctx
  | 3 => if job = 0xFFFF then d.rsvWrite R.STR_CTX_CMD else d.killJob job
  | _ => d.rsvWrite R.STR_CTX_CMD

/-- ALLOC (R266): a write of STR_CTX_CMD with OP 1. -/
def execAlloc (t : Tag) (v : Word) (s : State) : Out := act s fun d => d.fw t.toNat R.STR_CTX_CMD fun d => d.ctxCmd (v.toNat % 2 ^ 60 + 2 ^ 60)
/-- RELEASE (R268, R288): OP 2. -/
def execRelease (t : Tag) (v : Word) (s : State) : Out := act s fun d => d.fw t.toNat R.STR_CTX_CMD fun d => d.ctxCmd (v.toNat % 2 ^ 60 + 2 * 2 ^ 60)
/-- KILL (R289): OP 3. -/
def execKill (t : Tag) (v : Word) (s : State) : Out := act s fun d => d.fw t.toNat R.STR_CTX_CMD fun d => d.ctxCmd (v.toNat % 2 ^ 60 + 3 * 2 ^ 60)

/-- Zero one core set's scratchpad range and accumulator memory (R288 steps 3 and 4); in split mode its half's buffers, and the array's half
forgets its tile (R133). -/
def Dev.zeroMem (d : Dev) (z : Nat × Nat × Nat × Nat) : Dev :=
  let (n, set, base, bound) := z
  let d := d.zero (scpWin n + 4096 * base) (4096 * bound)
  let sp := d.split n
  let mine := fun row => !sp || (decide (set * 1024 ≤ row) && decide (row < (set + 1) * 1024))
  d.modCore n fun c =>
    { c with acc := c.acc.filter (fun r => !(mine r.1)), badAcc := c.badAcc.filter (fun r => !(mine (r.1 / 64))),
             fixAcc := c.fixAcc.filter (fun w => !(mine (w / 64))),
             badCw := c.badCw.filter (fun q => !(decide (4096 * base ≤ q.1 * 8) && decide (q.1 * 8 < 4096 * (base + bound)))),
             fixing := c.fixing.filter (fun w => !(decide (4096 * base ≤ w * 8) && decide (w * 8 < 4096 * (base + bound)))),
             units := if sp then (c.setUnit set ArrUnit.reset).units else [] }

/-- Zero the registers of a set's core and the set's completion counters (R288 step 5); the fence of a half whose merged kernel went on ends. -/
def Dev.zeroRegsOf (d : Dev) (z : Nat × Nat) : Dev :=
  let (n, set) := z
  let d := d.modCore n fun c => { c with s := [], p := [], v := [], loops := [], dc := c.dc.filter (fun e => e.1 / 8 ≠ set), badRegs := [] }
  d.setFld (if set = 0 then F.MTX_CORE_STATUS_FENCED0 n else F.MTX_CORE_STATUS_FENCED1 n) 0

/-- The code table slots of a context become free, their generations kept (R248, R288 step 6). -/
def Dev.freeTables (d : Dev) (ctx : Nat) : Dev :=
  (List.range 16).foldl (fun d t => (d.setFld (F.CDC_SLOT_GEN_STATE (tslot ctx t)) 0).setFld (F.CDC_SLOT_GEN_REFS (tslot ctx t)) 0) d

/-- What a release has left to do, put back. -/
def Dev.setRel (d : Dev) (r : Rel) : Dev :=
  { d with str := { d.str with rels := d.str.rels.map fun x => if x.ctx = r.ctx then r else x } }

/-- ZEROING_COMPLETE: a context's memories have been zeroed, and its registers where no merged kernel still runs (R288, R290); then its code table
slots become free, and with no domain running it becomes FREE at once (R285). -/
def execZeroingComplete (ctx : BitVec 11) (s : State) : Out :=
  act s fun d =>
    match d.str.rels.find? fun r => r.ctx == ctx.toNat && r.tables with
    | none => d
    | some r =>
      let d := r.zero.foldl Dev.zeroMem d
      let regs := r.zero.map (fun z => (z.1, z.2.1)) ++ r.regs
      let late := regs.filter fun z => d.running z.1
      let d := (regs.filter fun z => !(d.running z.1)).foldl Dev.zeroRegsOf d
      let d := if late.isEmpty then (d.freeTables r.ctx).setRel { r with zero := [], regs := [], tables := false }
        else d.setRel { r with zero := [], regs := late }
      let d := regs.foldl (fun d z => if d.running z.1 || d.coreZeroing z.1 then d else d.setFld (F.SCP_CORE_STATUS_STATE z.1) (d.idleState z.1)) d
      if d.bit F.TCK_CTRL_RUN || !late.isEmpty then d else d.returnCancelled

end Sys2Proof.Machine
end

