-- ==== Sys2Proof/Machine/Keel.lean ====
section
/-! DEFINITION. Keel engines: commands submitted and performed, the end of a stack's part, patrol scrub, interleave, readiness and refresh
(R317 to R337). -/

namespace Sys2Proof.Machine

/-! ## A stack's part of a command (R328, R332) -/

/-- A group of elements that one line of a stack holds: the index of the first, and how many. -/
structure Group where
  first : Nat
  n : Nat
deriving DecidableEq, Repr

/-- The elements, of `size` bytes each, whose first byte lies in a stack's lines: one group per line (R328). -/
def Dev.groups (d : Dev) (k a count size : Nat) : List Group :=
  (((linesOf a (count * size)).filter fun l => d.stackOf (64 * l) == k).map fun l =>
    let lo := ceilDiv (64 * l - a) size
    let hi := min count (ceilDiv (64 * l + 64 - a) size)
    ⟨lo, hi - lo⟩).filter fun g => g.n != 0

/-- Progress of a part: the device, the code it ends with (0 none), the lines completed, and those after which a KILL stops it. -/
structure KRun where
  d : Dev
  code : Nat
  lines : Nat
  stop : Option Nat

/-- A part that begins. -/
def KRun.start (d : Dev) (c : KCmd) : KRun := ⟨d, 0, 0, c.cut⟩

/-- The code of a part that cannot begin yet: a stack it needs is under repair (R322), or a queue it submits to is full (R327). -/
def kWait : Nat := 10

/-- Whether a code ends the part early (Table 7). -/
def KRun.over (r : KRun) : Bool := r.code == 4 || r.code == 5 || r.code == 9 || r.code == kWait

/-- A KILL stops a part after its current line (R336). -/
def KRun.next (r : KRun) : KRun := if !r.over && r.stop.any (· ≤ r.lines) then { r with code := 9 } else r

/-- A part goes on from one line to the next until a code ends it. -/
def KRun.each {α : Type} (r : KRun) (xs : List α) (g : Dev → α → Dev × Nat) : KRun :=
  xs.foldl (fun (r : KRun) x =>
    let r := r.next
    if r.over then r
    else match g r.d x with
      | (d, 0) => { r with d := d, lines := r.lines + 1 }
      | (d, c) => { r with d := d, code := c }) r

/-- Read an operand in HBM: the bytes, or code 4 when a line answers with an error. -/
def Dev.kRead (d : Dev) (a n : Nat) : Dev × Except Nat (List Byte) :=
  if d.readWaits a n then (d, .error kWait)
  else if hbmSize < a + n then (d, .error 4)
  else match d.hbmRead a n with
    | (d, some bs) => (d, .ok bs)
    | (d, none) => (d, .error 4)

/-- Write a result: code 5 when the destination answers with an error. -/
def Dev.kPut (d : Dev) (tag a : Nat) (bs : List Byte) : Dev × Nat :=
  if d.writeWaits a bs then (d, kWait)
  else match d.memWrite tag a bs with
    | (d, true) => (d, 0)
    | (d, false) => (d, 5)

/-- FP32 words of bytes, and back. -/
def wordsOf : Nat → List Byte → List Nat
  | 0, _ => []
  | n + 1, bs => leNat (bs.take 4) :: wordsOf n (bs.drop 4)
def bytesOf (ws : List Nat) : List Byte := (ws.map fun w => leBytes 4 w).flatten

/-- Elements of a float format widened to FP32 words. -/
def widen (fmt n : Nat) (bs : List Byte) : List Nat :=
  let e := if fmt = 9 then 4 else 2
  (List.range n).map fun i =>
    let x := leNat ((bs.drop (e * i)).take e)
    if fmt = 9 then x else toFP32 (elemDecode fmt x)

/-! ## Data movement: FILL, COPY, GATHER, SCATTER_ADD, HIST (R328) -/

/-- n bytes of a repeated 8-byte pattern from a byte of it on. -/
def pattern (v from_ n : Nat) : List Byte := (List.range n).map fun i => BitVec.ofNat 8 (v / 256 ^ ((from_ + i) % 8))

/-- FILL. -/
def Dev.kFill (d : Dev) (k : Nat) (c : KCmd) : KRun :=
  (KRun.start d c).each (d.groups k (c.arg 0) c.count 1) fun d g => d.kPut c.tag (c.arg 0 + g.first) (pattern (c.arg 1) g.first g.n)

/-- Whether two ranges overlap. -/
def overlap (a b n : Nat) : Bool := decide (a < b + n) && decide (b < a + n)

/-- COPY; overlapping ranges leave the destination free. -/
def Dev.kCopy (d : Dev) (k : Nat) (c : KCmd) : KRun :=
  (KRun.start d c).each (d.groups k (c.arg 0) c.count 1) fun d g =>
    match d.kRead (c.arg 1 + g.first) g.n with
    | (d, .error e) => (d, e)
    | (d, .ok bs) =>
      let (bs, d) := if overlap (c.arg 0) (c.arg 1) c.count then d.drawBytes g.n else (bs, d)
      d.kPut c.tag (c.arg 0 + g.first) bs

/-- The signed indices of a command, with their places, or a code. -/
def Dev.kIndices (d : Dev) (c : KCmd) : Dev × Except Nat (List (Int × Nat)) :=
  match d.kRead (c.arg 1) (4 * c.count) with
  | (d, .error e) => (d, .error e)
  | (d, .ok bs) => (d, .ok (((wordsOf c.count bs).map (signed 32)).zipIdx))

/-- An index in range. -/
def inRows (rows : Nat) (i : Int) : Bool := decide (0 ≤ i) && decide (i < rows)

/-- GATHER: a bad index writes zeros (code 6). -/
def Dev.kGather (d : Dev) (k : Nat) (c : KCmd) : KRun :=
  match d.kIndices c with
  | (d, .error e) => { KRun.start d c with code := e }
  | (d, .ok ix) =>
    ix.foldl (fun (r : KRun) p =>
      let dst := c.arg 2 + p.2 * c.aux
      if inRows (c.arg 3) p.1 = false then
        let r := r.each [0] fun d _ => d.kPut c.tag dst (zeros c.aux)
        if r.over then r else { r with code := 6 }
      else
        let src := c.arg 0 + p.1.toNat * c.aux
        r.each (r.d.groups k src c.aux 1) fun d g =>
          match d.kRead (src + g.first) g.n with
          | (d, .error e) => (d, e)
          | (d, .ok bs) => d.kPut c.tag (dst + g.first) bs) (KRun.start d c)

/-- SCATTER_ADD, in list order: a bad index is skipped (code 6). -/
def Dev.kScatter (d : Dev) (k : Nat) (c : KCmd) : KRun :=
  match d.kIndices c with
  | (d, .error e) => { KRun.start d c with code := e }
  | (d, .ok ix) =>
    ix.foldl (fun (r : KRun) p =>
      if r.over then r
      else if inRows (c.arg 3) p.1 = false then { r with code := 6 }
      else
        let dst := c.arg 0 + p.1.toNat * c.aux
        let src := c.arg 2 + p.2 * c.aux
        r.each (r.d.groups k dst (c.aux / 4) 4) fun d g =>
          match d.kRead (dst + 4 * g.first) (4 * g.n) with
          | (d, .error e) => (d, e)
          | (d, .ok old) =>
            match d.kRead (src + 4 * g.first) (4 * g.n) with
            | (d, .error e) => (d, e)
            | (d, .ok new) => d.kPut c.tag (dst + 4 * g.first) (addWords g.n old new)) (KRun.start d c)

/-- Bytes counted by value, onto 256 counts. -/
def histAdd (cs : List Nat) (bs : List Byte) : List Nat := bs.foldl (fun cs b => cs.modify b.toNat (· + 1)) cs

/-- HIST: a stack counts its lines, then adds its counts to A1, each by a 32-bit atomic add. -/
def Dev.kHist (d : Dev) (k : Nat) (c : KCmd) : KRun :=
  let (r, cs) := (d.groups k (c.arg 0) c.count 1).foldl (fun (r : KRun × List Nat) g =>
    let q := r.1.next
    if q.over then (q, r.2)
    else match q.d.kRead (c.arg 0 + g.first) g.n with
      | (d, .error e) => ({ q with d := d, code := e }, r.2)
      | (d, .ok bs) => ({ q with d := d, lines := q.lines + 1 }, histAdd r.2 bs)) (KRun.start d c, List.replicate 256 0)
  if r.over then r
  else (List.range 256).foldl (fun (r : KRun) v =>
    if r.over ∨ cs.getD v 0 = 0 then r
    else if r.d.readWaits (c.arg 1 + 4 * v) 4 then { r with code := kWait }
    else match r.d.memOp c.tag (c.arg 1 + 4 * v) (.atomic 0 false false (cs.getD v 0) 0) with
      | (d, some _) => { r with d := d }
      | (d, none) => { r with d := d, code := 5 }) r

/-! ## REDUCE (R328) -/

/-- One step of a reduction. -/
def reduceStep (sub : Nat) (acc xs : List Nat) : List Nat :=
  List.zipWith (fun a x => if sub = 1 then fp32Max a x else fp32Add a x) acc xs

/-- A NaN is stored as the canonical NaN (R160). -/
def fp32Canon (w : Nat) : Nat := match ofFP32 w with | .nan => toFP32 .nan | _ => w

/-- The sources of one line of a REDUCE, in order: the sum or maximum so far (none before the first source), or a code. -/
def Dev.kSources (d : Dev) (c : KCmd) (g : Group) (start : Option (List Nat)) : Dev × Except Nat (Option (List Nat)) :=
  let e := if c.fmt = 9 then 4 else 2
  (List.range c.aux).foldl (fun (r : Dev × Except Nat (Option (List Nat))) i =>
    match r.2 with
    | .error _ => r
    | .ok acc =>
      match r.1.kRead (c.arg 1 + i * c.arg 2 + e * g.first) (e * g.n) with
      | (d, .error x) => (d, .error x)
      | (d, .ok bs) =>
        let xs := widen c.fmt g.n bs
        (d, .ok (some (match acc with | none => xs | some a => reduceStep c.sub a xs)))) (d, .ok start)

/-- REDUCE: the first source begins the sum or maximum; SUB 2 begins with the destination. -/
def Dev.kReduce (d : Dev) (k : Nat) (c : KCmd) : KRun :=
  (KRun.start d c).each (d.groups k (c.arg 0) c.count 4) fun d g =>
    let (d, start) : Dev × Except Nat (Option (List Nat)) :=
      if c.sub = 2 then
        match d.kRead (c.arg 0 + 4 * g.first) (4 * g.n) with
        | (d, .error e) => (d, .error e)
        | (d, .ok bs) => (d, .ok (some (wordsOf g.n bs)))
      else (d, .ok none)
    match start with
    | .error e => (d, e)
    | .ok acc => match d.kSources c g acc with
      | (d, .error e) => (d, e)
      | (d, .ok ws) => d.kPut c.tag (c.arg 0 + 4 * g.first) (bytesOf ((ws.getD []).map fp32Canon))

/-! ## OPT (R329, R330) -/

/-- The parameter block (Table 6). -/
structure OptPar where
  lr : Nat
  beta1 : Nat
  beta2 : Nat
  eps : Nat
  wd : Nat
  c1 : Nat
  c2 : Nat
  gscale : Nat
  out : Nat
deriving DecidableEq, Repr

def optPar (bs : List Byte) : OptPar :=
  let w := fun i => kNat bs (4 * i) 4
  ⟨w 0, w 1, w 2, w 3, w 4, w 5, w 6, w 7, kNat bs 32 8⟩

/-- FP32 one, and the sign of a number: +0 for a zero, and NaN for NaN. -/
def fp32One : Nat := 0x3F800000
def fp32Sign (u : Nat) : Nat :=
  match ofFP32 u with
  | .nan => toFP32 .nan
  | v => if v.isZero then 0 else if v.sgn then 0xBF800000 else fp32One

/-- The update of one element: new weight, first and second moment (R330). -/
def optStep (p : OptPar) (sub : Nat) (hasM : Bool) (w m v g : Nat) : Nat × Nat × Nat :=
  let g := fp32Mul g p.gscale
  let mix := fun b x y => fp32Add (fp32Mul b x) (fp32Mul (fp32Sub fp32One b) y)
  let step := fun u => fp32Sub w (fp32Mul p.lr (fp32Add u (fp32Mul p.wd w)))
  match sub with
  | 0 =>
    let m' := if hasM then fp32Add (fp32Mul p.beta1 m) g else g
    (step m', m', v)
  | 1 =>
    let m' := mix p.beta1 m g
    let v' := mix p.beta2 v (fp32Mul g g)
    (step (fp32Div (fp32Mul m' p.c1) (fp32Add (fp32Sqrt (fp32Mul v' p.c2)) p.eps)), m', v')
  | _ =>
    let u := fp32Sign (mix p.beta1 m g)
    (step u, mix p.beta2 m g, v)

/-- Read the FP32 words of an operand; of one that may be left out (`opt`), zeros when its address is 0. -/
def Dev.kWords (d : Dev) (opt : Bool) (a : Nat) (g : Group) : Dev × Except Nat (List Nat) :=
  if opt ∧ a = 0 then (d, .ok (List.replicate g.n 0))
  else match d.kRead (a + 4 * g.first) (4 * g.n) with
    | (d, .error e) => (d, .error e)
    | (d, .ok bs) => (d, .ok (wordsOf g.n bs))

/-- Write the words of an operand, that may be left out (`opt`). -/
def Dev.kPutWords (d : Dev) (opt : Bool) (tag a : Nat) (g : Group) (ws : List Nat) : Dev × Nat :=
  if opt ∧ a = 0 then (d, 0) else d.kPut tag (a + 4 * g.first) (bytesOf ws)

/-- Writes in turn, until one answers with an error. -/
def Dev.kPuts (d : Dev) : List (Dev → Dev × Nat) → Dev × Nat
  | [] => (d, 0)
  | f :: fs => match f d with
    | (d, 0) => d.kPuts fs
    | r => r

/-- One line of OPT. -/
def Dev.kOptLine (d : Dev) (c : KCmd) (p : OptPar) (g : Group) : Dev × Nat :=
  match d.kWords false (c.arg 0) g with
  | (d, .error x) => (d, x)
  | (d, .ok w) => match d.kWords true (c.arg 1) g with
    | (d, .error x) => (d, x)
    | (d, .ok m) => match d.kWords true (c.arg 2) g with
      | (d, .error x) => (d, x)
      | (d, .ok v) => match d.kWords false (c.arg 3) g with
        | (d, .error x) => (d, x)
        | (d, .ok gr) =>
          let rs := (List.range g.n).map fun i => optStep p c.sub (c.arg 1 != 0) (w.getD i 0) (m.getD i 0) (v.getD i 0) (gr.getD i 0)
          let e := elemBits c.fmt / 8
          let out := (rs.map fun r => leBytes e (elemEncode c.fmt (bitOf c.flags 2) .even (ofFP32 r.1))).flatten
          d.kPuts [fun d => d.kPutWords true c.tag (c.arg 1) g (rs.map (·.2.1)), fun d => d.kPutWords true c.tag (c.arg 2) g (rs.map (·.2.2)),
            fun d => d.kPutWords false c.tag (c.arg 0) g (rs.map (·.1)),
            fun d => if p.out = 0 then (d, 0) else d.kPut c.tag (p.out + e * g.first) out,
            fun d => if bitOf c.flags 1 then d.kPutWords false c.tag (c.arg 3) g (List.replicate g.n 0) else (d, 0)]

/-- OPT. -/
def Dev.kOpt (d : Dev) (k : Nat) (c : KCmd) : KRun :=
  match d.kRead (c.arg 4) 64 with
  | (d, .error e) => { KRun.start d c with code := e }
  | (d, .ok bs) => (KRun.start d c).each (d.groups k (c.arg 0) c.count 4) fun d g => d.kOptLine c (optPar bs) g

/-! ## MTEST and REPAIR (R322, R328) -/

/-- MTEST: the stack's lines of the range end zero, and the offsets of those that failed are listed, as 8-byte words, up to the list's
capacity. -/
def Dev.kMtest (d : Dev) (k : Nat) (c : KCmd) (failing : List Nat) : KRun :=
  let r := (KRun.start d c).each (d.groups k (c.arg 0) c.count 1) fun d g => d.kPut c.tag (c.arg 0 + g.first) (zeros g.n)
  let mine := (failing.map fun l => 64 * l).filter fun a => r.d.stackOf a == k && decide (c.arg 0 ≤ a) && decide (a < c.arg 0 + c.count)
  let list := ((mine.take (c.arg 2)).map fun a => leBytes 8 a).flatten
  if r.over ∨ list.isEmpty then r
  else match r.d.kPut c.tag (c.arg 1) list with
    | (d, e) => { r with d := d, code := e }

/-- The stack offsets of the four 256-byte pieces of a row (R316). -/
def rowPieces (pc bank row : Nat) : List Nat := (List.range 4).map fun i => (row * 256 + bank * 4 + i) * 8192 + pc * 256

/-- A row's contents become free, in the atomic unit too, and its lines hold no error (R322). -/
def Dev.loseRow (d : Dev) (k pc bank row : Nat) : Dev :=
  (rowPieces pc bank row).foldl (fun d o =>
    let a := d.devOff k o
    let (bs, d) := d.drawBytes 256
    let out := fun l => !(decide (a / 64 ≤ l) && decide (l < a / 64 + 4))
    { (d.wr a bs) with keel := { d.keel with bad := d.keel.bad.filter fun e => out (e.1 / 2), atoms := d.keel.atoms.filter out } }) d

/-- REPAIR: a bank's one soft or one hard spare takes the row's place; code 7 when it is gone. -/
def State.kRepair (s : State) (k : Nat) (c : KCmd) : State × Nat :=
  let pc := c.aux / 2 ^ 20 % 32
  let bank := c.aux / 2 ^ 14 % 64
  let used := if bitOf c.aux 31 then s.persist.hard else s.dev.keel.soft
  if used.contains (k, pc, bank) then (s, 7)
  else
    let d := s.dev.loseRow k pc bank (c.aux % 2 ^ 14)
    if bitOf c.aux 31 then ({ s with dev := d, persist := { s.persist with hard := s.persist.hard ++ [(k, pc, bank)] } }, 0)
    else ({ s with dev := { d with keel := { d.keel with soft := d.keel.soft ++ [(k, pc, bank)] } } }, 0)

/-! ## Performing (R332) -/

/-- The command at the head of a stack's queue, when its opcode is the given one and it has not been performed. -/
def Dev.kHead (d : Dev) (k op : Nat) : Option KCmd :=
  match d.kQueue k with
  | c :: _ => if c.op = op && !c.performed then some c else none
  | [] => none

/-- What is left of a performed command until its part ends. -/
def Dev.kPerformed (d : Dev) (k code lines : Nat) : Dev :=
  match d.kQueue k with
  | c :: cs => d.setKQueue k ({ c with performed := true, code := code, lines := lines } :: cs)
  | [] => d

/-- A stack performs the command at the head of its queue; it has not begun while a part of it would wait. A part that a KILL stops ends with code
9, even after its last line (R331, R336). -/
def Dev.kPerform (d : Dev) (k op : Nat) (g : Dev → KCmd → KRun) : Dev :=
  match d.kHead k op with
  | none => d
  | some c =>
    let r := g d c
    if r.code = kWait then d
    else r.d.kPerformed k (if c.cut.isSome && !r.over then 9 else r.code) r.lines

/-- FILL (R328). -/
def execFill (k : StackId) (s : State) : Out := act s fun d => d.kPerform k 0x01 fun d c => d.kFill k c
/-- COPY (R328). -/
def execCopy (k : StackId) (s : State) : Out := act s fun d => d.kPerform k 0x02 fun d c => d.kCopy k c
/-- REDUCE (R328). -/
def execReduce (k : StackId) (s : State) : Out := act s fun d => d.kPerform k 0x03 fun d c => d.kReduce k c
/-- GATHER (R328). -/
def execGather (k : StackId) (s : State) : Out := act s fun d => d.kPerform k 0x04 fun d c => d.kGather k c
/-- SCATTER_ADD (R328). -/
def execScatterAdd (k : StackId) (s : State) : Out := act s fun d => d.kPerform k 0x05 fun d c => d.kScatter k c
/-- HIST (R328). -/
def execHist (k : StackId) (s : State) : Out := act s fun d => d.kPerform k 0x06 fun d c => d.kHist k c
/-- OPT (R330). -/
def execOpt (k : StackId) (s : State) : Out := act s fun d => d.kPerform k 0x10 fun d c => d.kOpt k c
/-- MTEST (R328); `failing` names the lines, by number, that the test finds bad. -/
def execMtest (k : StackId) (failing : List Nat) (s : State) : Out := act s fun d => d.kPerform k 0x20 fun d c => d.kMtest k c failing

/-- REPAIR (R322). -/
def execRepair (k : StackId) (s : State) : Out :=
  .next (if s.live = false then s
    else match s.dev.kHead k 0x21 with
      | none => s
      | some c =>
        let (t, code) := s.kRepair k c
        { t with dev := t.dev.kPerformed k code 0 })

/-- A fill of a ZERO that ended with a code: its GiB stays without CLEAN (R391). -/
def Dev.zeroFail (d : Dev) (c : KCmd) : Dev :=
  match d.sec.zero with
  | some z =>
    if c.code = 0 ∨ c.op ≠ 0x01 ∨ c.tag ≠ 0xFFFF then d
    else { d with sec := { d.sec with zero := some { z with bad := (c.arg 0 / 2 ^ 30) :: z.bad } } }
  | none => d

/-- COMMAND_PART_END (R331, R334): a performed command leaves the queue, its code is recorded, and DONE gains its add. -/
def execCommandPartEnd (k : StackId) (s : State) : Out :=
  act s fun d =>
    match d.kQueue k with
    | [] => d
    | c :: cs =>
      if c.performed = false then d
      else
        let d := d.setKQueue k cs
        let d := (d.count (F.KEL_CMDS_COUNT k) 1).monitor 12 k 1
        let d := if c.code = 0 then d else d.kErr k c.code c
        let d := d.zeroFail c
        let d := if c.op = 0x21 then d.raise (F.KEL_EVENT_REPAIR_DONE k) k clsInfo else d
        d.kDone k c

/-! ## Submission (R327) -/

/-- A write to a keel command region, which waits while a queue it submits to is full. -/
def Dev.kWrite (d : Dev) (tag a : Nat) (bs : List Byte) : Dev :=
  if d.writeWaits a bs then d
  else match d.keelWrite tag a bs with
    | (d, true) => d
    | (d, false) => d.refuse a

/-- COMMAND_SUBMIT (R327): a write of the last bytes of a command line. -/
def execCommandSubmit (t : Tag) (k : StackId) (line : Fin 4096) (bytes : List Byte) (s : State) : Out :=
  act s fun d =>
    if bytes.isEmpty ∨ 64 < bytes.length then d
    else d.kWrite t.toNat (keelBase + k.val * 0x1000000 + 64 * line.val + (64 - bytes.length)) bytes

/-- COMMAND_SUBMIT_INDIRECT (R327): a store of the HBM offset of a command. -/
def execCommandSubmitIndirect (t : Tag) (k : StackId) (addr : Word) (s : State) : Out :=
  act s fun d => d.kWrite t.toNat (keelBase + k.val * 0x1000000 + 0x40000) (leBytes 8 addr.toNat)

/-! ## Patrol scrub, readiness, refresh (R318, R321, R324) -/

/-- Whether a request or a command waits for a stack. -/
def Dev.stackBusy (d : Dev) (k : Nat) : Bool :=
  !(d.kQueue k).isEmpty || d.home.reqs.any fun r => !r.away && decide (r.addr < hbmSize) && d.stackOf r.addr == k

/-- PATROL_SCRUB (R321): the next line of the pass is read; 2^29 lines make a stack. -/
def execPatrolScrub (k : StackId) (s : State) : Out :=
  act s fun d =>
    if d.bit F.KEL_SCRUB_EN = false ∨ d.stackReady k = false ∨ d.stackBusy k then d
    else
      let i := Store.get (fun _ => 0) d.keel.scrub k
      let d := (d.hbmTouch (d.devOff k (64 * i) / 64) true).1
      { d with keel := { d.keel with scrub := Store.put (fun _ => 0) d.keel.scrub k ((i + 1) % 2 ^ 29) } }

/-- Firmware's GiB of HBM, and the image copy in it (R395, Table 2). -/
def fwBase : Nat := 383 * 2 ^ 30
def imageAt : Nat := fwBase + 0x2000000

/-- The boot loader copies the running image into HBM once every stack is ready (R324, R399; log 181). -/
def Dev.imageCopy (d : Dev) : Dev :=
  if (List.range 12).all d.stackReady && decide (3 ≤ d.fld F.GND_STATUS_STATE) then (d.hbmWrite imageAt d.gnd.image).1 else d

/-- STACK_READY (R324): firmware has trained a stack and re-applied the soft repairs on record, given by pseudo-channel and bank. -/
def execStackReady (k : StackId) (soft : List (BitVec 5 × BitVec 6)) (s : State) : Out :=
  act s fun d =>
    if 2 ≤ d.fld (F.KEL_STATUS_STATE k) then d
    else
      let used := (d.keel.soft ++ soft.map fun p => (k.val, p.1.toNat, p.2.toNat)).eraseDups
      ({ (d.setFld (F.KEL_STATUS_STATE k) 2) with keel := { d.keel with soft := used } }).imageCopy

/-- REFRESH_DOUBLING (R318): a stack's temperature, in °C. -/
def execRefreshDoubling (k : StackId) (temp : BitVec 8) (s : State) : Out :=
  act s fun d => (d.setFld (F.KEL_STATUS_TEMP k) temp.toNat).setFld (F.KEL_STATUS_REFRESH k) (if 85 < temp.toNat then 1 else 0)

/-! ## Register writes (R317, R337) -/

/-- A change of ILV: all that HBM holds becomes unspecified, lines held in the atomic units with it (log 3), every CLEAN clears, and an error stays at
its place in the stack, which now has another device offset (R317, R319). -/
def Dev.changeIlv (d : Dev) (v : Nat) : Dev :=
  let e := d.plain R.KEL_CTRL v
  let move := fun (b : Nat × Bool) => (2 * (e.devOff (d.stackOf (32 * b.1)) (d.stackOff (32 * b.1)) / 64) + b.1 % 2, b.2)
  let e := { e.newVeil with keel := { e.newVeil.keel with bad := d.keel.bad.map move, atoms := [] } }
  (List.range 384).foldl (fun d g => (d.setFld (F.SEC_GIB_CLEAN g) 0).setFld (F.SEC_GIB_OWNER g) 0xFFFF) e

/-- A write of KEL_CTRL. -/
def Dev.writeKelCtrl (d : Dev) (v : Nat) : Dev :=
  let rsv := F.KEL_CTRL_CMD_SHARE.ofNat v == 0
  let d := if rsv then d.rsvWrite R.KEL_CTRL else d
  if (List.range 2048).any fun c => d.fld (F.STR_CTX_STATE c) == 1 then
    (List.range 12).foldl (fun d k => d.raise (F.KEL_EVENT_LOCKED_WRITE k) k clsInfo) d
  else if rsv then d
  else if (d.plain R.KEL_CTRL v).fld F.KEL_CTRL_ILV = d.fld F.KEL_CTRL_ILV then d.plain R.KEL_CTRL v
  else d.changeIlv v

/-- ILV_WRITE (R317): a write of KEL_CTRL. -/
def execIlvWrite (t : Tag) (v : Word) (s : State) : Out := act s fun d => d.fw t.toNat R.KEL_CTRL fun d => d.writeKelCtrl v.toNat

/-- A write to the KEL block. -/
def Dev.writeKEL (d : Dev) (off v : Nat) : Dev :=
  if off = R.KEL_CTRL then d.writeKelCtrl v
  else if off = R.KEL_SCRUB then (if F.KEL_SCRUB_HOURS.ofNat v = 0 then d.rsvWrite off else d.plain off v)
  else if R.KEL_JR 0 ≤ off ∧ off ≤ R.KEL_JR 15 then d.writeJr ((off - R.KEL_JR 0) / 8) v
  else d.plain off v

end Sys2Proof.Machine
end

