-- ==== Sys2Proof/Machine/Ring.lean ====
section
/-! DEFINITION. The carousel: directions and expected spools, staging, arrival, commit, forwarding, draining and return hops of the tether
engine (R52 to R70, R74 to R80), and the writes of its registers. -/

namespace Sys2Proof.Machine

/-! ## Directions (R52 to R54, R61, R67) -/

/-- A register field of a direction. -/
def byDir (dir : Nat) (cw ccw : Fld) : Fld := if dir = 0 then cw else ccw

/-- The port a direction leaves on, and the port it arrives on (R53). -/
def Dev.outPort (d : Dev) (dir : Nat) : Nat := d.fld (byDir dir F.TTH_STATION_NEXT_PORT F.TTH_STATION_PREV_PORT)
def Dev.inPort (d : Dev) (dir : Nat) : Nat := d.fld (byDir dir F.TTH_STATION_PREV_PORT F.TTH_STATION_NEXT_PORT)

/-- Whether a direction's carousel is enabled (R54). -/
def Dev.dirEn (d : Dev) (dir : Nat) : Bool := d.bit F.TTH_CTRL_ENABLE && d.bit (byDir dir F.TTH_CTRL_CW_EN F.TTH_CTRL_CCW_EN)

/-- Entries of a direction's list; an idle direction has none. -/
def Dev.listLen (d : Dev) (dir : Nat) : Nat := if d.dirEn dir then d.fld (byDir dir F.TTH_LIST_CW_LEN F.TTH_LIST_CCW_LEN) else 0

/-- Ring size, station, starting index, schedule index now. -/
def Dev.ringN (d : Dev) : Nat := d.fld F.TTH_STATION_N
def Dev.station (d : Dev) : Nat := d.fld F.TTH_STATION_STATION
def Dev.startIdx (d : Dev) : Nat := d.fld F.TTH_ROT_START_INDEX
def Dev.sched (d : Dev) : Nat := (d.reg R.TCK_SCHED).toNat

/-- Rotation r and position j of a schedule index (R61). -/
def Dev.roundOf (d : Dev) (i : Nat) : Nat := (i - d.startIdx) / d.ringN
def Dev.offsetOf (d : Dev) (i : Nat) : Nat := (i - d.startIdx) % d.ringN

/-- Whether a direction has a spool current at a schedule index. -/
def Dev.spoolAt (d : Dev) (dir i : Nat) : Bool := decide (d.startIdx ≤ i) && decide (d.roundOf i < d.listLen dir)

/-- The home of the spool current at position j (R61). -/
def Dev.homeAt (d : Dev) (dir j : Nat) : Nat := (if dir = 0 then d.station + d.ringN - j else d.station + j) % d.ringN

/-- The landing slot of a direction and schedule index (R67). -/
def slotFor (dir i : Nat) : Nat := 3 * dir + i % 3

/-- The direction of a landing slot. -/
def slotDir (k : Nat) : Nat := k / 3

/-- What a slot holds. -/
def Dev.slot (d : Dev) (k : Nat) : Slot := Store.get (fun _ => Slot.free) d.ring.slots k
def Dev.setSlot (d : Dev) (k : Nat) (q : Slot) : Dev :=
  { d with ring := { d.ring with slots := Store.put (fun _ => Slot.free) d.ring.slots k q } }

/-- A slot's flags: ARRIVING, FULL, EXPANDED, FORWARDED, DRAINED (Table 4). -/
def Dev.setFlags (d : Dev) (k : Nat) (arriving full expanded forwarded drained : Bool) : Dev :=
  let d := d.setFld (F.TTH_SLOT_FLAGS_ARRIVING k) (b2n arriving)
  let d := d.setFld (F.TTH_SLOT_FLAGS_FULL k) (b2n full)
  let d := d.setFld (F.TTH_SLOT_FLAGS_EXPANDED k) (b2n expanded)
  let d := d.setFld (F.TTH_SLOT_FLAGS_FORWARDED k) (b2n forwarded)
  d.setFld (F.TTH_SLOT_FLAGS_DRAINED k) (b2n drained)

def Dev.arriving (d : Dev) (k : Nat) : Bool := d.bit (F.TTH_SLOT_FLAGS_ARRIVING k)
def Dev.full (d : Dev) (k : Nat) : Bool := d.bit (F.TTH_SLOT_FLAGS_FULL k)
def Dev.drained (d : Dev) (k : Nat) : Bool := d.bit (F.TTH_SLOT_FLAGS_DRAINED k)

/-- Receive buffers of ring payload return to a port (R69). -/
def Dev.freeFrames (d : Dev) (p n : Nat) : Dev :=
  let x := d.port p
  if p < 4 ∧ n ≠ 0 then d.setPort p { x with freed := Store.put (fun _ => 0) x.freed 0 (Store.get (fun _ => 0) x.freed 0 + n) } else d

/-- All six slots return to Free (Table 4), and the buffers they held to their ports. -/
def Dev.freeSlots (d : Dev) : Dev :=
  let d := (List.range 6).foldl (fun d k =>
    (d.setFlags k false false false false true).freeFrames (d.inPort (slotDir k)) ((d.slot k).frames + (d.slot k).next)) d
  { d with ring := { d.ring with slots := [] } }

/-- A counter of the engine by direction. -/
def Dev.ownIdx (d : Dev) (dir : Nat) : Nat := Store.get (fun _ => 0) d.ring.own dir
def Dev.arrIdx (d : Dev) (dir : Nat) : Nat := Store.get (fun _ => 0) d.ring.arr dir
def Dev.retCount (d : Dev) (dir : Nat) : Nat := Store.get (fun _ => 0) d.ring.ret dir
def Dev.outCount (d : Dev) (dir : Nat) : Nat := Store.get (fun _ => 0) d.ring.out dir

/-- Whether the carousel moves spools: ACTIVE, and no ripcord has stopped VL 0 (R66, R79). -/
def Dev.tethered (d : Dev) : Bool := d.bit F.TTH_STATUS_ACTIVE && !d.links.vl0Stop

/-! ## Headers (R57) -/

/-- Read a spool header. -/
def spoolHdr (bs : List Byte) : SpoolHdr :=
  let h := kNat bs 2 2
  ⟨kNat bs 1 1, h % 8192, h / 8192 % 2, bitOf h 14, bitOf h 15, kNat bs 4 2, kNat bs 6 2, kNat bs 8 8, kNat bs 16 4,
    if bitOf h 15 then kNat bs 20 4 else 0, kNat bs 24 4, crc32c (bs.take 60) == kNat bs 60 4⟩

/-- The 64 bytes of a header. -/
def spoolHdrBytes (home dir : Nat) (null tail : Bool) (seq n sched body tailLen blocks layer : Nat) : List Byte :=
  let head := leBytes 2 0x0100 ++ leBytes 2 (home + dir * 8192 + b2n null * 16384 + b2n tail * 32768) ++ leBytes 2 seq ++ leBytes 2 n
    ++ leBytes 8 sched ++ leBytes 4 body ++ leBytes 4 tailLen ++ leBytes 4 blocks ++ leBytes 4 layer ++ zeros 28
  head ++ leBytes 4 (crc32c head)

/-- Total length of a spool. -/
def SpoolHdr.total (h : SpoolHdr) : Nat := 64 + h.bodyLen + h.tailLen

/-- TTH_SLOTn takes a header's fields (Table 16). -/
def Dev.slotRecord (d : Dev) (k : Nat) (h : SpoolHdr) : Dev :=
  let d := d.setFld (F.TTH_SLOT_HOME k) h.home
  let d := d.setFld (F.TTH_SLOT_DIR k) h.dir
  let d := d.setFld (F.TTH_SLOT_NULL k) (b2n h.null)
  let d := d.setFld (F.TTH_SLOT_TAIL k) (b2n h.tail)
  let d := d.setFld (F.TTH_SLOT_SEQ k) h.seq
  d.setFld (F.TTH_SLOT_TOTAL_LEN k) h.total

/-! ## Tails (R82) -/

/-- Bytes of a gradient element in a direction's tail format, and of a tail block. -/
def tailElem (fmt : Nat) : Nat := if fmt = 0 then 4 else 2
def tailBlock (fmt : Nat) : Nat := 16 + 1024 * tailElem fmt
def Dev.tailFmt (d : Dev) (dir : Nat) : Nat := d.fld (byDir dir F.TTH_TAIL_CW_FMT F.TTH_TAIL_CCW_FMT)

/-- Number K of tail blocks of a length (R82). -/
def tailBlocks (fmt len : Nat) : Nat := (len - 64) / tailBlock fmt

/-- Whether a tail length fits the form of R82. -/
def tailLenOk (fmt len : Nat) : Bool := len == 0 || (decide (64 ≤ len) && (len - 64) % tailBlock fmt == 0)

/-! ## Landing slots: waiting, beginning, draining (R67 to R69) -/

/-- Every core's set 0 bound to the spool context. -/
def Dev.spoolCores (d : Dev) : List Nat :=
  (List.range 144).filter fun n => d.bit (ctxValid 0 n) && d.fld (ctxId 0 n) == d.fld F.CDC_CTRL_SPOOL_CTX

/-- A fault of a spool's work at a core: no instruction of the core names it, so its record has SLOT 4 and the bundle that issues (R202). -/
def Dev.spoolFault (d : Dev) (n source kind addr : Nat) : Dev :=
  d.engineFault n 0 4 (d.core n).bundle source kind addr (d.core n).cycle

/-- The debug outcome of an undrained slot (R69, R281): KIND 5 and the ripcord. -/
def Dev.slotFault (d : Dev) : Dev :=
  let d := d.spoolCores.foldl (fun d n => d.spoolFault n 4 5 0) (d.strRecord 5 (d.fld F.CDC_CTRL_SPOOL_CTX) 0)
  d.pullRipcord 11

/-- An arrival or staging waits for its slot (R69). -/
def Dev.slotWait (d : Dev) (k : Nat) : Dev :=
  if d.bit F.TTH_CTRL_SLOT_FAULT then d.slotFault
  else
    let q := d.slot k
    (d.setSlot k { q with waitFrom := some (q.waitFrom.getD d.time) }).raise F.TTH_EVENT_BACKPRESSURE k clsInfo

/-- An arrival or staging of schedule index i begins in its slot, or waits for DRAINED. -/
def Dev.beginLanding (d : Dev) (dir i : Nat) (own : Bool) : Dev :=
  let k := slotFor dir i
  if d.drained k = false then d.slotWait k
  else
    let d := d.waited (d.slot k).waitFrom
    (d.setFlags k true false false false false).setSlot k { Slot.free with idx := i, own := own, frames := (d.slot k).next, live := true }

/-- Whether index i is landing in its slot. -/
def Dev.landing (d : Dev) (dir i : Nat) : Bool :=
  let q := d.slot (slotFor dir i)
  d.arriving (slotFor dir i) && q.live && q.idx == i

/-- Whether an arrival or staging of index i may begin now: its tick has begun (R61, R62); no staging starts inside the settle window (R41), and
in a slip tick only what was waiting (R77). -/
def Dev.mayLand (d : Dev) (dir i : Nat) (own : Bool) : Bool :=
  d.tethered && d.spoolAt dir i && decide (i ≤ d.sched + 1) &&
    !(own && (d.tick.settled || (d.fld F.TCK_STATUS_STATE == 3 && (d.slot (slotFor dir i)).waitFrom.isNone)))

/-- ARRIVAL_START (R69): the next arrival of a direction begins, or waits for DRAINED. The next staging does no more than that wait here: it begins
with its first byte written, in SPOOL_STAGING. -/
def execArrivalStart (dir : Dir) (staging : Bool) (s : State) : Out :=
  act s fun d =>
    let i := if staging then d.ownIdx dir else d.arrIdx dir
    if d.mayLand dir i staging = false ∨ d.landing dir i then d
    else if staging && d.drained (slotFor dir i) then d
    else d.beginLanding dir i staging

/-- Grant the upstream station the buffers a slot has held (R69). -/
def Dev.grantSlot (d : Dev) (k : Nat) : Dev :=
  let q := d.slot k
  if q.frames = 0 then d else (d.freeFrames (d.inPort (slotDir k)) q.frames).setSlot k { q with frames := 0 }

/-- A slot has drained (R17). In relay mode its packet is no longer in flight. -/
def Dev.slotDrained (d : Dev) (k : Nat) : Dev :=
  let d := (d.setFld (F.TTH_SLOT_FLAGS_DRAINED k) 1).grantSlot k
  d.setFld ⟨R.TTH_RELAY_STATUS, 8 + k, 8 + k⟩ 0

/-- EXPANDED sets; code table references are released (R249); the later of two sets DRAINED (R17). -/
def Dev.setExpanded (d : Dev) (k : Nat) : Dev :=
  let q := d.slot k
  let d := q.refs.foldl (fun d t => d.unrefSlot t) d
  let d := (d.setSlot k { q with refs := [] }).setFld (F.TTH_SLOT_FLAGS_EXPANDED k) 1
  if d.bit (F.TTH_SLOT_FLAGS_FORWARDED k) then d.slotDrained k else d

/-- FORWARDED sets; the later of two sets DRAINED (R17). -/
def Dev.setForwarded (d : Dev) (k : Nat) : Dev :=
  let d := d.setFld (F.TTH_SLOT_FLAGS_FORWARDED k) 1
  if d.bit (F.TTH_SLOT_FLAGS_EXPANDED k) then d.slotDrained k else d

/-! ## Trailers going out (R86) -/

/-- The device offset of a slot's tail. -/
def Dev.tailAt (d : Dev) (k : Nat) : Nat := landSlot k + 64 + ((d.slot k).hdr.map (·.bodyLen)).getD 0

/-- Number K of tail blocks of the spool in a slot; none without a tail. -/
def Dev.slotTail (d : Dev) (k : Nat) : Option Nat :=
  match (d.slot k).hdr with
  | some h => if h.tailLen = 0 then none else some (tailBlocks (d.tailFmt (slotDir k)) h.tailLen)
  | none => none

/-- The trailer a station sends: the arriving one, or the home's start values, with ADDED increased, SR and POISON joined (R84, R86, R88). -/
def Dev.outTrailer (d : Dev) (k : Nat) : List Byte :=
  let dir := slotDir k
  let q := d.slot k
  let blocks := (d.slotTail k).getD 0
  let at_ := d.tailAt k + blocks * tailBlock (d.tailFmt dir)
  let arr := if q.own then leBytes 2 0x0100 ++ leBytes 1 (d.tailFmt dir) ++ zeros 1 ++ leBytes 4 blocks ++ zeros 52 else d.rd at_ 60
  let flags := kNat arr 3 1
  let flags := if d.bit (byDir dir F.TTH_TAIL_CW_SR F.TTH_TAIL_CCW_SR) && !bitOf flags 0 then flags + 1 else flags
  let flags := if q.poison && !bitOf flags 1 then flags + 2 else flags
  let head := arr.take 3 ++ leBytes 1 flags ++ (arr.drop 4).take 4 ++ leBytes 2 (kNat arr 8 2 + 1) ++ arr.drop 10
  head ++ leBytes 4 (crc32c head)

/-- Hand the released tail blocks to the link, each in its order, and after the last the trailer. -/
def Dev.sendTail (d : Dev) (k : Nat) : Nat → Dev
  | 0 => d
  | fuel + 1 =>
    let q := d.slot k
    let dir := slotDir k
    match d.slotTail k with
    | none => d
    | some blocks =>
      let size := tailBlock (d.tailFmt dir)
      if q.tailSent < blocks then
        if q.tailDone.contains q.tailSent then
          ((d.payload (d.outPort dir) ⟨0, k, [], d.tailAt k + q.tailSent * size, size, none⟩).setSlot k
            { q with tailSent := q.tailSent + 1 }).sendTail k fuel
        else d
      else if q.trailerOut then d
      else
        let t := d.outTrailer k
        let d := d.wr (d.tailAt k + blocks * size) t
        (d.payload (d.outPort dir) ⟨0, k, t, 0, 64, none⟩).setSlot k { q with trailerOut := true }

/-! ## Commit (R16, R63, R64, R68, R74) -/

/-- The twelve sections of a directory: offset and blocks (R252). -/
def dirSections (bs : List Byte) : List (Nat × Nat) := (List.range 12).map fun k => (kNat bs (8 * k) 4, kNat bs (8 * k + 4) 4)

/-- The end of n blocks from a device offset on, found from their headers. -/
def Dev.blocksEnd (d : Dev) (a : Nat) : Nat → Nat
  | 0 => a
  | n + 1 => d.blocksEnd (a + (blockHdr (d.rd a 16)).stored) n

/-- Whether every coded block of n from a device offset on has its table slot's bit set in SLOT_MASK (Table 3; log 178). -/
def Dev.maskOk (d : Dev) (mask a : Nat) : Nat → Bool
  | 0 => true
  | n + 1 =>
    let h := blockHdr (d.rd a 16)
    (h.mode != 1 || bitOf mask h.slot) && d.maskOk mask (a + h.stored) n

/-- Whether the sections of a body lie as R252 requires: `at_` is the body's first byte, `from_` the end of what came before. -/
def Dev.sectionsOk (d : Dev) (at_ len : Nat) : Nat → List (Nat × Nat) → Bool
  | _, [] => true
  | from_, (o, n) :: ss =>
    if n = 0 then o == 0 && d.sectionsOk at_ len from_ ss
    else if o % 128 ≠ 0 ∨ o < 128 ∨ o < from_ ∨ len < o + 16 * n then false
    else
      let e := d.blocksEnd (at_ + o) n - at_
      decide (e ≤ len) && (d.rd (at_ + from_) (o - from_)).all (· = 0) && d.sectionsOk at_ len e ss

/-- Whether a slot's body directory passes R253. -/
def Dev.directoryOk (d : Dev) (k : Nat) (h : SpoolHdr) : Bool :=
  h.bodyLen == 0 ||
    (let a := landSlot k + 64
     let bs := d.rd a 128
     let ss := dirSections bs
     decide (128 ≤ h.bodyLen) && crc32c (bs.take 124) == kNat bs 124 4 && ((bs.drop 98).take 26).all (· = 0) &&
       (ss.map (·.2)).sum == h.blocks && d.sectionsOk a h.bodyLen 128 ss && ss.all fun s => d.maskOk (kNat bs 96 2) (a + s.1) s.2)

/-- The sections of a committed body for their expanders, with the INDEX each begins at. -/
def sectionsOf (k : Nat) : Nat → Nat → List (Nat × Nat) → List (Nat × Section)
  | _, _, [] => []
  | c, i, (o, n) :: ss =>
    if n = 0 then sectionsOf k (c + 1) i ss else (c, ⟨k, o, n, i, [], none⟩) :: sectionsOf k (c + 1) (i + n) ss

/-- Commit the spool in a slot: FULL, its sections to the expanders, its code tables referenced, its forwarding started. The expansion of a null
spool is complete at once, but with tail blocks only when they too have been read (R59, R68; log 175). -/
def Dev.commit (d : Dev) (k : Nat) : Dev :=
  let q := d.slot k
  match q.hdr with
  | none => d
  | some h =>
    let dir := slotDir k
    let bs := if h.bodyLen = 0 then [] else d.rd (landSlot k + 64) 128
    let mask := kNat bs 96 2
    let refs := ((List.range 16).filter fun t => bitOf mask t).map fun t => tslot (d.fld F.CDC_CTRL_SPOOL_CTX) t
    let d := refs.foldl (fun d t => d.refSlot t) d
    let secs := if h.bodyLen = 0 then [] else sectionsOf k 0 0 (dirSections bs)
    let d := { d with codec := { d.codec with secs := d.codec.secs ++ secs } }
    let d := (d.setFlags k false true false false false).setSlot k { q with ready := false, refs := refs }
    let d := d.count F.TTH_SPOOLS_IN_COUNT 1
    let back := d.offsetOf q.idx + 1 == d.ringN
    let d := d.payload (d.outPort dir) ⟨0, k, [], landSlot k, if back then 64 else 64 + h.bodyLen, none⟩
    let d := d.sendTail k (((d.slotTail k).getD 0) + 1)
    if secs.isEmpty && ((d.slotTail k).getD 0) == 0 then d.setExpanded k else d

/-- A spool's last byte is in: Arrived, its directory checked; after its boundary it is committed at once (R74, R253). -/
def Dev.arrived (d : Dev) (k : Nat) : Dev :=
  let q := d.slot k
  match q.hdr with
  | none => d
  | some h =>
    let d := d.setFlags k false false false false false
    if d.directoryOk k h = false then (d.raise F.CDC_EVENT_DIR_ERR 0 clsRing).pullRipcord 8
    else
      let d := d.setSlot k { q with ready := true }
      if q.idx ≤ d.sched then (d.raise F.TTH_EVENT_LATE_COMMIT k clsInfo).commit k else d

/-! ## Staging (R58 to R62, R82) -/

/-- Whether a list entry is bad (R60). -/
def entryBad (fmt : Nat) (bs : List Byte) : Bool :=
  let null := bitOf (kNat bs 24 2) 0
  let body := if null then 0 else kNat bs 8 4
  let addr := kNat bs 0 8
  (!null && decide (2 ^ 44 ≤ addr)) || decide (2 ≤ kNat bs 24 2) || kNat bs 26 6 != 0 ||
    (!null && (addr % 64 != 0 || decide (hbmSize < addr + body))) || decide (33554432 < 64 + body + kNat bs 12 4) ||
    !(tailLenOk fmt (kNat bs 12 4))

/-- An uncorrectable staging read (R320). -/
def Dev.stageUe (d : Dev) (a n : Nat) : Dev :=
  let l := ((linesOf a n).find? fun l => (d.lineErrs l).any (·.2)).getD (a / 64)
  (d.raise (F.KEL_EVENT_STAGE_UE (d.stackOf (64 * l))) (d.stackOf (64 * l)) clsRing).pullRipcord 10

/-- Whether a queued or running keel command writes a range (R18). -/
def Dev.keelWrites (d : Dev) (a n : Nat) : Bool :=
  (List.range 12).any fun k => (d.kQueue k).any fun c => (d.kWrites c).any fun r => decide (r.1 < a + n) && decide (a < r.1 + r.2)

/-- STATUS.STAGING: an own spool is being staged. -/
def Dev.stagingBit (d : Dev) : Dev :=
  d.setFld F.TTH_STATUS_STAGING (b2n ((List.range 6).any fun k => d.arriving k && (d.slot k).own && (d.slot k).hdrOk))

/-- The device offset of the list entry of the next staging. -/
def Dev.entryOff (d : Dev) (dir i : Nat) : Nat := d.fld (byDir dir F.TTH_LIST_CW_BASE F.TTH_LIST_CCW_BASE) * 32 + 32 * d.roundOf i

/-- Read and check the entry of the next staging: its 32 bytes, or the device after the ripcord. -/
def Dev.stageEntry (d : Dev) (dir i : Nat) : Except Dev (Dev × List Byte) :=
  let a := d.entryOff dir i
  if hbmSize < a + 32 then .error ((d.raise F.TTH_EVENT_OVERSIZE 0 clsRing).pullRipcord 7)
  else match d.hbmRead a 32 with
    | (d, none) => .error (d.stageUe a 32)
    | (d, some bs) =>
      if entryBad (d.tailFmt dir) bs then .error ((d.raise F.TTH_EVENT_OVERSIZE 0 clsRing).pullRipcord 7) else .ok (d, bs)

/-- The body of a list entry: its device offset and length. -/
def entryBody (bs : List Byte) : Nat × Nat := (kNat bs 0 8, if bitOf (kNat bs 24 2) 0 then 0 else kNat bs 8 4)

/-- Write the header and the body of an entry into its slot; nothing begins while a keel command writes the body (R18), its stack
is repaired (R322) or the slot has not drained (R69). -/
def Dev.stageBody (d : Dev) (dir i : Nat) (bs : List Byte) : Dev :=
  let k := slotFor dir i
  let null := bitOf (kNat bs 24 2) 0
  let (addr, body) := entryBody bs
  if body ≠ 0 && (d.keelWrites addr body || d.repairing addr body) then d
  else if d.drained k = false then d.beginLanding dir i true
  else
    let d := d.beginLanding dir i true
    let hb := spoolHdrBytes d.station dir null (kNat bs 12 4 != 0) (d.roundOf i) d.ringN i body (kNat bs 12 4) (if null then 0 else kNat bs 16 4) (kNat bs 20 4)
    let d := d.wr (landSlot k) hb
    let d := (d.setSlot k { d.slot k with hdr := some (spoolHdr hb), hdrOk := true, trailerIn := true }).slotRecord k (spoolHdr hb)
    let d := d.stagingBit
    if body = 0 then d
    else match d.hbmRead addr body with
      | (d, none) => d.stageUe addr body
      | (d, some data) => d.wr (landSlot k + 64) data

/-- SPOOL_STAGING (R62): the next entry of a direction's list is read, checked, and staged. -/
def execSpoolStaging (dir : Dir) (s : State) : Out :=
  act s fun d =>
    let i := d.ownIdx dir
    if d.mayLand dir i true = false ∨ d.landing dir i ∨ d.repairing (d.entryOff dir i) 32 then d
    else match d.stageEntry dir i with
      | .error d => d
      | .ok (d, bs) => d.stageBody dir i bs

/-- STAGING_COMPLETE (R62, R68): the staged spool's last byte is written. -/
def execStagingComplete (dir : Dir) (s : State) : Out :=
  act s fun d =>
    let i := d.ownIdx dir
    let k := slotFor dir i
    if d.tethered = false ∨ d.landing dir i = false ∨ (d.slot k).hdrOk = false then d
    else
      let d := { d with ring := { d.ring with own := Store.put (fun _ => 0) d.ring.own dir (i + d.ringN) } }
      (d.arrived k).stagingBit

/-! ## Arrival (R65, R68) -/

/-- A header of the arriving spool is in, 64 bytes given as one number: it is checked, and the ripcord pulled when it fails. Of a header whose CRC
or version fails no other field is looked at (log 174). -/
def Dev.headerCheck (d : Dev) (h : SpoolHdr) (dir home r : Nat) : Option Dev :=
  if h.crcOk = false ∨ h.major ≠ 1 then some ((d.raise F.TTH_EVENT_HDR_ERR 0 clsRing).pullRipcord 4)
  else if h.dir ≠ dir ∨ h.home ≠ home ∨ h.seq ≠ r ∨ h.n ≠ d.ringN ∨ h.sched ≠ d.startIdx + r * d.ringN then
    some ((d.raise F.TTH_EVENT_SEQ_ERR 0 clsRing).pullRipcord 4)
  else none

/-- SPOOL_HEADER_IN (R65). -/
def execSpoolHeaderIn (dir : Dir) (header : BitVec 512) (s : State) : Out :=
  act s fun d =>
    let i := d.arrIdx dir
    let k := slotFor dir i
    if d.tethered = false ∨ d.landing dir i = false ∨ (d.slot k).hdrOk then d
    else
      let bs := leBytes 64 header.toNat
      let h := spoolHdr bs
      let d := ((d.wr (landSlot k) bs).setSlot k { d.slot k with hdr := some h }).slotRecord k h
      match d.headerCheck h dir (d.homeAt dir (d.offsetOf i)) (d.roundOf i) with
      | some d => d
      | none => d.setSlot k { d.slot k with hdrOk := true }

/-- The schedule index of the next arrival after i: an own spool is staged instead. -/
def Dev.nextArr (d : Dev) (i : Nat) : Nat := if d.offsetOf (i + 1) = 0 then i + 2 else i + 1

/-- SPOOL_LAST_BYTE (R68): the bytes that followed the header, all but a tail's trailer, which TAIL_TRAILER_IN brings before. -/
def execSpoolLastByte (dir : Dir) (bytes : List Byte) (s : State) : Out :=
  act s fun d =>
    let i := d.arrIdx dir
    let k := slotFor dir i
    match (d.slot k).hdr with
    | none => d
    | some h =>
      if d.tethered = false ∨ d.landing dir i = false ∨ (d.slot k).hdrOk = false ∨ (h.tailLen ≠ 0 ∧ (d.slot k).trailerIn = false) then d
      else
        let n := h.bodyLen + (h.tailLen - 64)
        let d := d.wr (landSlot k + 64) ((bytes ++ zeros n).take n)
        let d := { d with ring := { d.ring with arr := Store.put (fun _ => 0) d.ring.arr dir (d.nextArr i) } }
        d.arrived k

/-! ## Completion of forwarding and expansion (R17, R63, R68) -/

/-- Whether payload of a slot still waits on a port. -/
def Dev.slotPayload (d : Dev) (p k : Nat) : Bool := (d.port p).lanes.any fun q => q.slot == k

/-- FORWARDING_COMPLETE: everything of the slot's spool, or of its relay packet, has been sent. -/
def execForwardingComplete (slot : Fin 6) (s : State) : Out :=
  act s fun d =>
    let k := slot.val
    let p := d.outPort (slotDir k)
    let q := d.slot k
    if d.full k = false ∨ q.live = false ∨ d.bit (F.TTH_SLOT_FLAGS_FORWARDED k) ∨ d.up p = false ∨ d.slotPayload p k ∨ d.links.vl0Stop then d
    else if d.bit F.TTH_CTRL_MODE then (if q.rEndOut then d.setForwarded k else d)
    else if (d.slotTail k).isSome && !q.trailerOut then d
    else
      let d := (d.setForwarded k).count F.TTH_SPOOLS_OUT_COUNT 1
      let dir := slotDir k
      if d.offsetOf q.idx + 1 = d.ringN then
        { d with ring := { d.ring with out := Store.put (fun _ => 0) d.ring.out dir (d.outCount dir + 1) } }
      else d

/-- EXPANSION_COMPLETE: no section of the slot's spool is left, and its tail has been read, or at the home written (R68, R257). -/
def execExpansionComplete (slot : Fin 6) (s : State) : Out :=
  act s fun d =>
    let k := slot.val
    let q := d.slot k
    if d.full k = false ∨ d.bit (F.TTH_SLOT_FLAGS_EXPANDED k) ∨ d.bit F.TTH_CTRL_MODE ∨ q.hdr.isNone ∨
        d.codec.secs.any (fun x => x.2.slot == k) ∨ (List.range ((d.slotTail k).getD 0)).any (fun b => !q.tailDone.contains b) then d
    else d.setExpanded k

/-! ## Relay packets on a ring port (R96, R99, R101) -/

/-- Lead of packet k (R96). -/
def Dev.leadOf (d : Dev) (k : Nat) : Nat := (d.fld F.TTH_RELAY_CTRL_FIRST_LEAD + k * (d.ringN / 2)) % d.ringN

/-- Hops of packet k from its lead to this station in a direction; 0 at the lead (R96). -/
def Dev.relayHops (d : Dev) (dir k : Nat) : Nat :=
  (if dir = 0 then d.station + d.ringN - d.leadOf k else d.leadOf k + d.ringN - d.station) % d.ringN

/-- Hops of the whole way of a direction: ⌊N ÷ 2⌋ clockwise, ⌈N ÷ 2⌉ counterclockwise. -/
def Dev.relayWay (d : Dev) (dir : Nat) : Nat := if dir = 0 then d.ringN / 2 else (d.ringN + 1) / 2

/-- Whether packet k visits this station in a direction. -/
def Dev.visits (d : Dev) (dir k : Nat) : Bool := decide (1 ≤ d.relayHops dir k) && decide (d.relayHops dir k ≤ d.relayWay dir)

/-- Whether this station is the meeting station of packet k. -/
def Dev.meeting (d : Dev) (k : Nat) : Bool := d.leadOf (k + 1) == d.station

/-- The first packet from k on that visits this station in a direction. -/
def Dev.nextVisit (d : Dev) (dir : Nat) : Nat → Nat → Nat
  | 0, k => k
  | fuel + 1, k => if d.visits dir k then k else d.nextVisit dir fuel (k + 1)

/-- The packet that a direction brings next (R101). -/
def Dev.expected (d : Dev) (dir : Nat) : Nat := d.nextVisit dir (2 * d.ringN) (Store.get (fun _ => 0) d.ring.cur dir)

/-- The bits of TTH_RELAY_STATUS for a slot. -/
def inflight (k : Nat) : Fld := ⟨R.TTH_RELAY_STATUS, 8 + k, 8 + k⟩
def complete (k : Nat) : Fld := ⟨R.TTH_RELAY_STATUS, k, k⟩

/-- Whether relay traffic moves: relay mode, and no ripcord has stopped VL 0. -/
def Dev.relaying (d : Dev) : Bool := d.bit F.TTH_CTRL_MODE && !d.links.vl0Stop

/-- The slot of the packet a direction is receiving. -/
def Dev.relaySlot (d : Dev) (dir : Nat) : Nat := slotFor dir (Store.get (fun _ => 0) d.ring.cur dir - 1)

/-- Whether a direction's packet is being received: its header is in, its end marker is not. -/
def Dev.receiving (d : Dev) (dir : Nat) : Bool :=
  let k := d.relaySlot dir
  d.relaying && !d.ring.turnaround && d.bit (inflight k) && (d.slot k).hdrOk && !(d.slot k).rEndIn

/-- The slot that ring payload arriving on a port goes to, and whether its landing has begun: the packet that is received or comes next in relay
mode, else the next arrival of the port's direction; none for a return hop, which occupies no slot (R64, R69). -/
def Dev.arrivalSlot (d : Dev) (p : Nat) : Option (Nat × Bool) :=
  match (List.range 2).find? fun dir => d.inPort dir == p with
  | none => none
  | some dir =>
    if d.relaying then (if d.receiving dir then some (d.relaySlot dir, true) else some (slotFor dir (d.expected dir), false))
    else
      let i := d.arrIdx dir
      if d.tethered && d.spoolAt dir i && decide (d.roundOf i ≤ d.retCount dir) then some (slotFor dir i, d.landing dir i) else none

/-! ## Register writes (R54, R78, R80, R94, R105, R348) -/

/-- Whether a port code names an Up port. -/
def Dev.portUsable (d : Dev) (p : Nat) : Bool := decide (p < 4) && d.up p

/-- A write of TTH_CTRL. -/
def Dev.writeTthCtrl (d : Dev) (v : Nat) : Dev :=
  if d.bit F.TTH_STATUS_ACTIVE || d.bit F.TTH_CTRL_MODE then d.raise F.TTH_EVENT_LOCKED_WRITE 0 clsInfo
  else if bitOf v 0 && (decide (d.ringN < 4) || decide (8192 < d.ringN) || !(d.portUsable (d.fld F.TTH_STATION_NEXT_PORT)) ||
      !(d.portUsable (d.fld F.TTH_STATION_PREV_PORT))) then d.raise F.TTH_EVENT_CONFIG_ERR 0 clsInfo
  else
    let slots := d.cacheSlots
    let d := d.plain R.TTH_CTRL v
    if bitOf v 0 ∨ d.cacheSlots ≠ slots then d.cacheInv else d

/-- TTH_ENABLE (R54, R348): a write of TTH_CTRL with ENABLE = 1. -/
def execTthEnable (t : Tag) (v : Word) (s : State) : Out := act s fun d => d.fw t.toNat R.TTH_CTRL fun d => d.writeTthCtrl (v ||| 1).toNat

/-- A write of TTH_MODE_REQ (R78). -/
def Dev.writeModeReq (d : Dev) (v : Nat) : Dev :=
  let target := F.TTH_MODE_REQ_TARGET.ofNat v
  let run := d.fld F.TCK_STATUS_STATE == 2 || d.fld F.TCK_STATUS_STATE == 3
  if (run && decide (F.TTH_MODE_REQ_AT_INDEX.ofNat v ≤ d.sched % 2 ^ 48)) || target == d.fld F.TTH_CTRL_MODE ||
      (target == 1 && !(d.bit F.TTH_CTRL_ENABLE)) then d.raise F.TTH_EVENT_CONFIG_ERR 0 clsInfo
  else (d.plain R.TTH_MODE_REQ v).setFld F.TTH_MODE_REQ_PENDING 1

/-- MODE_REQUEST (R78). -/
def execModeRequest (t : Tag) (v : Word) (s : State) : Out := act s fun d => d.fw t.toNat R.TTH_MODE_REQ fun d => d.writeModeReq v.toNat

/-- Reserved values of TTH_STATION and of the tail registers. -/
def stationRsv (v : Nat) : Bool :=
  let n := F.TTH_STATION_N.ofNat v
  let bad := fun p => decide (4 ≤ p) && p != 15
  (decide (1 ≤ n) && decide (n ≤ 3)) || decide (8192 < n) || bad (F.TTH_STATION_NEXT_PORT.ofNat v) || bad (F.TTH_STATION_PREV_PORT.ofNat v)
def tailRsv (v : Nat) : Bool := decide (2 ≤ F.TTH_TAIL_CW_FMT.ofNat v) || decide (6 ≤ F.TTH_TAIL_CW_GROUP.ofNat v)

/-- A write to the TTH block, but for TTH_RELAY_CMD. -/
def Dev.writeTTH (d : Dev) (off v : Nat) : Dev :=
  let act := d.bit F.TTH_STATUS_ACTIVE
  let relay := d.bit F.TTH_CTRL_MODE
  let locked := d.raise F.TTH_EVENT_LOCKED_WRITE 0 clsInfo
  if off = R.TTH_CTRL then d.writeTthCtrl v
  else if off = R.TTH_MODE_REQ then d.writeModeReq v
  else if off = R.TTH_STATION then d.guarded (act || relay) (stationRsv v) F.TTH_EVENT_LOCKED_WRITE off fun d => d.plain off v
  else if off = R.TTH_LIST_CW ∨ off = R.TTH_LIST_CCW ∨ off = R.TTH_ROT ∨ off = R.TTH_GRAD_CW ∨ off = R.TTH_GRAD_CCW then
    (if act then locked else d.plain off v)
  else if off = R.TTH_TAIL_CW ∨ off = R.TTH_TAIL_CCW then d.guarded act (tailRsv v) F.TTH_EVENT_LOCKED_WRITE off fun d => d.plain off v
  else if off = R.TTH_RELAY_CTRL then
    d.guarded relay (F.TTH_RELAY_CTRL_SLICE_MAX.ofNat v == 0) F.TTH_EVENT_LOCKED_WRITE off fun d => d.plain off v
  else d.plain off v

end Sys2Proof.Machine
end

