-- ==== Sys2Proof/Machine/Ride.lean ====
section
/-! DEFINITION. Gradient tails: the packers' blocks, trailers, return hops and the gradient writes at the home (R82 to R92). -/

namespace Sys2Proof.Machine

/-- The job the tether engine serves: that of CDC_CTRL.SPOOL_CTX. -/
def Dev.spoolJob (d : Dev) : Nat := d.fld (F.STR_CTX_JOB (d.fld F.CDC_CTRL_SPOOL_CTX))

/-! ## Partials (R85) -/

/-- The core that holds block b's partial, and its local index. -/
def partialCore (g b : Nat) : Nat := b / g % 144
def partialIdx (g b : Nat) : Nat := b / (144 * g) * g + b % g

/-- Read a core's partial of block b: none while the watermark does not cover it. A refused read leaves the values open (log 20). -/
def Dev.partial_ (d : Dev) (dir b : Nat) : Option (Dev × List Byte) :=
  let g := 2 ^ d.fld (byDir dir F.TTH_TAIL_CW_GROUP F.TTH_TAIL_CCW_GROUP)
  let off := d.fld (byDir dir F.TTH_TAIL_CW_PART_OFF F.TTH_TAIL_CCW_PART_OFF) * 4096
  let n := partialCore g b
  let l := partialIdx g b
  match d.winRead n d.spoolJob off 8 with
  | (_, none) => none
  | (d, some w) =>
    if leNat w ≤ l then none
    else match d.winRead n d.spoolJob (off + 4096 * (l + 1)) 4096 with
      | (d, some bs) => some (d, bs)
      | (d, none) => let (bs, d) := d.drawBytes 4096; some (d, bs)

/-! ## Blocks (R83, R86, R88 to R90) -/

/-- Whether an arriving tail block passes the checks of Table 5 of the codec chapter as R83 shapes it. -/
def tailBlockOk (fmt b : Nat) (bs : List Byte) : Bool :=
  let h := blockHdr bs
  !h.bad && h.mode == 0 && h.raw == 1024 * tailElem fmt && h.index == b && h.flags == 0 && h.core == 0 &&
    crc32c ((bs.drop 16).take h.raw) == h.crc

/-- FP32 values of packed elements of a tail format. -/
def tailVals (fmt : Nat) : Nat → List Byte → List Nat
  | 0, _ => []
  | n + 1, bs =>
    (if fmt = 0 then leNat (bs.take 4) else toFP32 (fmtBF16.decode (leNat (bs.take 2)))) :: tailVals fmt n (bs.drop (tailElem fmt))

/-- Convert sums in order: the stored elements, and for error feedback the residuals (R89, R90). -/
def Dev.tailConvert (d : Dev) (fmt : Nat) (sr : Bool) (cluster : Nat) : Nat → List Nat → Dev × List Byte × List Byte
  | _, [] => (d, [], [])
  | i, v :: vs =>
    if fmt = 0 then
      let (d, es, rs) := d.tailConvert fmt sr cluster (i + 1) vs
      (d, leBytes 4 v ++ es, rs)
    else
      let g := genNext (d.pgen (64 * cluster + i % 64))
      let (d, r) := if sr then (d.setPgen (64 * cluster + i % 64) g, Rnd.stoch g) else (d, Rnd.even)
      let e := fmtBF16.encode false r (ofFP32 v)
      let res := fmtBF16.encode false .even (ofFP32 (fp32Sub v (toFP32 (fmtBF16.decode e))))
      let (d, es, rs) := d.tailConvert fmt sr cluster (i + 1) vs
      (d, leBytes 2 e ++ es, leBytes 2 res ++ rs)

/-- The device offset of a direction's gradient table entry r (R91). -/
def Dev.gradAt (d : Dev) (dir r : Nat) : Nat := d.fld (byDir dir F.TTH_GRAD_CW_BASE F.TTH_GRAD_CCW_BASE) * 32 + 32 * r

/-- The 32 bytes of a direction's gradient table entry r; none without a table or when it cannot be read (R91, R92). -/
def Dev.gradEntry (d : Dev) (dir r : Nat) : Dev × Option (List Byte) :=
  if d.bit (byDir dir F.TTH_GRAD_CW_VALID F.TTH_GRAD_CCW_VALID) then d.hbmRead (d.gradAt dir r) 32 else (d, none)

/-- The home's residual buffer for block b, none where R90 keeps none, or the table entry that names it cannot be read (log 177). -/
def Dev.residAt (d : Dev) (k b : Nat) : Dev × Option Nat :=
  let dir := slotDir k
  if !(d.slot k).own || !(d.bit (byDir dir F.TTH_TAIL_CW_EF F.TTH_TAIL_CCW_EF)) || d.tailFmt dir != 1 then (d, none)
  else match d.gradEntry dir (d.roundOf (d.slot k).idx) with
    | (d, some bs) => (d, if kNat bs 8 8 = 0 then none else some (kNat bs 8 8 + 2048 * b))
    | (d, none) => (d, none)

/-- Whether a stack under repair makes the home's packer wait for the residual of block b, or for the entry that names it (R322). -/
def Dev.residWaits (d : Dev) (k b : Nat) : Bool :=
  let dir := slotDir k
  (d.slot k).own && d.bit (byDir dir F.TTH_TAIL_CW_EF F.TTH_TAIL_CCW_EF) && d.tailFmt dir == 1 &&
    (d.repairing (d.gradAt dir (d.roundOf (d.slot k).idx)) 32 || ((d.residAt k b).2.any fun a => d.repairing a 2048))

/-- Add one block: arriving values, partial and residual; the new block in the slot, the residual in HBM. A residual that cannot be read has free
values (log 177). -/
def Dev.addBlock (d : Dev) (k b : Nat) (part : List Byte) : Dev :=
  let dir := slotDir k
  let fmt := d.tailFmt dir
  let q := d.slot k
  let at_ := d.tailAt k + b * tailBlock fmt
  let arr := d.rd at_ (tailBlock fmt)
  let bad := !q.own && !(tailBlockOk fmt b arr)
  let d := if bad then (d.setSlot k { q with poison := true }).raise F.TTH_RIDE_EVENT_TAIL_POISON k clsContained else d
  let old := if q.own || bad then List.replicate 1024 0 else tailVals fmt 1024 (arr.drop 16)
  let sums := List.zipWith fp32Add old (tailVals 0 1024 part)
  let (d, res) := d.residAt k b
  let (d, sums) := match res with
    | none => (d, sums)
    | some a => match d.hbmRead a 2048 with
      | (d, some rs) => (d, List.zipWith fp32Add sums (tailVals 1 1024 rs))
      | (d, none) => let (rs, d) := d.drawBytes 2048; (d, List.zipWith fp32Add sums (tailVals 1 1024 rs))
  let sr := d.bit (byDir dir F.TTH_TAIL_CW_SR F.TTH_TAIL_CCW_SR)
  let g := 2 ^ d.fld (byDir dir F.TTH_TAIL_CW_GROUP F.TTH_TAIL_CCW_GROUP)
  let (d, es, rs) := d.tailConvert fmt sr (clusterOf (partialCore g b)) 0 sums
  let d := match res with | some a => (d.hbmWrite a rs).1 | none => d
  let n := 1024 * tailElem fmt
  let h : BlockHdr := ⟨0, 0, 0, 0, 0, n, n, b, crc32c es, false⟩
  let d := d.wr at_ (h.bytes ++ es)
  let q := d.slot k
  (d.setSlot k { q with tailDone := q.tailDone ++ [b] }).sendTail k (((d.slotTail k).getD 0) + 1)

/-- TAIL_BLOCK: the packer of block b's core processes it, once the spool is committed and the core's watermark covers the block. -/
def execTailBlock (slot : Fin 6) (b : Nat) (s : State) : Out :=
  act s fun d =>
    let k := slot.val
    if d.tethered = false ∨ d.full k = false ∨ (d.slot k).live = false ∨ (d.slotTail k).getD 0 ≤ b ∨ (d.slot k).tailDone.contains b ∨
        d.residWaits k b then d
    else match d.partial_ (slotDir k) b with
      | none => d
      | some (d, part) => d.addBlock k b part

/-! ## Return hops and trailers (R64, R84, R87, R91, R92) -/

/-- Whether a trailer passes R87. -/
def trailerOk (fmt added : Nat) (bs : List Byte) : Bool :=
  crc32c (bs.take 60) == kNat bs 60 4 && kNat bs 1 1 == 1 && kNat bs 2 1 == fmt && kNat bs 8 2 == added

/-- A return hop has been received and handed to the home (R66). -/
def Dev.hopIn (d : Dev) (dir : Nat) : Dev :=
  let d := d.count F.TTH_SPOOLS_IN_COUNT 1
  { d with ring := { d.ring with ret := Store.put (fun _ => 0) d.ring.ret dir (d.retCount dir + 1),
                                 returns := d.ring.returns.filter fun x => x.dir ≠ dir } }

/-- RETURN_HOP (R64, R65): the header and tail blocks of a spool come home; a tail's trailer follows. -/
def execReturnHop (dir : Dir) (header : BitVec 512) (blocks : List Byte) (s : State) : Out :=
  act s fun d =>
    let r := d.retCount dir
    let i := d.startIdx + r * d.ringN + (d.ringN - 1)
    if d.tethered = false ∨ d.listLen dir ≤ r ∨ d.sched < i ∨ d.ring.returns.any (fun x => x.dir == dir.val) then d
    else
      let h := spoolHdr (leBytes 64 header.toNat)
      match d.headerCheck h dir d.station r with
      | some d => d
      | none =>
        if h.tailLen = 0 then d.hopIn dir
        else
          let n := h.tailLen - 64
          { d with ring := { d.ring with returns := d.ring.returns ++ ([⟨dir, h, (blocks ++ zeros n).take n⟩] : List Return) } }

/-- The 64-byte lines of an FP32 gradient as requests to their keel homes (R91). -/
def Dev.gradWrites (d : Dev) (src tag a : Nat) (acc : Bool) : Nat → List Byte → Dev
  | 0, _ => d
  | n + 1, bs =>
    let op := if acc then ReqOp.addF32 (bs.take 64) else ReqOp.store (bs.take 64)
    (d.issue (Req.of src tag (d.slotNo * 2 ^ 44 + a) op)).gradWrites src tag (a + 64) acc n (bs.drop 64)

/-- The FP32 bytes of tail blocks. -/
def tailFp32 (fmt : Nat) : Nat → List Byte → List Byte
  | 0, _ => []
  | n + 1, bs =>
    (tailVals fmt 1024 (bs.drop 16)).flatMap (fun v => leBytes 4 v) ++ tailFp32 fmt n (bs.drop (tailBlock fmt))

/-- The home takes a checked tail (R91, R92). -/
def Dev.takeTail (d : Dev) (x : Return) (trailer : List Byte) : Dev :=
  let d := d.hopIn x.dir
  if bitOf (kNat trailer 3 1) 1 then d.raise F.TTH_RIDE_EVENT_GRAD_SKIP x.dir clsContained
  else match d.gradEntry x.dir x.hdr.seq with
    | (d, none) => d.raise F.TTH_RIDE_EVENT_NO_GRAD x.dir clsContained
    | (d, some e) =>
      let fmt := d.tailFmt x.dir
      let blocks := tailBlocks fmt x.hdr.tailLen
      let first := d.home.nextId
      let d := d.gradWrites (1000 + x.dir) d.spoolJob (kNat e 0 8) (bitOf (kNat e 24 1) 0) (64 * blocks) (tailFp32 fmt blocks x.blocks)
      let failed := (d.home.reqs.filter fun r => decide (first ≤ r.id)).length != 64 * blocks
      { d with ring := { d.ring with grads := d.ring.grads ++ ([⟨x.dir, first, d.home.nextId, kNat e 16 8, failed⟩] : List Grad) } }

/-- TAIL_TRAILER_IN (R87): the trailer of an arriving spool, or (`back`) of a return hop. -/
def execTailTrailerIn (dir : Dir) (back : Bool) (trailer : BitVec 512) (s : State) : Out :=
  act s fun d =>
    let bs := leBytes 64 trailer.toNat
    let fail := fun (d : Dev) => (d.raise F.TTH_RIDE_EVENT_TAIL_ERR dir clsRing).pullRipcord 5
    if d.tethered = false then d
    else if back then
      match d.ring.returns.find? fun x => x.dir == dir.val with
      | none => d
      | some x =>
        if trailerOk (d.tailFmt dir) d.ringN bs = false then fail d
        else if d.repairing (d.gradAt dir x.hdr.seq) 32 then d
        else d.takeTail x bs
    else
      let i := d.arrIdx dir
      let k := slotFor dir i
      match (d.slot k).hdr with
      | none => d
      | some h =>
        if d.landing dir i = false ∨ (d.slot k).hdrOk = false ∨ h.tailLen = 0 then d
        else
          let d := d.wr (d.tailAt k + (h.tailLen - 64)) bs
          if trailerOk (d.tailFmt dir) (d.offsetOf i) bs then d.setSlot k { d.slot k with trailerIn := true } else fail d

/-- GRADIENT_WRITES_DONE (R91, R320): every write of a direction's oldest gradient has been performed; KCMD is submitted, waiting for room in its
queues (R327), and GRAD_DONE raised. -/
def execGradientWritesDone (dir : Dir) (s : State) : Out :=
  act s fun d =>
    match d.ring.grads.find? fun g => g.dir == dir.val with
    | none => d
    | some g =>
      let drop := fun (d : Dev) => { d with ring := { d.ring with grads := d.ring.grads.erase g } }
      if d.home.reqs.any fun r => decide (g.first ≤ r.id) && decide (r.id < g.last) then d
      else if g.failed then (drop d).raise F.TTH_RIDE_EVENT_GRAD_SKIP dir clsContained
      else if g.kcmd = 0 then (drop d).raise F.TTH_RIDE_EVENT_GRAD_DONE dir clsInfo
      else if g.kcmd % 64 ≠ 0 ∨ hbmSize < g.kcmd + 64 then
        (drop (d.keelWrite d.spoolJob (keelBase + 0x40000) (leBytes 8 g.kcmd)).1).raise F.TTH_RIDE_EVENT_GRAD_DONE dir clsInfo
      else if d.repairing g.kcmd 64 then d
      else match d.hbmRead g.kcmd 64 with
        | (d, none) => (drop d).raise F.TTH_RIDE_EVENT_GRAD_DONE dir clsInfo
        | (e, some bs) =>
          let region := if kNat bs 1 1 < 12 then kNat bs 1 1 else 0
          if d.kFull region bs then d
          else (drop (e.kSubmit region d.spoolJob bs)).raise F.TTH_RIDE_EVENT_GRAD_DONE dir clsInfo

end Sys2Proof.Machine
end

