-- ==== Sys2Proof/Machine/Expand.lean ====
section
/-! DEFINITION. Expanders and packers at work: blocks of spool bodies, EXPAND and PACK descriptors, table fetches, and the writes of the
codec's registers (R250, R251, R254 to R264). -/

namespace Sys2Proof.Machine

/-- CDC_FAULT, its event bits and counts (R258, Table 5). -/
def Dev.cdcFault (d : Dev) (kind unit : Nat) (packer : Bool) (h : BlockHdr) : Dev :=
  let d := d.setFld F.CDC_FAULT_KIND kind
  let d := d.setFld F.CDC_FAULT_UNIT unit
  let d := d.setFld F.CDC_FAULT_PACKER (b2n packer)
  let d := d.setFld F.CDC_FAULT_SLOT h.slot
  let d := d.setFld F.CDC_FAULT_GEN h.gen
  let d := d.setFld F.CDC_FAULT_INDEX h.index
  let d := d.raise F.CDC_EVENT_FAULT unit clsContained
  if kind = 16 then
    (d.raise F.CDC_EVENT_CRC unit clsContained).countErr F.CDC_ERR_COUNT_CRC F.CDC_EVENT_COUNT_SAT unit
  else if kind = 20 then
    (d.raise F.CDC_EVENT_STALE unit clsContained).countErr F.CDC_ERR_COUNT_CONSIST F.CDC_EVENT_COUNT_SAT unit
  else if 17 ≤ kind ∧ kind ≤ 22 then
    (d.raise F.CDC_EVENT_CONSIST unit clsContained).countErr F.CDC_ERR_COUNT_CONSIST F.CDC_EVENT_COUNT_SAT unit
  else d

/-- Whether a coded block's table slot no longer holds its generation (R250). -/
def Dev.staleGen (d : Dev) (ctx : Nat) (h : BlockHdr) : Bool :=
  h.mode == 1 && (d.fld (F.CDC_SLOT_GEN_STATE (tslot ctx h.slot)) != 1 || d.fld (F.CDC_SLOT_GEN_GEN (tslot ctx h.slot)) != h.gen)

/-- The table a block decodes with: empty for a block that is not coded, none while the unit does not hold it (R251). -/
def Dev.blockTable (d : Dev) (unit ctx : Nat) (h : BlockHdr) : Option (List Byte) :=
  if h.mode = 1 then d.heldTable unit (tslot ctx h.slot) else some []

/-- Use of a held table makes it the most recently used (R251). -/
def Dev.touchTable (d : Dev) (unit ctx : Nat) (h : BlockHdr) (t : List Byte) : Dev :=
  if h.mode = 1 then d.holdTable unit (tslot ctx h.slot) t else d

/-! ## Sections of spool bodies (R254 to R258) -/

/-- The core a block goes to (R254). -/
def destCore (k j : Nat) : Nat := 12 * (3 * (k / 3) + j / 4) + 4 * (k % 3) + j % 4

/-- A core's expansion ring. -/
def Dev.xring (d : Dev) (n : Nat) : XRing := Store.get (fun _ => ⟨0, none⟩) d.codec.rings n
def Dev.setXring (d : Dev) (n : Nat) (r : XRing) : Dev :=
  { d with codec := { d.codec with rings := Store.put (fun _ => ⟨0, none⟩) d.codec.rings n r } }

/-- The section at the front of a cluster's expander. -/
def Dev.frontSec (d : Dev) (k : Nat) : Option Section := (d.codec.secs.find? (·.1 == k)).map (·.2)

/-- Replace the front section of a cluster in place. -/
def secReplace (k : Nat) (s : Section) : List (Nat × Section) → List (Nat × Section)
  | [] => []
  | x :: xs => if x.1 = k then (k, s) :: xs else x :: secReplace k s xs

/-- Take the front section of a cluster out. -/
def secDrop (k : Nat) : List (Nat × Section) → List (Nat × Section)
  | [] => []
  | x :: xs => if x.1 = k then xs else x :: secDrop k xs

def Dev.setFront (d : Dev) (k : Nat) (s : Section) : Dev :=
  { d with codec := { d.codec with secs := if s.left = 0 then secDrop k d.codec.secs else secReplace k s d.codec.secs } }

/-- The section after one block of a header. -/
def Section.next (s : Section) (h : BlockHdr) : Section :=
  { s with pos := s.pos + h.stored, left := s.left - 1, index := s.index + 1, waitFrom := none }

/-- A contained fault of the spool context on a core, when the core still runs for the spool's job (R258). -/
def Dev.coreFault (d : Dev) (n source kind addr : Nat) : Dev :=
  if d.bit (ctxValid 0 n) && d.fld (ctxJob 0 n) == d.spoolJob then d.spoolFault n source kind addr else d

/-- What a block's checks before its ring and its data find: a KIND (R258; log 21 gives their order). -/
def Dev.blockKind (d : Dev) (s : Section) (n : Nat) (h : BlockHdr) : Option Nat :=
  let r := d.xring n
  if h.bad then some 19
  else if h.index ≠ s.index then some 21
  else if d.staleGen (d.fld F.CDC_CTRL_SPOOL_CTX) h then some 20
  else if h.first == r.opened.isSome then some 22
  else if 128 * d.fld (F.CDC_RING_TILE128 n) < r.opened.getD 0 + h.raw then some 22
  else none

/-- The flags of the buffer a tile goes to (R255): none when the ring's handle names no ring channel. -/
def Dev.ringChan (d : Dev) (n : Nat) : Option Nat :=
  match d.handleIdx (d.fld (F.CDC_RING_HANDLE n)) with
  | some i => if (d.chan i).typ = 3 then some i else none
  | none => none

/-- The last block of a tile sets FULL of its buffer; a block that begins one clears DRAINED. -/
def Dev.ringFlags (d : Dev) (i b : Nat) (first last : Bool) : Dev :=
  let q := d.chan i
  let q := if first then { q with drained := q.drained.set b false } else q
  let q := if last then { q with full := q.full.set b true, fullAt := q.fullAt.set b d.time, order := q.order ++ [b] } else q
  d.setChan i q

/-- Write a block's data into the tile buffer: relocated and checked under set 0, through the core's network port (R120, R254). False when it is
refused. -/
def Dev.tileWrite (d : Dev) (n b at_ : Nat) (bs : List Byte) : Dev × Bool :=
  let a := 128 * d.fld (F.CDC_RING_BASE128 n) + b * (128 * d.fld (F.CDC_RING_TILE128 n)) + at_
  let p := 4096 * d.fld (ctxBase4k 0 n) + a
  if 4096 * d.fld (ctxBound4k 0 n) < a + bs.length then ((d.portFault n 0 1 p).raise (F.SCP_EVENT_BOUND n) n clsContained, false)
  else d.winWrite n d.spoolJob p bs

/-- The remaining blocks of a core are skipped. -/
def Section.skipping (s : Section) (n : Nat) : Section := { s with skip := n :: s.skip }

/-- Decode and write a block whose ring and table are at hand. -/
def Dev.expandHere (d : Dev) (k n i b : Nat) (s : Section) (h : BlockHdr) (t body : List Byte) : Dev :=
  let ctx := d.fld F.CDC_CTRL_SPOOL_CTX
  let d := (d.count F.CDC_X_IN_BYTES h.stored).touchTable k ctx h t
  match decodeBody h t body with
  | .error e => (((d.cdcFault e k false h).coreFault n 4 e 0)).setFront k ((s.next h).skipping n)
  | .ok data =>
    let r := d.xring n
    let d := if h.first then d.ringFlags i b true false else d
    match d.tileWrite n b (r.opened.getD 0) data with
    | (d, false) => (d.coreFault n 1 (d.fld (F.SCP_FAULT_KIND n)) 0).setFront k ((s.next h).skipping n)
    | (d, true) =>
      let d := (d.count F.CDC_X_OUT_BYTES h.raw).monitor 6 k h.raw
      let d := if h.last then (d.ringFlags i b false true).setXring n ⟨r.tiles + 1, none⟩
        else d.setXring n ⟨r.tiles, some (r.opened.getD 0 + h.raw)⟩
      d.setFront k (s.next h)

/-- A wait on a ring ends, however it does: its time is added to CDC_X_WAIT (R256). -/
def Dev.ringWaited (d : Dev) (k : Nat) (s : Section) : Dev :=
  match s.waitFrom with
  | none => d
  | some t =>
    let cc := (d.time - t) / ccUnits
    (d.count F.CDC_X_WAIT_CC cc).monitor 7 k cc

/-- The header of a section's next block, and the core the block goes to. -/
def Dev.nextHdr (d : Dev) (s : Section) : BlockHdr := blockHdr (d.rd (landSlot s.slot + 64 + s.pos) 16)

/-- Whether a block is skipped: its core has halted or been fenced, or an earlier block of the spool failed there (R256, R258). -/
def Dev.skips (d : Dev) (s : Section) (n : Nat) : Bool := d.codec.dead.contains n || s.skip.contains n

/-- The ring channel and the buffer a block goes to, once the buffer has drained (R255). -/
def Dev.ringReady (d : Dev) (n : Nat) (h : BlockHdr) : Option (Nat × Nat) :=
  match d.ringChan n with
  | none => none
  | some i =>
    let b := (d.xring n).tiles % 2
    if h.first && !((d.chan i).drained.getD b true) then none else some (i, b)

/-- The next block of a section: expanded, skipped, faulted, or waiting for its ring (R254 to R258). -/
def Dev.expandBlock (d : Dev) (k : Nat) (s : Section) : Dev :=
  let h := d.nextHdr s
  let n := destCore k h.core
  let skip := fun (e : Nat) => (((d.ringWaited k s).cdcFault e k false h).coreFault n 4 e 0).setFront k ((s.next h).skipping n)
  if 12 ≤ h.core then (d.cdcFault 19 k false h).setFront k (s.next h)
  else if d.skips s n then (d.ringWaited k s).setFront k (s.next h)
  else match d.blockKind s n h with
    | some e => skip e
    | none => match d.ringReady n h with
      | none =>
        if d.bit F.CDC_CTRL_RING_FAULT then skip 23
        else (d.setFront k { s with waitFrom := some (s.waitFrom.getD d.time) }).raise F.CDC_EVENT_RING_WAIT k clsInfo
      | some (i, b) =>
        let d := (d.ringWaited k s).setFront k { s with waitFrom := none }
        match d.blockTable k (d.fld F.CDC_CTRL_SPOOL_CTX) h with
        | none => d
        | some t => d.expandHere k n i b s h t (d.rd (landSlot s.slot + 80 + s.pos) (h.stored - 16))

/-! ## EXPAND descriptors (R263) -/

/-- The oldest descriptor of a kind at a cluster's unit. -/
def Dev.frontDesc (d : Dev) (kind k : Nat) : Option Desc :=
  d.str.descs.find? fun q => q.kind == kind && q.cluster == k && !q.cancelled && !q.err && !q.finished

/-- Whether n bytes from a descriptor's destination on pass the check of its space (R120, R121). -/
def Dev.dstRoom (d : Dev) (q : Desc) (n : Nat) : Bool :=
  match q.tmpl.dstSpace with
  | 0 => decide (q.dst % 2 ^ 44 + n ≤ scpWin q.core + 4096 * (d.fld (ctxBase4k q.set q.core) + d.fld (ctxBound4k q.set q.core)))
  | 1 =>
    match if q.core < 144 then some (q.core, q.set) else d.boundSet q.ctx with
    | none => false
    | some (c, s) => decide (q.dst % 2 ^ 44 + n ≤ 65536 * (d.fld (ctxHbmBase s c) + d.fld (ctxHbmBound s c)))
  | _ => decide (q.dst + n ≤ 2 ^ 48)

/-- A descriptor ends with a stream fault. -/
def Dev.descFault (d : Dev) (q : Desc) (kind : Nat) : Dev := (d.lateStr q.issuer q.tag kind (d.descHandle q)).setDesc { q with err := true }

/-- A descriptor ends with a codec fault (R258). -/
def Dev.descCodec (d : Dev) (q : Desc) (kind : Nat) (packer : Bool) (h : BlockHdr) : Dev :=
  let d := d.cdcFault kind q.cluster packer h
  let d := if q.core < 144 then d.lateFault q.core q.set 3 q.bundle q.kern q.tag 4 kind 0 (d.core q.core).cycle else d
  d.setDesc { q with err := true }

/-- Whether the codec's read, or write, for a descriptor must wait at its home (R322, R327). -/
def Dev.codecReadWaits (d : Dev) (a n : Nat) : Bool := d.readWaits (a % 2 ^ 44) n
def Dev.codecWriteWaits (d : Dev) (a : Nat) (bs : List Byte) : Bool := d.writeWaits (a % 2 ^ 44) bs

/-- What an EXPAND descriptor's next header fails: a KIND (R258, R263). -/
def Dev.descKind (d : Dev) (q : Desc) (h : BlockHdr) : Option Nat :=
  if h.bad ∨ h.core ≠ 0 ∨ h.flags ≠ 0 then some 19
  else if h.index ≠ q.blocks then some 21
  else if d.staleGen q.ctx h then some 20
  else if q.len < q.moved + h.stored then some 18
  else none

/-- Store a decoded block of an EXPAND descriptor. -/
def Dev.expandStore (d : Dev) (k : Nat) (q : Desc) (h : BlockHdr) (data : List Byte) : Dev :=
  if d.dstRoom q (q.out + h.raw) = false then d.descFault q 6
  else match d.brdWrite q.tag (q.dst + q.out) data with
    | (d, false) => d.descFault q 7
    | (d, true) =>
      let d := (d.count F.CDC_X_OUT_BYTES h.raw).monitor 6 k h.raw
      d.setDesc { q with moved := q.moved + h.stored, out := q.out + h.raw, blocks := q.blocks + 1 }

/-- Decode and store a block of an EXPAND descriptor whose table is at hand; it has not begun while its destination waits. -/
def Dev.expandBody (d : Dev) (k : Nat) (q : Desc) (h : BlockHdr) (t : List Byte) : Dev :=
  match d.brdRead q.tag (q.src + q.moved + 16) (h.stored - 16) none with
  | (d', none) => d'.descFault q 7
  | (d', some body) =>
    let d' := (d'.count F.CDC_X_IN_BYTES h.stored).touchTable k q.ctx h t
    match decodeBody h t body with
    | .error e => d'.descCodec q e false h
    | .ok data => if d.codecWriteWaits (q.dst + q.out) data then d else d'.expandStore k q h data

/-- One block of an EXPAND descriptor. -/
def Dev.expandDesc (d : Dev) (k : Nat) (q : Desc) : Dev :=
  if d.codecReadWaits (q.src + q.moved) 16 then d
  else match d.brdRead q.tag (q.src + q.moved) 16 none with
    | (d', none) => d'.descFault q 7
    | (d', some hb) =>
      let h := blockHdr hb
      match d'.descKind q h with
      | some e => d'.descCodec q e false h
      | none =>
        if d.codecReadWaits (q.src + q.moved) h.stored then d
        else match d'.blockTable k q.ctx h with
          | none => d
          | some t => d'.expandBody k q h t

/-- BLOCK_EXPAND: an expander takes its next block: of its section, or with no section left of its oldest EXPAND descriptor. -/
def execBlockExpand (k : ClusterId) (s : State) : Out :=
  act s fun d =>
    match d.frontSec k with
    | some sec => d.expandBlock k sec
    | none => match d.frontDesc 3 k with
      | some q => d.expandDesc k q
      | none => d

/-! ## Packing (R260) -/

/-- Read a plan: entries until their bytes reach LEN; none when it is malformed (R260). -/
def planOf (len : Nat) : Nat → List Byte → Option (List (Nat × Nat × Nat))
  | 0, _ => if len = 0 then some [] else none
  | fuel + 1, bs =>
    if len = 0 then some []
    else
      let n := kNat bs 0 4
      let k := kNat bs 4 1
      let j := kNat bs 5 1
      if n = 0 ∨ 65536 < n ∨ len < n ∨ 12 ≤ k ∨ 12 ≤ j ∨ kNat bs 6 2 ≠ 0 then none
      else (planOf (len - n) fuel (bs.drop 8)).map ((n, k, j) :: ·)

/-- The entries of a plan in memory, read one at a time: bytes, and whether the plan could be read. -/
def Dev.readPlan (d : Dev) (tag a len : Nat) : Nat → Dev × Option (List Byte)
  | 0 => (d, some [])
  | fuel + 1 =>
    if len = 0 then (d, some [])
    else match d.memRead tag a 8 with
      | (d, none) => (d, none)
      | (d, some e) =>
        if kNat e 0 4 = 0 ∨ len < kNat e 0 4 then (d, some e)
        else match d.readPlan tag (a + 8) (len - kNat e 0 4) fuel with
          | (d, none) => (d, none)
          | (d, some es) => (d, some (e ++ es))

/-- Blocks of each cluster before one: the INDEX at which its section begins (R252). -/
def planBlocks (block : Nat) (plan : List (Nat × Nat × Nat)) (k : Nat) : Nat :=
  (plan.map fun t => if t.2.1 < k then ceilDiv t.1 block else 0).sum

/-- A section's bytes, and the blocks made for it. -/
def Pack.sec (p : Pack) (k : Nat) : List Byte := Store.get (fun _ => []) p.buf k
def Pack.cnt (p : Pack) (k : Nat) : Nat := Store.get (fun _ => 0) p.made k

/-- The sections laid out from an offset on: the directory entries and the body's bytes (R252). -/
def layout (p : Pack) : List Nat → Nat → List Byte × List Byte
  | [], _ => ([], [])
  | k :: ks, o =>
    let bs := p.sec k
    if p.cnt k = 0 then
      let (dir, body) := layout p ks o
      (zeros 8 ++ dir, body)
    else
      let o' := ceilDiv o 128 * 128
      let (dir, body) := layout p ks (o' + bs.length)
      (leBytes 4 o' ++ leBytes 4 (p.cnt k) ++ dir, zeros (o' - o) ++ bs ++ body)

/-- A spool body: directory and sections. -/
def Pack.body (p : Pack) (slot : Nat) : List Byte :=
  let (dir, body) := layout p (List.range 12) 128
  let head := dir ++ leBytes 2 (if p.cod = 0 then 0 else 2 ^ slot) ++ zeros 26
  head ++ leBytes 4 (crc32c head) ++ body

/-- The result record (R260). -/
def Pack.result (p : Pack) (len blocks : Nat) : List Byte :=
  leBytes 4 len ++ leBytes 4 blocks ++ leBytes 4 p.raw ++ leBytes 4 p.cod ++ leBytes 4 p.zero ++ zeros 12

/-- The output would pass DST_MAX: KIND 24, and what was written is open (R260). -/
def Dev.packOver (d : Dev) (q : Desc) (n : Nat) (h : BlockHdr) : Dev :=
  if d.codecWriteWaits q.dst (d.drawBytes n).1 then d
  else
    let (bs, d) := d.drawBytes n
    ((d.brdWrite q.tag q.dst bs).1).descCodec q 24 true h

/-- The end of packing: a spool body is written with its directory, then the result record, once neither waits at its home. -/
def Dev.packEnd (d : Dev) (q : Desc) (p : Pack) : Dev :=
  let body := p.body q.tmpl.slot
  let form := q.tmpl.form = 1
  let result := p.result (if form then body.length else q.out) q.blocks
  if form ∧ q.tmpl.dstMax < body.length then d.packOver q 0 ⟨0, 0, 0, 0, 0, 0, 0, q.blocks, 0, false⟩
  else if (decide form && d.codecWriteWaits q.dst body) || d.codecWriteWaits q.tmpl.result result then d
  else
    let (d, ok) := if form then d.brdWrite q.tag q.dst body else (d, true)
    if ok = false then d.descFault q 7
    else match d.memWrite q.tag q.tmpl.result result with
      | (d, false) => d.descFault q 7
      | (d, true) => d.setDesc { q with pack := some { p with done := true } }

/-- One block is made and stored. -/
def Dev.packOne (d : Dev) (q : Desc) (p : Pack) (table : Option (List Byte × Nat × Nat)) (bs : List Byte) : Dev :=
  let n := bs.length
  let block := 128 * q.tmpl.block
  let form := q.tmpl.form = 1
  let tile := p.tiles.headD (q.len, 0, 0)
  let ends := p.inTile + n = tile.1
  let flags := if form then b2n (p.inTile == 0) + 2 * b2n (decide ends) else 0
  let index := if form then planBlocks block p.plan tile.2.1 + p.cnt tile.2.1 else q.blocks
  let (h, st) := makeBlock table (if form then tile.2.2 else 0) flags index bs
  let p' := { p with raw := p.raw + b2n (h.mode == 0), cod := p.cod + b2n (h.mode == 1), zero := p.zero + b2n (h.mode == 2),
                     tiles := if form ∧ ends then p.tiles.drop 1 else p.tiles, inTile := if form ∧ !ends then p.inTile + n else 0,
                     buf := if form then Store.put (fun _ => []) p.buf tile.2.1 (p.sec tile.2.1 ++ st) else p.buf,
                     made := if form then Store.put (fun _ => 0) p.made tile.2.1 (p.cnt tile.2.1 + 1) else p.made }
  let size := if form then (p'.body 0).length else q.out + st.length
  if q.tmpl.dstMax < size then d.packOver q (if form then (p.body 0).length else q.out) h
  else if !(decide form) && d.codecWriteWaits (q.dst + q.out) st then d
  else
    let (d, ok) := if form then (d, true) else d.brdWrite q.tag (q.dst + q.out) st
    if ok = false then d.descFault q 7
    else
      let d := (d.count F.CDC_PACK_IN_BYTES n).count F.CDC_PACK_OUT_BYTES st.length
      let q' := { q with moved := q.moved + n, out := q.out + st.length, blocks := q.blocks + 1, pack := some p' }
      let d := d.setDesc q'
      if q.len ≤ q.moved + n then d.packEnd q' p' else d

/-- A PACK descriptor begins: with FORM 1 its plan is read, once no stack under repair holds part of it (R322); a malformed plan raises
KIND 2. -/
def Dev.packBegin (d : Dev) (q : Desc) : Dev × Option Pack :=
  let start : Pack := ⟨[], [], 0, [], [], 0, 0, 0, false⟩
  if q.tmpl.form = 0 then (d, some start)
  else match d.readPlan q.tag q.tmpl.plan q.len (q.len + 1) with
    | (d, none) => (d.descFault q 7, none)
    | (d', some es) =>
      if d.codecReadWaits q.tmpl.plan es.length then (d, none)
      else match planOf q.len (es.length / 8) es with
        | none => (d'.descFault q 2, none)
        | some plan => (d', some { start with plan := plan, tiles := plan })

/-- The bytes of a PACK descriptor's next block: at most BLOCK, and none beyond its tile. -/
def Desc.packLen (q : Desc) (p : Pack) : Nat :=
  min (128 * q.tmpl.block) (if q.tmpl.form = 1 then (p.tiles.headD (0, 0, 0)).1 - p.inTile else q.len - q.moved)

/-- Whether a block is coded where its table allows it (R243, R260). -/
def Dev.packCodes (d : Dev) (q : Desc) (bs : List Byte) : Bool :=
  !q.tmpl.rawOnly && d.fld (F.CDC_SLOT_GEN_STATE (tslot q.ctx q.tmpl.slot)) == 1 && decide (129 ≤ bs.length) && bs.any (· ≠ 0)

/-- The next block of a PACK descriptor is read and made, when its table is at hand if it needs one (R251). -/
def Dev.packNext (d : Dev) (k : Nat) (q : Desc) (p : Pack) : Dev :=
  let d := d.setDesc { q with pack := some p }
  let g := tslot q.ctx q.tmpl.slot
  if d.codecReadWaits (q.src + q.moved) (q.packLen p) then d
  else match d.brdRead q.tag (q.src + q.moved) (q.packLen p) none with
    | (d', none) => d'.descFault q 7
    | (d', some bs) =>
      if d.packCodes q bs then
        match d.heldTable (12 + k) g with
        | none => d
        | some t => (d'.holdTable (12 + k) g t).packOne q p (some (t, q.tmpl.slot, d.fld (F.CDC_SLOT_GEN_GEN g))) bs
      else d'.packOne q p none bs

/-- Whether a released tail block waits for the packer of a cluster: its spool is committed and its core's watermark covers it (R86, R261). -/
def Dev.tailWaits (d : Dev) (cluster : Nat) : Bool :=
  d.tethered && (List.range 6).any fun k => d.full k && (d.slot k).live && (List.range ((d.slotTail k).getD 0)).any fun b =>
    let g := 2 ^ d.fld (byDir (slotDir k) F.TTH_TAIL_CW_GROUP F.TTH_TAIL_CCW_GROUP)
    clusterOf (partialCore g b) == cluster && !((d.slot k).tailDone.contains b) && !(d.residWaits k b) && (d.partial_ (slotDir k) b).isSome

/-- PACK_BLOCK: a packer cuts and codes the next block of its oldest PACK descriptor; released tail blocks go before it (R261). -/
def execPackBlock (k : ClusterId) (s : State) : Out :=
  act s fun d =>
    match d.frontDesc 2 k with
    | none => d
    | some q =>
      if d.tailWaits k then d
      else match q.pack with
        | some p => if q.len ≤ q.moved then d.packEnd q p else d.packNext k q p
        | none => match d.packBegin q with
          | (d, none) => d
          | (d, some p) => if q.len ≤ q.moved then d.packEnd q p else d.packNext k q p

/-! ## Table fetches (R251) -/

/-- The table slot an expander's next block of a section needs: none for a block that is skipped or fails. -/
def Dev.sectionWants (d : Dev) (k : Nat) (s : Section) : Option Nat :=
  let h := d.nextHdr s
  let n := destCore k h.core
  if h.mode = 1 ∧ h.core < 12 ∧ d.skips s n = false ∧ d.blockKind s n h = none then some (tslot (d.fld F.CDC_CTRL_SPOOL_CTX) h.slot) else none

/-- The table slot the next block of an EXPAND descriptor needs. -/
def Dev.expandWants (d : Dev) (q : Desc) : Option Nat :=
  match (d.brdRead q.tag (q.src + q.moved) 16 none).2 with
  | none => none
  | some hb =>
    let h := blockHdr hb
    if h.mode = 1 ∧ d.descKind q h = none then some (tslot q.ctx h.slot) else none

/-- The table slot the next block of a PACK descriptor needs. -/
def Dev.packWants (d : Dev) (q : Desc) : Option Nat :=
  match q.pack with
  | none => none
  | some p =>
    if q.len ≤ q.moved then none
    else match (d.brdRead q.tag (q.src + q.moved) (q.packLen p) none).2 with
      | none => none
      | some bs => if d.packCodes q bs then some (tslot q.ctx q.tmpl.slot) else none

/-- The table slot a unit's next block needs (R251). -/
def Dev.wanted (d : Dev) (k : Nat) (packer : Bool) : Option Nat :=
  if packer then (d.frontDesc 2 k).bind d.packWants
  else match d.frontSec k with
    | some s => d.sectionWants k s
    | none => (d.frontDesc 3 k).bind d.expandWants

/-- TABLE_FETCH: an expander or packer fetches the valid table its next block needs and it does not hold; the wait of at most 1,024 cc is
counted. -/
def execTableFetch (k : ClusterId) (packer : Bool) (cc : Fin 1025) (s : State) : Out :=
  act s fun d =>
    let unit := if packer then 12 + k.val else k.val
    match d.wanted k packer with
    | none => d
    | some g =>
      if d.fld (F.CDC_SLOT_GEN_STATE g) ≠ 1 ∨ (d.heldTable unit g).isSome ∨ d.repairing (d.tableAt g) 128 then d
      else match d.hbmRead (d.tableAt g) 128 with
        | (d, none) => d
        | (d, some t) => ((d.holdTable unit g t).count F.CDC_MISS_CC_CC cc.val).raise F.CDC_EVENT_MISS k clsInfo

/-! ## Register writes (R264, R265) -/

/-- A write to the CDC block. -/
def Dev.writeCDC (d : Dev) (off v : Nat) : Dev :=
  let locked := d.raise F.CDC_EVENT_LOCKED_WRITE 0 clsInfo
  if off = R.CDC_TBL_CMD then d.writeTblCmd v
  else if off = R.CDC_SEED then d.cdcSeed v
  else if off = R.CDC_CTRL then
    (if d.bit F.TTH_STATUS_ACTIVE && F.CDC_CTRL_SPOOL_CTX.ofNat v != d.fld F.CDC_CTRL_SPOOL_CTX then locked.setFld F.CDC_CTRL_RING_FAULT v
     else d.plain off v)
  else if 0x31000 ≤ off ∧ off < 0x31480 then
    d.guarded (d.bit F.TTH_STATUS_ACTIVE) (decide (512 < (F.CDC_RING_TILE128 0).ofNat v)) F.CDC_EVENT_LOCKED_WRITE off fun d =>
      (d.plain off v).setXring ((off - 0x31000) / 8) ⟨0, none⟩
  else d.plain off v

end Sys2Proof.Machine
end

