-- ==== Sys2Proof/Machine/Tick.lean ====
section
/-! DEFINITION. The tick unit: master election, arming, start and stop, period, markers, missing markers, miss notices, slips, delay probes
and PTP (R22 to R51). Boundaries themselves are in Boundary. -/

namespace Sys2Proof.Machine

/-! ## Election (R26) -/

/-- The device's own candidate. -/
def Dev.ownCandidate (d : Dev) : Candidate :=
  ⟨d.fld F.TCK_CTRL_PRIORITY, (d.reg R.SEC_SERIAL).toNat % 2 ^ 48, d.fld F.LNK_COORD_X, d.fld F.LNK_COORD_Y⟩

/-- Whether one candidate is better than another: priority, then serial, then coordinate index, the lower each. -/
def candBetter (a b : Candidate) : Bool :=
  decide (a.prio < b.prio) || (a.prio == b.prio &&
    (decide (a.serial < b.serial) || (a.serial == b.serial && decide (128 * a.y + a.x < 128 * b.y + b.x))))

/-- Whether an election is in progress on the device. -/
def Dev.electing (d : Dev) : Bool := d.tick.best.isSome

/-- Adopt a candidate: the quiet time starts anew, and it goes out on every in-region port but one. -/
def Dev.adopt (d : Dev) (c : Candidate) (except : Nat) : Dev :=
  let d := { d with tick := { d.tick with best := some c, quietFrom := d.time } }
  d.flood except (.election (d.fld F.TCK_CTRL_DOMAIN_ID) c)

/-- The time base runs with another frequency correction from now on, without a step (R37). Times the device has yet to reach are counted in it. -/
def Dev.setPpb (d : Dev) (ppb : Int) : Dev :=
  let next := fun t => if t ≤ d.time then t
    else d.time + (t - d.time) * (1000000000 + d.tick.ppb).toNat / (1000000000 + ppb).toNat
  { d with tick := { d.tick with taiBase := d.taiUnits, taiFrom := d.time, ppb := ppb, unsent := d.tick.unsent.map fun p => (p.1, next p.2),
                                 predicted := d.tick.predicted.map next,
                                 fires := d.tick.fires.map fun f => { f with nom := next f.nom, at_ := d.edge (next f.nom) } } }

/-- Start an election: ELECTED and IS_MASTER clear, and the own candidate goes out (R26 steps 1 and 2). A device that is no master corrects
nothing. -/
def Dev.elect (d : Dev) : Dev :=
  if d.electing && d.tick.joined then d
  else
    let d := d.setPpb 0
    let d := (d.setFld F.TCK_STATUS_ELECTED 0).setFld F.TCK_CTRL_IS_MASTER 0
    ({ d with tick := { d.tick with joined := false } }).adopt d.ownCandidate 8

/-- ELECTION_MESSAGE (R26 step 3). -/
def execElectionMessage (p : PortId) (domain : BitVec 16) (c : Candidate) (s : State) : Out :=
  act s fun d =>
    if domain.toNat ≠ d.fld F.TCK_CTRL_DOMAIN_ID ∨ d.bit F.TCK_STATUS_ELECTED then d
    else match d.tick.best with
      | some b => if candBetter c b then d.adopt c p else d
      | none =>
        let d := { d with tick := { d.tick with joined := true } }
        if candBetter d.ownCandidate c then d.adopt d.ownCandidate 8 else d.adopt c p

/-- ELECTION_COMPLETE: the best candidate has not changed for 2 ms (R26 step 4). -/
def execElectionComplete (s : State) : Out :=
  act s fun d =>
    match d.tick.best with
    | none => d
    | some b =>
      let d := d.at_ (d.tick.quietFrom + 2000000 * nsUnits)
      let d := { d with tick := { d.tick with best := none, joined := false } }
      let d := d.setFld F.TCK_STATUS_ELECTED 1
      let d := d.setFld F.TCK_STATUS_MASTER_X b.x
      let d := d.setFld F.TCK_STATUS_MASTER_Y b.y
      d.setFld F.TCK_CTRL_IS_MASTER (b2n (b.x == d.fld F.LNK_COORD_X && b.y == d.fld F.LNK_COORD_Y))

/-! ## Running, armed, master -/

/-- Read the declared level of a schedule index (R419); an entry that cannot be read is free. -/
def Dev.readLevel (d : Dev) (i : Nat) : Dev :=
  if d.bit F.PWR_PROFILE_VALID = false then d
  else
    let a := d.fld F.PWR_PROFILE_BASE * 2 + 2 * (i % max 1 (d.fld F.PWR_PROFILE_LEN))
    let put := fun (d : Dev) (v : Nat) => { d with pwr := { d.pwr with levels := Store.put (fun _ => 0) d.pwr.levels i (v % 4096) } }
    match d.hbmRead a 2 with
    | (d, some bs) => put d (leNat bs)
    | (d, none) => let (w, d) := d.drawWord; put d w.toNat

/-- An announced start: the levels of its first eight indices are read (R419). -/
def Dev.startLevels (d : Dev) : Dev :=
  (List.range 8).foldl Dev.readLevel { d with pwr := { d.pwr with flat := false, levels := [] } }

/-- Schedule a boundary that a marker announces; with none before it, it is the next boundary. -/
def Dev.addFire (d : Dev) (f : Fire) : Dev :=
  let first := d.tick.fires.isEmpty
  let d := { d with tick := { d.tick with fires := d.tick.fires ++ [f], predicted := if first then some f.nom else d.tick.predicted } }
  let d := if f.start then d.startLevels else d
  if f.slip then d.setFld F.TCK_STATUS_SLIP_PENDING 1 else d

/-- Send a marker on every port of DOWN_MASK. -/
def Dev.markersDown (d : Dev) (m : Marker) : Dev :=
  (List.range 4).foldl (fun d p => if bitOf (d.fld F.TCK_CTRL_DOWN_MASK) p then d.send p (.marker m) else d) d

/-- The device is armed: fault reports count anew, and VL 0 carries frames again (R350, R351). -/
def Dev.armed (d : Dev) : Dev :=
  { d.setFld F.TCK_STATUS_STATE 1 with links := { d.links with faults := [], faultFrom := none, vl0Stop := false } }

/-! ## Firmware's messages along the tree (R39, R396) -/

/-- Whether firmware serves: GND_STATUS.STATE reads 3 or 4. -/
def Dev.serving (d : Dev) : Bool := d.fld F.GND_STATUS_STATE == 3 || d.fld F.GND_STATUS_STATE == 4

/-- Whether a component runs: its STATE reads 2 or 4. -/
def Dev.compUp (d : Dev) (c : Nat) : Bool := d.fld (F.GND_COMP_STATE c) == 2 || d.fld (F.GND_COMP_STATE c) == 4

/-- The tree port towards a device: the dimension-order port when it leads down the tree, else the one towards the master. -/
def Dev.treePort (d : Dev) (x y : Nat) : Nat :=
  let p := portToward (d.fld F.LNK_COORD_X) (d.fld F.LNK_COORD_Y) x y
  if bitOf (d.fld F.TCK_CTRL_DOWN_MASK) p then p else d.fld F.TCK_CTRL_UP_PORT

/-- Send a message one hop along the tree. -/
def Dev.fwSend (d : Dev) (port x y : Nat) (m : FwMsg) : Dev := { d with gnd := { d.gnd with sent := d.gnd.sent ++ [⟨port, x, y, m⟩] } }

/-- Send a message to the master's firmware. -/
def Dev.fwUp (d : Dev) (m : FwMsg) : Dev :=
  let x := d.fld F.TCK_STATUS_MASTER_X
  let y := d.fld F.TCK_STATUS_MASTER_Y
  d.fwSend (d.treePort x y) x y m

/-- A device other than the master is armed, and its firmware reports so to the master's (R39 step 2). -/
def Dev.armedReport (d : Dev) : Dev :=
  if d.serving then d.armed.fwUp (.armed (d.fld F.LNK_COORD_X) (d.fld F.LNK_COORD_Y)) else d.armed

/-! ## The master's start -/

/-- RUN = 1 on the master (R39): the start marker is sent, and tick TCK_START begins at the first edge LEAD_NS on. Until then STATE reads 1
(log 172). -/
def Dev.domainStart (d : Dev) : Dev :=
  let t := d.edge (d.time + d.baseNs (d.fld F.TCK_LEAD_LEAD_NS))
  let n := d.fld F.TCK_START_START
  let d := d.armed
  let d := { d with tick := { d.tick with fires := [], slips := [], slipLog := [], soft := none, gov := [], stopping := false,
                                          unsent := some (n + 1, t + d.baseNs (d.fld F.TCK_PERIOD_PERIOD_NS)) } }
  let d := d.addFire ⟨t, t, n, false, true, false, none⟩
  d.markersDown ⟨d.fld F.TCK_CTRL_DOMAIN_ID, n % 2 ^ 16, false, false, true, false, 0, 0⟩

/-! ## Writes of TCK_CTRL (R26, R39, R40) -/

/-- Reserved values of TCK_CTRL (R51). -/
def tckCtrlRsv (v : Nat) : Bool :=
  F.TCK_CTRL_GRACE_US.ofNat v == 0 || F.TCK_CTRL_SLIP_LAG.ofNat v == 0 ||
    (decide (4 ≤ F.TCK_CTRL_UP_PORT.ofNat v) && F.TCK_CTRL_UP_PORT.ofNat v != 15)

/-- A write of TCK_CTRL. On a master whose RUN reads 1, RUN = 0 stops its domain by the next marker not yet sent, also before the first
boundary (log 172). -/
def Dev.writeTckCtrl (d : Dev) (v : Nat) : Dev :=
  let run := bitOf v 0
  let was := d.bit F.TCK_CTRL_RUN
  let el := bitOf v 3
  let lock := d.tckRunning && (bitOf v 1 != d.bit F.TCK_CTRL_MODE || el || (run != was && !(d.master && !run)))
  d.guarded lock (tckCtrlRsv v) F.TCK_EVENT_LOCKED_WRITE R.TCK_CTRL fun d =>
    let d := d.plain R.TCK_CTRL v
    if d.master && was then
      let d := d.setFld F.TCK_CTRL_RUN 1
      if run then d else { d with tick := { d.tick with stopping := true } }
    else if run && !was then
      let d := { d with tick := { d.tick with fires := [], predicted := none, missItems := [] } }
      if d.master then d.domainStart else d.armedReport
    else
      let d := if was && !run && d.tckState == 1 then d.setFld F.TCK_STATUS_STATE 0 else d
      if el && !run then d.elect else d

/-- A write of TCK_CTRL with some bits forced. -/
def Dev.tckCtrlAs (d : Dev) (t : Tag) (v set clear : Word) : Dev :=
  d.fw t.toNat R.TCK_CTRL fun d => d.writeTckCtrl ((v ||| set) &&& ~~~clear).toNat

/-- ELECT (R26): a write with ELECT = 1 and RUN = 0. -/
def execElect (t : Tag) (v : Word) (s : State) : Out := act s fun d => d.tckCtrlAs t v 8 1
/-- ARM (R39): a write of RUN = 1; on a device other than the master it arms it. -/
def execArm (t : Tag) (v : Word) (s : State) : Out := act s fun d => d.tckCtrlAs t v 1 8
/-- DISARM (R40): a write of RUN = 0; it disarms an armed device. -/
def execDisarm (t : Tag) (v : Word) (s : State) : Out := act s fun d => d.tckCtrlAs t v 0 9
/-- DOMAIN_START (R39): a write of RUN = 1; on the master it starts the domain. -/
def execDomainStart (t : Tag) (v : Word) (s : State) : Out := act s fun d => d.tckCtrlAs t v 1 8
/-- DOMAIN_STOP (R40): a write of RUN = 0; on the master the first marker not yet sent stops the domain. -/
def execDomainStop (t : Tag) (v : Word) (s : State) : Out := act s fun d => d.tckCtrlAs t v 0 9

/-! ## Period (R22, R48 to R50) -/

/-- A write of TCK_PERIOD. -/
def Dev.writeTckPeriod (d : Dev) (v : Nat) : Dev :=
  let p := F.TCK_PERIOD_PERIOD_NS.ofNat v
  let run := d.tckRunning
  let high := decide (d.fld F.TCK_GOVERN_CEILING_NS < p)
  let lock := run && (!(d.bit F.TCK_CTRL_MODE) || !d.master || high)
  d.guarded lock (decide (p < 4000) || decide (1000000 < p) || (!run && high)) F.TCK_EVENT_LOCKED_WRITE R.TCK_PERIOD fun d =>
    let d := d.plain R.TCK_PERIOD v
    if run then { d with tick := { d.tick with soft := some p } } else d

/-- TCK_PERIOD_WRITE. -/
def execTckPeriodWrite (t : Tag) (v : Word) (s : State) : Out := act s fun d => d.fw t.toNat R.TCK_PERIOD fun d => d.writeTckPeriod v.toNat

/-- A write to the TCK block. -/
def Dev.writeTCK (d : Dev) (off v : Nat) : Dev :=
  if off = R.TCK_CTRL then d.writeTckCtrl v
  else if off = R.TCK_PERIOD then d.writeTckPeriod v
  else if off = R.TCK_GOVERN then
    let c := F.TCK_GOVERN_CEILING_NS.ofNat v
    if 1000000 < c ∨ c < d.fld F.TCK_PERIOD_PERIOD_NS ∨ F.TCK_GOVERN_WINDOW.ofNat v = 0 ∨ F.TCK_GOVERN_MISS_THRESH.ofNat v = 0 then
      d.rsvWrite off
    else d.plain off v
  else d.plain off v

/-- A period made 1% longer, up to CEILING_NS; one at or above the ceiling stays (R49, R50). -/
def Dev.lengthened (d : Dev) (p : Nat) : Nat :=
  let c := d.fld F.TCK_GOVERN_CEILING_NS
  if c ≤ p then p else min (ceilDiv (p * 101) 100) c

/-- The period that the marker of tick t will find: what software has written goes with the first marker not yet sent, and each marker that carries
a lengthening before lengthens it (R49, R50). -/
def Dev.periodBefore (d : Dev) (t : Nat) : Nat :=
  let first := (d.tick.unsent.map (·.1)).getD 0
  let longer := d.tick.gov.filter fun k => decide (k ≤ t) && (d.tick.soft.isNone || decide (first < k))
  longer.foldl (fun p _ => d.lengthened p) (d.tick.soft.getD d.plannedNs)

/-- GOVERNED_LENGTHENING: the slips counted within the window reach MISS_THRESH (R49), or the period is at its ceiling (R50). -/
def execGovernedLengthening (s : State) : Out :=
  act s fun d =>
    let now := d.fld F.TCK_NUMBER_NUMBER
    let n := (d.tick.slipLog.filter fun t => now < t + d.fld F.TCK_GOVERN_WINDOW).length
    if (d.master && d.tckRunning && d.bit F.TCK_CTRL_MODE) = false ∨ n < d.fld F.TCK_GOVERN_MISS_THRESH then d
    else
      let t := (d.tick.slips.getLast?).getD (now + 1)
      let p := d.periodBefore t
      let d := { d with tick := { d.tick with slipLog := [] } }
      if d.fld F.TCK_GOVERN_CEILING_NS ≤ p then d.raise F.TCK_EVENT_CEILING 0 clsInfo
      else { d with tick := { d.tick with gov := d.tick.gov ++ [t] } }

/-! ## Markers (R29 to R33) -/

/-- TICK_MARKER_SEND: the master sends the marker of its next boundary, LEAD_NS ahead of it, with its slip, stop and period flags. -/
def execTickMarkerSend (s : State) : Out :=
  act s fun d =>
    match d.tick.unsent with
    | none => d
    | some (n, t) =>
      if d.master = false then d
      else
        let d := d.at_ (t - d.baseNs (d.fld F.TCK_LEAD_LEAD_NS))
        let p := d.plannedNs
        let longer := (d.tick.gov.filter fun k => decide (k ≤ n)).foldl (fun p _ => d.lengthened p) p
        let want := d.tick.soft.getD longer
        let change := if want = p then none else some want
        let stop := d.tick.stopping
        let slip := d.tick.slips.contains n && !stop
        let d := { d with tick := { d.tick with soft := none, gov := d.tick.gov.filter fun k => decide (n < k),
                                                unsent := if stop then none else some (n + 1, t + d.baseNs (change.getD p)) } }
        let d := d.addFire ⟨d.edge t, t, n, slip, false, stop, change⟩
        d.markersDown ⟨d.fld F.TCK_CTRL_DOMAIN_ID, n % 2 ^ 16, slip, change.isSome, false, stop, change.getD 0, 0⟩

/-- The measured delay of a port's link, in units of 1/16 ns (R30). -/
def linkDelay (p : Nat) : Fld :=
  match p with
  | 0 => F.TCK_LINK_DELAY_NORTH
  | 1 => F.TCK_LINK_DELAY_EAST
  | 2 => F.TCK_LINK_DELAY_SOUTH
  | _ => F.TCK_LINK_DELAY_WEST

/-- TICK_MARKER: a marker arrives on a port; `residence` is the time the device holds it, in units of 1/16 ns. -/
def execTickMarker (p : PortId) (m : Marker) (residence : Nat) (s : State) : Out :=
  act s fun d =>
    let st := d.tckState
    let now := d.fld F.TCK_NUMBER_NUMBER
    let next := match d.tick.fires.getLast? with | some f => f.tick + 1 | none => now + 1
    if m.domain ≠ d.fld F.TCK_CTRL_DOMAIN_ID ∨ d.master then d
    else if (st = 1 ∧ m.start ∧ d.tick.fires.isEmpty) ∨ ((d.tckRunning ∨ (st = 1 ∧ !d.tick.fires.isEmpty)) ∧ !m.start ∧ m.tick % 2 ^ 16 = next % 2 ^ 16) then
      let delay := m.delay + d.fld (linkDelay p)
      let at_ := d.edge (d.time + d.fld F.TCK_LEAD_LEAD_NS * nsUnits - delay * 9)
      let pred := match d.tick.fires.getLast? with
        | some f => some (f.nom + d.baseNs d.plannedNs)
        | none => if st = 1 then none else d.tick.predicted
      let gone := match pred with | some t => decide (t + d.fld F.TCK_CTRL_GRACE_US * 1000 * nsUnits < d.time) | none => false
      if gone then d
      else
        let late := decide (d.time + d.fld F.TCK_LEAD_LEAD_NS * nsUnits < d.time + delay * 9) ||
          (match pred with | some t => decide (t < d.time) | none => false)
        let tick := if m.start then d.fld F.TCK_START_START else next
        let f : Fire := if late then ⟨d.edge d.time, pred.getD (d.edge d.time), tick, m.slip, m.start, m.stop, if m.change then some m.period else none⟩
          else ⟨at_, at_, tick, m.slip, m.start, m.stop, if m.change then some m.period else none⟩
        let d := d.addFire f
        let d := if late then d.raise F.TCK_EVENT_MARKER_LATE 0 clsInfo else d
        d.markersDown { m with delay := delay + residence }
    else d

/-- MARKER_MISSING: GRACE_US have passed since the predicted boundary with no marker (R33). -/
def execMarkerMissing (s : State) : Out :=
  act s fun d =>
    match d.tick.predicted with
    | none => d
    | some t =>
      if d.tckRunning = false ∨ d.master ∨ !d.tick.fires.isEmpty then d
      else
        let d := d.at_ (t + d.fld F.TCK_CTRL_GRACE_US * 1000 * nsUnits)
        (d.raise F.TCK_EVENT_MARKER_MISSING 0 clsRing).pullRipcord 2

/-! ## Misses and slips (R44, R45, R47) -/

/-- The master learns of a miss of tick t: it absorbs the notice, or sets the slip flag SLIP_LAG ticks on, or in the first unsent marker. -/
def Dev.masterNotice (d : Dev) (t : Nat) : Dev :=
  match d.tick.unsent with
  | none => d
  | some (n, _) =>
    let target := max (t + d.fld F.TCK_CTRL_SLIP_LAG) n
    if d.tick.slips.any (fun k => decide (t < k) && decide (k ≤ target)) then d
    else { d with tick := { d.tick with slips := d.tick.slips ++ [target], slipLog := d.tick.slipLog ++ [d.fld F.TCK_NUMBER_NUMBER] } }

/-- Send or handle a miss notice: the master acts on it, another device sends it up the tree (R42, R44). -/
def Dev.missNotice (d : Dev) (tick sources : Nat) : Dev :=
  if d.master then
    let now := d.fld F.TCK_NUMBER_NUMBER
    d.masterNotice (now - (now + 2 ^ 32 - tick % 2 ^ 32) % 2 ^ 32)
  else if d.fld F.TCK_CTRL_UP_PORT = 15 then d
  else d.send (d.fld F.TCK_CTRL_UP_PORT) (.missNotice (d.fld F.TCK_CTRL_DOMAIN_ID) (tick % 2 ^ 32) sources)

/-- MISS_NOTICE: a notice arrives from a port (R44, R45). -/
def execMissNotice (_p : PortId) (domain : BitVec 16) (tick : BitVec 32) (sources : BitVec 7) (s : State) : Out :=
  act s fun d =>
    if domain.toNat ≠ d.fld F.TCK_CTRL_DOMAIN_ID ∨ d.tckRunning = false then d else d.missNotice tick.toNat sources.toNat

/-- SLIP_LIMIT: slip flags are set for 8 of 16 consecutive ticks (R47). -/
def execSlipLimit (s : State) : Out :=
  act s fun d =>
    let tooMany := d.tick.slips.any fun t => decide (8 ≤ (d.tick.slips.filter fun k => decide (t ≤ k) && decide (k < t + 16)).length)
    if d.master && d.tckRunning && tooMany then (d.raise F.TCK_EVENT_SLIP_LIMIT 0 clsRing).pullRipcord 3 else d

/-! ## Delay probes (R30) -/

/-- Device time in units of 1/16 ns. -/
def Dev.time16 (d : Dev) : Nat := d.time / 9

/-- DELAY_PROBE: a port sends a probe with its own time. -/
def execDelayProbe (p : PortId) (s : State) : Out :=
  act s fun d => d.send p (.probe (d.time16 % 2 ^ 48))

/-- PROBE_RECEIVED: the device answers with the echoed time and its turnaround. -/
def execProbeReceived (p : PortId) (time : BitVec 48) (turnaround : BitVec 32) (s : State) : Out :=
  act s fun d => d.send p (.probeReply time.toNat turnaround.toNat)

/-- PROBE_REPLY: half the round trip, less the peer's turnaround, is the link's delay; the field holds at most 0xFFFF (log 19). -/
def execProbeReply (p : PortId) (time : BitVec 48) (turnaround : BitVec 32) (s : State) : Out :=
  act s fun d =>
    let trip := (d.time16 + 2 ^ 48 - time.toNat) % 2 ^ 48
    d.setFld (linkDelay p) (min 0xFFFF ((trip - turnaround.toNat) / 2))

/-! ## PTP (R36, R37) -/

/-- The end of an exchange: the master's time base differs from TAI by `offset` ns. With RUN = 0 it steps; with RUN = 1 its frequency alone moves
toward TAI, within 50 ppm, by an amount the manual does not state (log 173). -/
def Dev.ptpSteer (d : Dev) (offset : Int) : Dev :=
  let d := d.setFld F.TCK_STATUS_PTP_LOCK 1
  if d.bit F.TCK_CTRL_RUN then
    let (w, d) := d.drawWord
    let room := if 0 < offset then 50000 + d.tick.ppb else 50000 - d.tick.ppb
    let move : Int := (w.toNat % (room.toNat + 1) : Nat)
    if offset = 0 then d else d.setPpb (if 0 < offset then d.tick.ppb - move else d.tick.ppb + move)
  else
    { d with tick := { d.tick with taiBase := ((d.taiUnits : Int) - offset * nsUnits).toNat, taiFrom := d.time } }

/-- A Sync whose time t1 is known is answered with a Delay_Req, by the transport it came over; t3 is the time the port sends it. -/
def Dev.delayReq (d : Dev) (e : Ptp) : Dev :=
  ({ d with tick := { d.tick with ptp := some { e with req := some (e.seq, d.tai) } } }).emit (.delayReq e.v6 e.seq)

/-- PTP_MESSAGE: the master is an ordinary clock that follows one-step and two-step masters by the delay request–response mechanism, with time
stamps in ns taken at the port (R36). -/
def execPtpMessage (seq : Nat) (m : PtpMsg) (s : State) : Out :=
  act s fun d =>
    if d.master = false ∨ d.fld F.ETH_STATUS_LINK ≠ 2 then d
    else match m, d.tick.ptp with
      | .sync v6 two t1 corr, _ =>
        let e : Ptp := ⟨v6, seq, if two then none else some (t1 + corr), d.tai, none⟩
        if two then { d with tick := { d.tick with ptp := some e } } else d.delayReq e
      | .followUp t1 corr, some e =>
        if e.seq = seq ∧ e.t1 = none then d.delayReq { e with t1 := some (t1 + corr) } else d
      | .delayResp t4 corr, some e =>
        match e.t1, e.req with
        | some t1, some (n, t3) =>
          if n = seq then ({ d with tick := { d.tick with ptp := none } }).ptpSteer (((e.t2 - t1) - ((t4 : Int) - corr - t3)) / 2) else d
        | _, _ => d
      | _, _ => d

/-- PTP_LOSS (R37): the time base runs on with the correction it has. -/
def execPtpLoss (s : State) : Out :=
  act s fun d =>
    if d.bit F.TCK_STATUS_PTP_LOCK then (d.setFld F.TCK_STATUS_PTP_LOCK 0).raise F.TCK_EVENT_PTP_LOSS 0 clsInfo else d

end Sys2Proof.Machine
end

