-- ==== Sys2Proof/Machine/Link.lean ====
section
/-! DEFINITION. Zifanar ports: training, frames, credits and retry, loss, ripcords and fault reports, and the writes of the LNK registers
(R338 to R353, R357, R385, R440). -/

namespace Sys2Proof.Machine

/-! ## Frames (R342, R344, R385) -/

/-- Order of the short messages that wait (R344). -/
def shortRank : ShortMsg → Nat
  | .ripcord _ _ _ _ _ => 0
  | .marker _ => 1
  | .missNotice _ _ _ => 2
  | .faultReport _ _ _ _ => 3
  | .election _ _ => 4
  | .probe _ => 5
  | .probeReply _ _ => 6

/-- Coordinates as messages code them. -/
def xyWord (x y : Nat) : Nat := x % 128 + y % 64 * 256

/-- The 12 bytes of a short message (Table 3). -/
def shortBytes : ShortMsg → List Byte
  | .marker m =>
    leBytes 1 1 ++ leBytes 2 m.domain ++ leBytes 2 m.tick ++ leBytes 1 (b2n m.slip + 2 * b2n m.change + 4 * b2n m.start + 8 * b2n m.stop) ++
      leBytes 3 (m.period % 2 ^ 20) ++ leBytes 3 m.delay
  | .missNotice dom t src => leBytes 1 2 ++ leBytes 2 dom ++ leBytes 4 t ++ leBytes 1 src ++ zeros 4
  | .ripcord dom cause x y ser => leBytes 1 3 ++ leBytes 2 dom ++ leBytes 1 cause ++ leBytes 2 (xyWord x y) ++ leBytes 2 ser ++ zeros 4
  | .faultReport dom x y cause => leBytes 1 4 ++ leBytes 2 dom ++ leBytes 2 (xyWord x y) ++ leBytes 1 cause ++ zeros 6
  | .probe t => leBytes 1 5 ++ leBytes 6 t ++ zeros 5
  | .probeReply t turn => leBytes 1 6 ++ leBytes 6 t ++ leBytes 4 turn ++ zeros 1
  | .election dom c => leBytes 1 7 ++ leBytes 2 dom ++ leBytes 1 c.prio ++ leBytes 1 (c.x % 128) ++ leBytes 1 (c.y % 64) ++ leBytes 6 c.serial

/-- The first 20 bytes of a frame. -/
def Frame.head (f : Frame) : List Byte :=
  leBytes 1 f.vl ++ leBytes 1 f.len ++ leBytes 2 (f.ctr % 65536) ++ leBytes 2 f.ack ++ leBytes 1 (f.creditVl + 128 * b2n f.replay) ++
    leBytes 1 f.credit ++ ((f.short.map shortBytes).getD (zeros 12))

/-- The 10,280 bytes of a frame as sent, under a direction's key and salt (R342, R385). -/
def Frame.wire (f : Frame) (key : List Byte) : List Byte :=
  let nonce := (key.drop 32).take 4 ++ leBytes 8 f.ctr
  let plain := (f.payload ++ zeros 10240).take 10240
  let body := f.head ++ Config.gcmEncrypt (key.take 32) nonce f.head plain
  body ++ leBytes 4 (crc32 body) ++ Config.gcmTag (key.take 32) nonce f.head plain

/-! ## Sending (R55, R69, R343, R345) -/

/-- The first waiting short message by rank, and the others. -/
def pickShort (ms : List ShortMsg) : Option ShortMsg × List ShortMsg :=
  match ms with
  | [] => (none, [])
  | m :: rest =>
    let best := rest.foldl (fun b x => if shortRank x < shortRank b then x else b) m
    (some best, ms.erase best)

/-- Credits of a lane, and a change to them. -/
def Port.credit (q : Port) (vl : Nat) : Nat := Store.get (fun _ => 0) q.credits vl
def Port.setCredit (q : Port) (vl n : Nat) : Port := { q with credits := Store.put (fun _ => 0) q.credits vl n }
def Port.freedOf (q : Port) (vl : Nat) : Nat := Store.get (fun _ => 0) q.freed vl
def Port.setFreed (q : Port) (vl n : Nat) : Port := { q with freed := Store.put (fun _ => 0) q.freed vl n }

/-- The direction that leaves on a port. -/
def Dev.leaving (d : Dev) (p : Nat) : Option Nat := if d.outPort 0 = p then some 0 else if d.outPort 1 = p then some 1 else none

/-- Show that a direction's forwarding waits for credit, or no longer does; its time is added to TTH_WAIT. -/
def Dev.fwdWait (d : Dev) (p : Nat) (w : Bool) : Dev :=
  match d.leaving p with
  | none => d
  | some dir =>
    let q := d.port p
    let f := if dir = 0 then F.TTH_STATUS_FWD_WAIT_CW else F.TTH_STATUS_FWD_WAIT_CCW
    if w then (d.setPort p { q with waitFrom := some (q.waitFrom.getD d.time) }).setFld f 1
    else ((d.waited q.waitFrom).setPort p { q with waitFrom := none }).setFld f 0

/-- The payload item a new frame takes: ring payload first, and nothing else while it waits; otherwise the oldest item whose lane has a credit. -/
def Dev.pickItem (d : Dev) (p : Nat) : Option Payload :=
  let q := d.port p
  match q.lanes.find? (·.vl == 0) with
  | some x =>
    if d.links.vl0Stop then q.lanes.find? fun x => x.vl != 0 && decide (0 < q.credit x.vl)
    else if q.credit 0 = 0 then none else some x
  | none => q.lanes.find? fun x => decide (0 < q.credit x.vl)

/-- Take at most 10,240 bytes of an item: the bytes, and the lanes left. -/
def Dev.takeItem (d : Dev) (p : Nat) (x : Payload) : List Byte × List Payload :=
  let q := d.port p
  let own := !x.bytes.isEmpty
  let n := min 10240 (if own then x.bytes.length else x.len)
  let bs := if own then x.bytes.take n else d.rd x.addr n
  let rest : Payload := { x with bytes := x.bytes.drop n, addr := x.addr + n, len := x.len - n }
  let whole := if own then x.bytes.length ≤ n else x.len ≤ n
  (bs, if whole then q.lanes.erase x else q.lanes.map fun y => if y = x then rest else y)

/-- A new frame is made and sent. -/
def Dev.newFrame (d : Dev) (p : Nat) : Dev :=
  let waits := (d.port p).lanes.any (·.vl == 0) && !d.links.vl0Stop && (d.port p).credit 0 == 0
  let d := d.fwdWait p waits
  let q := d.port p
  let (short, shorts) := pickShort q.shorts
  let cvl := ((List.range 8).find? fun v => decide (0 < q.freedOf v)).getD 0
  let cr := min 255 (q.freedOf cvl)
  let (vl, bs, lanes) := match d.pickItem p with
    | some x => let (bs, l) := d.takeItem p x; (x.vl, bs, l)
    | none => (0, [], q.lanes)
  let f : Frame := ⟨vl, ceilDiv bs.length 64, q.txCtr, (q.rxCtr + 65535) % 65536, cvl, q.wantReplay, cr, short, bs⟩
  let q := { q with txCtr := q.txCtr + 1, unacked := q.unacked ++ [f], wantReplay := false, shorts := shorts, lanes := lanes }
  let q := q.setFreed cvl (q.freedOf cvl - cr)
  let q := if bs.isEmpty then q else q.setCredit vl (q.credit vl - 1)
  (d.setPort p q).count (F.LNK_FRAMES_TX_COUNT p) 1

/-- FRAME_SEND: a resent frame, or a new one while fewer than 128 are unacknowledged. -/
def execFrameSend (p : PortId) (s : State) : Out :=
  act s fun d =>
    let q := d.port p
    if d.up p = false then d
    else match q.resend with
      | _ :: rest => (d.setPort p { q with resend := rest }).count (F.LNK_FRAMES_TX_COUNT p) 1
      | [] => if 128 ≤ q.unacked.length then d else d.newFrame p

/-! ## Receiving (R345, R350) -/

/-- Request a replay: REPLAYS counts once for each request. -/
def Dev.requestReplay (d : Dev) (p : Nat) : Dev :=
  let d := d.setPort p { d.port p with wantReplay := true, awaiting := true }
  let d := d.countErr (F.LNK_ERR_COUNT2_REPLAYS p) (F.LNK_EVENT_COUNT_SAT p) p
  (d.raise (F.LNK_EVENT_REPLAY p) p clsCorrected).monitor 14 p 1

/-- Frames not yet acknowledged after an ACK. -/
def ackDrop (ack : Nat) (fs : List Frame) : List Frame :=
  match fs.findIdx? fun f => f.ctr % 65536 == ack with
  | some i => fs.drop (i + 1)
  | none => fs

/-- What an accepted frame says of acknowledgement, replay and credit. -/
def Dev.frameControl (d : Dev) (p ack creditVl credit : Nat) (replay : Bool) : Dev :=
  let q := d.port p
  let left := ackDrop ack q.unacked
  let q := { q with resends := if left.length < q.unacked.length then 0 else q.resends, unacked := left }
  let q := q.setCredit creditVl (q.credit creditVl + credit)
  if replay then (d.setPort p { q with resend := left, resends := q.resends + 1 }).raise (F.LNK_EVENT_REPLAY p) p clsCorrected
  else d.setPort p q

/-- Receive buffers of an accepted frame: freed at once, but on VL 0 held for the slot its payload goes to until that has drained (R69). -/
def Dev.frameBuffer (d : Dev) (p vl : Nat) : Dev :=
  let q := d.port p
  match if vl = 0 && !d.links.vl0Stop then d.arrivalSlot p else none with
  | some (k, true) => d.setSlot k { d.slot k with frames := (d.slot k).frames + 1 }
  | some (k, false) => d.setSlot k { d.slot k with next := (d.slot k).next + 1 }
  | none => d.setPort p (q.setFreed vl (q.freedOf vl + 1))

/-- FRAME_RECEIVED (R345): what its checks found, how many codewords were corrected, and its control fields. Its payload and its short message
act through their own commands (log 23). -/
def execFrameReceived (p : PortId) (decoded crc tag : Bool) (fec : Nat) (seq ack : BitVec 16) (vl : Fin 5) (cells : Nat) (creditVl : BitVec 3)
    (credit : BitVec 8) (replay : Bool) (s : State) : Out :=
  act s fun d =>
    if d.up p = false then d
    else
      let d := d.count (F.LNK_FEC_CW_COUNT p) fec
      let sat := F.LNK_EVENT_COUNT_SAT p
      if decoded = false then (d.countErr (F.LNK_ERR_COUNT_UNCORR p) sat p).requestReplay p
      else if crc = false then (d.countErr (F.LNK_ERR_COUNT_CRC p) sat p).requestReplay p
      else if tag = false then
        ((d.countErr (F.LNK_ERR_COUNT2_TAG p) sat p).raise (F.LNK_EVENT_TAG p) p clsCorrected).requestReplay p
      else if seq.toNat ≠ (d.port p).rxCtr % 65536 then (if (d.port p).awaiting then d else d.requestReplay p)
      else
        let q := d.port p
        let d := d.setPort p { q with rxCtr := q.rxCtr + 1, awaiting := false, lastAccept := d.time }
        let d := (d.count (F.LNK_FRAMES_RX_COUNT p) 1).monitor 13 p 1
        let d := d.frameControl p ack.toNat creditVl.toNat credit.toNat replay
        if cells = 0 then d else d.frameBuffer p vl

/-! ## Training (R338, R347) -/

/-- A port's state. -/
def Dev.portState (d : Dev) (p : Nat) : Nat := d.fld (F.LNK_PSTATUS_STATE p)

/-- A port leaves its work: link keys are erased, and every frame it holds is discarded (R350, R385). Its buffers are free anew once it is Up. -/
def Dev.portClear (d : Dev) (p : Nat) : Dev :=
  let d := d.setPort p { Port.reset with enabledAt := (d.port p).enabledAt }
  { d with ring := { d.ring with slots := d.ring.slots.map fun e =>
      (e.1, if d.inPort (slotDir e.1) = p then { e.2 with frames := 0, next := 0 } else e.2) } }

/-- A write of LNK_PCTRL: setting ENABLE trains the port, clearing it disables it. -/
def Dev.writePctrl (d : Dev) (p v : Nat) : Dev :=
  let was := d.bit (F.LNK_PCTRL_ENABLE p)
  let d := d.plain (R.LNK_PCTRL p) v
  if bitOf v 0 && !was then
    let d := (d.portClear p).setFld (F.LNK_PSTATUS_STATE p) 1
    d.setPort p { d.port p with enabledAt := d.time }
  else if was && !bitOf v 0 then (d.portClear p).setFld (F.LNK_PSTATUS_STATE p) 0
  else d

/-- PORT_ENABLE (R347): a write of LNK_PCTRL with ENABLE = 1. -/
def execPortEnable (t : Tag) (p : PortId) (v : Word) (s : State) : Out :=
  act s fun d => d.fw t.toNat (R.LNK_PCTRL p) fun d => d.writePctrl p (v ||| 1).toNat

/-- TRAINING_COMPLETE: all lanes have passed; the lane of least margin and its margin are recorded. Without the reference clock no port trains
(R461). -/
def execTrainingComplete (p : PortId) (lane : BitVec 4) (margin : BitVec 16) (s : State) : Out :=
  act s fun d =>
    if d.portState p ≠ 1 ∨ d.pwr.refClk = false then d
    else ((d.setFld (F.LNK_MARGIN_LANE p) lane.toNat).setFld (F.LNK_MARGIN_MARGIN p) margin.toNat).setFld (F.LNK_PSTATUS_STATE p) 2

/-- The port that a port meets (R338). -/
def opposite (p : Nat) : Nat := (p + 2) % 4

/-- NEGOTIATION: the peer's serial, position, VALID and versions, as major × 256 + minor; the port proceeds to Keying with a fresh key pair, or
ends Failed or Miswired. -/
def execNegotiation (p : PortId) (serial : Word) (x : BitVec 7) (y : BitVec 6) (port : BitVec 2) (valid : Bool) (lo hi : BitVec 16)
    (s : State) : Out :=
  act s fun d =>
    if d.portState p ≠ 2 then d
    else
      let d := d.setFld (F.LNK_PEER_ID_SERIAL p) serial.toNat
      let d := ((d.setFld (F.LNK_PEER_POS_X p) x.toNat).setFld (F.LNK_PEER_POS_Y p) y.toNat).setFld (F.LNK_PEER_POS_PORT p) port.toNat
      let best := min hi.toNat 0x102
      if best < max lo.toNat 0x100 then (d.setFld (F.LNK_PSTATUS_STATE p) 7).raise (F.LNK_EVENT_VERSION p) p clsContained
      else if d.bit (F.LNK_PCTRL_CHECK_PEER p) && (d.neighbour p != some (x.toNat, y.toNat) || port.toNat != opposite p || !valid ||
          !(d.bit F.LNK_COORD_VALID)) then
        (d.setFld (F.LNK_PSTATUS_STATE p) 6).raise (F.LNK_EVENT_MISWIRED p) p clsContained
      else
        let d := (d.setFld (F.LNK_PSTATUS_VER_MAJOR p) (best / 256)).setFld (F.LNK_PSTATUS_VER_MINOR p) (best % 256)
        let (k, d) := d.drawBytes 56
        (d.setFld (F.LNK_PSTATUS_STATE p) 3).setPort p { d.port p with ephemeral := k }

/-- A port reaches Up: frame counters start at 0, and every lane's buffers are free (R343, R385). -/
def Dev.portUp (d : Dev) (p : Nat) (keyTx keyRx : List Byte) : Dev :=
  let q : Port := { Port.reset with enabledAt := (d.port p).enabledAt, lastAccept := d.time, keyTx := keyTx, keyRx := keyRx }
  let q := (List.range 5).foldl (fun (q : Port) v => q.setFreed v (Config.laneBuffers v)) q
  ((d.setPort p q).setFld (F.LNK_PSTATUS_STATE p) 4).raise (F.LNK_EVENT_UP p) p clsInfo

/-- TRAINING_TIMEOUT: 20 ms after ENABLE the port is not Up. -/
def execTrainingTimeout (p : PortId) (s : State) : Out :=
  act s fun d =>
    let st := d.portState p
    if st = 1 ∨ st = 2 ∨ st = 3 then
      let d := d.at_ ((d.port p).enabledAt + 20000000 * nsUnits)
      ((d.portClear p).setFld (F.LNK_PSTATUS_STATE p) 7).raise (F.LNK_EVENT_TRAIN_FAIL p) p clsContained
    else d

/-! ## Ripcords and fault reports (R349, R351, R440) -/

/-- A fault report naming a device that no report has named since the device was armed: it joins the fault set and goes on (R351, R355). -/
def Dev.faultReport (d : Dev) (except x y cause : Nat) : Dev :=
  if d.links.faults.contains (x, y) then d
  else
    let late := match d.links.faultFrom with
      | some t => decide (t + d.fld F.LNK_CTRL_FAULT_WAIT * 1000 * nsUnits < d.time)
      | none => false
    let d := { d with links := { d.links with faults := d.links.faults ++ [(x, y)], faultFrom := if late then some d.time else d.links.faultFrom } }
    d.flood except (.faultReport (d.fld F.LNK_REGION_DOMAIN_ID) x y cause)

/-- RIPCORD (R351, R440, R441). -/
def execRipcord (p : PortId) (domain : BitVec 16) (cause : BitVec 8) (x : BitVec 7) (y : BitVec 6) (serial : BitVec 16) (s : State) : Out :=
  act s fun d =>
    if d.up p = false ∨ domain.toNat ≠ d.fld F.LNK_REGION_DOMAIN_ID ∨ d.links.seen.contains (x.toNat, y.toNat, serial.toNat) then d
    else
      let d := d.raise F.LNK_DEV_EVENT_RIPCORD_SEEN 0 clsRing
      let d := d.flood p (.ripcord domain.toNat cause.toNat x.toNat y.toNat serial.toNat)
      d.ripcordAct cause.toNat x.toNat y.toNat serial.toNat

/-- FAULT_REPORT (R351). -/
def execFaultReport (p : PortId) (domain : BitVec 16) (x : BitVec 7) (y : BitVec 6) (cause : BitVec 8) (s : State) : Out :=
  act s fun d =>
    if d.up p = false ∨ domain.toNat ≠ d.fld F.LNK_REGION_DOMAIN_ID then d else d.faultReport p x.toNat y.toNat cause.toNat

/-- A write of TEL_RIPCORD_PULL. -/
def Dev.writePull (d : Dev) (v : Nat) : Dev := if bitOf v 0 then d.pullRipcord 13 else d

/-- TEL_RIPCORD_PULL (R440). -/
def execTelRipcordPull (t : Tag) (v : Word) (s : State) : Out :=
  act s fun d => d.fw t.toNat R.TEL_RIPCORD_PULL fun d => d.writePull (v ||| 1).toNat

/-! ## Loss (R346, R349, R350) -/

/-- Where a request that has left the device goes: to a device of the board, or to the target of a far aperture. -/
def Dev.target (d : Dev) (r : Req) : Nat × Nat :=
  if r.addr / 2 ^ 44 = d.slotNo then
    (d.fld (F.DEV_APER_X ((r.addr % 2 ^ 44 - farBase) / 2 ^ 34)), d.fld (F.DEV_APER_Y ((r.addr % 2 ^ 44 - farBase) / 2 ^ 34)))
  else d.boardXY (r.addr / 2 ^ 44 % 16)

/-- The first port of the route a request to another device took. -/
def Dev.tookPort (d : Dev) (r : Req) (p : Nat) : Bool :=
  let (tx, ty) := d.target r
  let i := 128 * ty + tx
  let to_ := fun x y => portToward (d.fld F.LNK_COORD_X) (d.fld F.LNK_COORD_Y) x y == p
  r.away && (if d.fld (F.LNK_ROUTE_DATA_MODE i) = 1 then to_ (d.fld (F.LNK_ROUTE_DATA_VIA_X i)) (d.fld (F.LNK_ROUTE_DATA_VIA_Y i)) else to_ tx ty)

/-- A port is lost: Lost and its event; requests routed through it answer with an error; an in-region loss pulls the ripcord and floods a report. -/
def Dev.losePort (d : Dev) (p : Nat) : Dev :=
  let inReg := d.portIn p
  let d := (d.portClear p).setFld (F.LNK_PSTATUS_STATE p) 5
  let d := d.raise (F.LNK_EVENT_LOST p) p (if inReg then clsRing else clsContained)
  let gone := d.home.reqs.filter fun r => d.tookPort r p
  let d := gone.foldl (fun d r => (d.unwait r.id).respond r 0 true) d
  match inReg, d.neighbour p with
  | true, some (x, y) => (d.pullRipcord 1).faultReport 8 x y 1
  | _, _ => d

/-- LINK_LOSS: no frame has been accepted for LOSS_US. -/
def execLinkLoss (p : PortId) (s : State) : Out :=
  act s fun d =>
    if d.up p = false then d
    else (d.at_ ((d.port p).lastAccept + d.fld F.LNK_CTRL_LOSS_US * 1000 * nsUnits)).losePort p

/-- REPLAY_LIMIT: one frame has been resent REPLAY_MAX times without acknowledgement. -/
def execReplayLimit (p : PortId) (s : State) : Out :=
  act s fun d => if d.up p && decide (d.fld F.LNK_CTRL_REPLAY_MAX ≤ (d.port p).resends) then d.losePort p else d

/-! ## Register writes (R339, R352, R357) -/

/-- Whether routes are fixed: the domain is armed or runs (R352). -/
def Dev.routesFixed (d : Dev) : Bool := d.tckState == 1 || d.tckState == 2 || d.tckState == 3

/-- A write of LNK_COORD. -/
def Dev.writeCoord (d : Dev) (v : Nat) : Dev :=
  if d.routesFixed then d.raise F.LNK_DEV_EVENT_LOCKED_WRITE 0 clsInfo
  else if bitOf v 63 && d.slotNo != 4 * (F.LNK_COORD_Y.ofNat v % 4) + F.LNK_COORD_X.ofNat v % 4 then
    d.raise F.LNK_DEV_EVENT_CONFIG_ERR 0 clsInfo
  else d.plain R.LNK_COORD v

/-- COORD_WRITE (R339): a write of LNK_COORD with VALID = 1. -/
def execCoordWrite (t : Tag) (v : Word) (s : State) : Out :=
  act s fun d => d.fw t.toNat R.LNK_COORD fun d => d.writeCoord (v ||| 0x8000000000000000).toNat

/-- A write to the LNK block. -/
def Dev.writeLNK (d : Dev) (off v : Nat) : Dev :=
  let locked := d.raise F.LNK_DEV_EVENT_LOCKED_WRITE 0 clsInfo
  if off = R.LNK_CTRL then
    let us := F.LNK_CTRL_LOSS_US.ofNat v
    if F.LNK_CTRL_FAULT_WAIT.ofNat v = 0 ∨ us = 0 ∨ 9 < us ∨ F.LNK_CTRL_REPLAY_MAX.ofNat v = 0 then d.rsvWrite off else d.plain off v
  else if off = R.LNK_COORD then d.writeCoord v
  else if off = R.LNK_REGION then (if d.routesFixed then locked else d.plain off v)
  else if off = 0x20020 then
    d.guarded d.routesFixed (v / 2 ^ 14 % 4 == 3) F.LNK_DEV_EVENT_LOCKED_WRITE off fun d => d.plain off v
  else if off = R.LNK_PCTRL 0 ∨ off = R.LNK_PCTRL 1 ∨ off = R.LNK_PCTRL 2 ∨ off = R.LNK_PCTRL 3 then d.writePctrl ((off - 0x21000) / 0x100) v
  else d.plain off v

end Sys2Proof.Machine
end

