-- ==== Sys2Proof/Machine/Sec.lean ====
section
/-! DEFINITION. The security engine: fuses, derived keys, measurements, the key store, attestation, link keying, ZERO and the writes of the SEC
registers (R375 to R392). -/

namespace Sys2Proof.Machine

/-! ## Fuses (R377) -/

/-- A fuse bit reads as set when either copy is blown. -/
def State.fuse (s : State) (b : Nat) : Bool := s.persist.fuseA.contains b || s.persist.fuseB.contains b

/-- Blow a bit in both copies; a blown bit stays. -/
def blowBit (l : List Nat) (b : Nat) : List Nat := if l.contains b then l else b :: l
def State.blow (s : State) (b : Nat) : State :=
  { s with persist := { s.persist with fuseA := blowBit s.persist.fuseA b, fuseB := blowBit s.persist.fuseB b } }

/-- n bytes of fuses from a bit on, least significant bit first. -/
def State.fuseBytes (s : State) (from_ n : Nat) : List Byte :=
  (List.range n).map fun i => BitVec.ofNat 8 (((List.range 8).map fun j => b2n (s.fuse (from_ + 8 * i + j)) * 2 ^ j).sum)

def State.rootHash (s : State) : List Byte := s.fuseBytes 0 64
def State.uds (s : State) : List Byte := s.fuseBytes 512 64
def State.serial (s : State) : Nat := leNat (s.fuseBytes 1024 8)
def State.lifecycle (s : State) : Nat := if s.fuse 1089 then 2 else if s.fuse 1088 then 1 else 0

/-- The bits of a security version counter, and its value. -/
def svnBits (k : Nat) : List Nat := (List.range 255).map (2048 + 256 * k + ·)
def State.svn (s : State) (k : Nat) : Nat := ((svnBits k).filter s.fuse).length

/-- Blow the n lowest bits of a counter that are clear, in ascending order (R382). -/
def State.svnBlow (s : State) (k n : Nat) : State := (((svnBits k).filter fun b => !s.fuse b).take n).foldl (fun s b => s.blow b) s

/-- The SEC registers show the fuses (R453). -/
def State.sense (s : State) : State :=
  s.on fun d =>
    let d := d.setFld F.SEC_STATUS_LIFECYCLE s.lifecycle
    let d := (List.range 8).foldl (fun d k => d.setFld (F.SEC_SVN_SVN k) (s.svn k)) d
    let d := d.setFld F.SEC_SERIAL_SERIAL s.serial
    d.setFld F.NVS_STATUS_LOCKED (b2n (s.lifecycle != 0))

/-! ## Keys (R376, R378, R380) -/

/-- ASCII bytes of a label. -/
def ascii (l : String) : List Byte := l.toList.map fun c => BitVec.ofNat 8 c.toNat

/-- KDF (R376). -/
def kdf (secret : List Byte) (label : String) (ctx : List Byte) (n : Nat) : List Byte :=
  Config.shake256 (leBytes 1 1 ++ leBytes 1 (ascii label).length ++ ascii label ++ leBytes 2 ctx.length ++ ctx ++ secret) n

/-- The identity seed and the import key (R378). -/
def State.identitySeed (s : State) : List Byte := kdf s.uds "TGW-DEVICE-ID" [] 57
def State.importKey (s : State) : List Byte := kdf s.uds "TGW-IMPORT" [] 56

/-- A measurement register (R380), and its extension by a digest. -/
def Dev.meas (d : Dev) (m : Nat) : List Byte := Store.get (fun _ => zeros 64) d.sec.meas m
def Dev.setMeas (d : Dev) (m : Nat) (v : List Byte) : Dev :=
  { d with sec := { d.sec with meas := Store.put (fun _ => zeros 64) d.sec.meas m v } }
def Dev.extend (d : Dev) (m : Nat) (digest : List Byte) : Dev := d.setMeas m (Config.shake256 (d.meas m ++ digest) 64)

/-- All of MEAS0 to MEASk − 1. -/
def Dev.measAll (d : Dev) (k : Nat) : List Byte := ((List.range k).map d.meas).flatten

/-- LOCK's derivations: CDI, the alias key and its certificate (R380). -/
def State.lock (s : State) : State :=
  let cdi := kdf s.uds "TGW-CDI" (s.dev.measAll 7) 64
  let seed := kdf cdi "TGW-ALIAS" [] 57
  s.on fun d => { (d.setFld F.SEC_STATUS_LOCKED 1) with
    sec := { d.sec with cdi := cdi, aliasSeed := seed, cert := Config.certificate s.identitySeed (Config.ed448Public seed) } }

/-! ## The key store (R389) -/

/-- An entry of the key store. -/
def Dev.key (d : Dev) (i : Nat) : Key := Store.get (fun _ => Key.reset) d.sec.keys i
def Dev.setKey (d : Dev) (i : Nat) (k : Key) : Dev := { d with sec := { d.sec with keys := Store.put (fun _ => Key.reset) d.sec.keys i k } }

/-- The live entry a handle names. -/
def Dev.keyOf (d : Dev) (h : Nat) : Option Nat :=
  let i := h % 1024
  if h / 1024 % 64 = 0 ∧ (d.key i).live ∧ (d.key i).gen = h / 65536 % 65536 then some i else none

/-- An entry is zeroed and its generation advances. -/
def Dev.keyDestroy (d : Dev) (i : Nat) : Dev :=
  let k := d.key i
  d.setKey i { k with live := false, key := [], job := 0, gen := if k.gen = 65535 then 1 else k.gen + 1 }

/-- Free entries (SEC_STATUS.KEYS_FREE). -/
def Dev.keysFree (d : Dev) : Nat := ((List.range 1024).filter fun i => !(d.key i).live).length

/-- What the store comes to with a wrapped record: a handle, or the RESULT that refuses it. -/
def State.unwrap (s : State) (bs : List Byte) : Except Nat (Nat × State) :=
  let sender := (bs.drop 8).take 56
  let kek := kdf (Config.x448 s.importKey sender) "TGW-WRAP" (leBytes 8 s.serial ++ sender) 32
  let key := Config.gcmDecrypt kek (zeros 12) (bs.take 8) ((bs.drop 64).take 32)
  if kNat bs 0 2 ≠ 0x0100 ∨ kNat bs 2 1 ≠ 1 ∨ kNat bs 3 1 ≠ 0 ∨ kNat bs 4 2 = 0xFFFF ∨ kNat bs 6 2 ≠ 0 then .error 1
  else if Config.gcmTag kek (zeros 12) (bs.take 8) key ≠ (bs.drop 96).take 16 then .error 3
  else match (List.range 1024).find? fun i => !(s.dev.key i).live with
    | none => .error 4
    | some i =>
      let gen := max 1 (s.dev.key i).gen
      .ok (gen * 65536 + i, s.on fun d => d.setKey i ⟨true, gen, kNat bs 4 2, key⟩)

/-! ## Attestation (R383) -/

/-- The report as it stands at acceptance. -/
def State.report (s : State) (nonce : List Byte) : List Byte :=
  let d := s.dev
  let pub := Config.ed448Public d.sec.aliasSeed
  let head := leBytes 2 0x0100 ++ leBytes 2 1330 ++ leBytes 4 (d.fld F.SEC_STATUS_LOCKED) ++ leBytes 8 s.serial ++ leBytes 8 (d.reg R.TCK_NUMBER).toNat
    ++ leBytes 8 d.tai ++ nonce ++ ((List.range 8).map fun k => BitVec.ofNat 8 (s.svn k)) ++ leBytes 1 s.lifecycle ++ zeros 23 ++ d.measAll 16
    ++ (pub ++ zeros 57).take 57 ++ zeros 7
  head ++ (Config.ed448Sign d.sec.aliasSeed (Config.shake256 head 64) ++ zeros 114).take 114

/-! ## ZERO (R391) -/

/-- The FILL of zeros over one GiB, in every stack. -/
def zeroFill (g : Nat) : List Byte :=
  leBytes 1 1 ++ leBytes 1 15 ++ zeros 2 ++ leBytes 4 (2 ^ 30) ++ leBytes 8 (g * 2 ^ 30) ++ zeros 47 ++ leBytes 1 1

/-- Submit the fills of a ZERO while the keel queues have room (log 24). -/
def Dev.zeroPump : Nat → Dev → Dev
  | 0, d => d
  | fuel + 1, d =>
    match d.sec.zero with
    | some z =>
      match z.todo with
      | [] => d
      | g :: gs =>
        if d.kFull 0 (zeroFill g) then d
        else
          let bad := (List.range 12).any fun k => !(d.stackReady k)
          let d := { d with sec := { d.sec with zero := some { z with todo := gs, bad := if bad then g :: z.bad else z.bad } } }
          (d.kSubmit 0 0xFFFF (zeroFill g)).zeroPump fuel
    | none => d

/-- Start a ZERO over some GiB. -/
def Dev.zeroStart (d : Dev) (gibs : List Nat) : Dev :=
  let d := gibs.foldl (fun d g => (d.setFld (F.SEC_GIB_OWNER g) 0xFFFF).setFld (F.SEC_GIB_ZEROING g) 1) d
  { d with sec := { d.sec with zero := some ⟨gibs, gibs, []⟩ } }.zeroPump 384

/-- The GiB a job owns. -/
def Dev.ownedBy (d : Dev) (job : Nat) : List Nat := (List.range 383).filter fun g => d.fld (F.SEC_GIB_OWNER g) == job

/-- The GiB of the ZERO command in progress. -/
def Dev.zeroGibs (d : Dev) : List Nat :=
  match d.sec.op with
  | some o => (List.range (o.imm / 512 % 512 + 1 - o.imm % 512)).map (o.imm % 512 + ·)
  | none => []

/-- Start the next ZERO that waits, when none runs. -/
def Dev.zeroNext (d : Dev) : Dev :=
  match d.sec.zero, d.sec.wait with
  | none, w :: ws =>
    let d := { d with sec := { d.sec with wait := ws } }
    d.zeroStart (match w with | some j => d.ownedBy j | none => d.zeroGibs)
  | _, _ => d

/-- Whether a keel command is a fill of a ZERO. -/
def secFill (gibs : List Nat) (c : KCmd) : Bool := c.tag == 0xFFFF && gibs.any fun g => c.bytes == zeroFill g

/-- ZERO_COMPLETE: the running ZERO's fills have completed (R391). A GiB whose fill ended with a code stays without CLEAN. -/
def execZeroComplete (s : State) : Out :=
  act s fun d =>
    let d := d.zeroPump 384
    match d.sec.zero with
    | none => d
    | some z =>
      if !z.todo.isEmpty || (List.range 12).any (fun k => (d.kQueue k).any (secFill z.gibs)) then d
      else
        let d := z.gibs.foldl (fun d g =>
          let d := d.setFld (F.SEC_GIB_ZEROING g) 0
          if z.bad.contains g then d else d.setFld (F.SEC_GIB_CLEAN g) 1) d
        let d := { d with sec := { d.sec with zero := none } }.raise F.SEC_EVENT_ZERO_DONE 0 clsInfo
        d.zeroNext

/-! ## Commands (R392) -/

/-- A refusal: RESULT and CMD_ERR. -/
def Dev.secRefuse (d : Dev) (result : Nat) : Dev :=
  (d.setFld F.SEC_CMD_STATUS_RESULT result).raise F.SEC_EVENT_CMD_ERR 0 clsContained

/-- A command is accepted: BUSY reads 1 until SEC_COMMAND_DONE. -/
def Dev.secAccept (d : Dev) (op imm arg handle : Nat) (report : List Byte) : Dev :=
  { d.setFld F.SEC_CMD_STATUS_BUSY 1 with sec := { d.sec with op := some ⟨op, imm, arg, handle, report⟩ } }

/-- The HBM range a command reads, or none with RESULT 1 for an address it may not have and 6 for a read error. -/
def Dev.secRead (d : Dev) (arg n align : Nat) : Dev × Except Nat (List Byte) :=
  if arg % align ≠ 0 ∨ hbmSize < arg + n then (d, .error 1)
  else match d.hbmRead arg n with
    | (d, some bs) => (d, .ok bs)
    | (d, none) => (d, .error 6)

/-- SVN_ADV (R382): refused above the running version; the bits are blown until SEC_COMMAND_DONE. -/
def State.secSvn (s : State) (imm arg : Nat) : State :=
  s.on fun d =>
    if d.fld (F.SEC_SVN_RUN_RUN (imm % 8)) < imm / 256 % 256 then d.secRefuse 2 else d.secAccept 1 imm arg 0 []

/-- KEY_IMPORT (R389). -/
def State.secImport (s : State) (imm arg : Nat) : State :=
  match s.dev.secRead arg 112 64 with
  | (d, .error e) => { s with dev := d.secRefuse e }
  | (d, .ok bs) =>
    match ({ s with dev := d } : State).unwrap bs with
    | .error e =>
      { s with dev := (if e = 3 then d.countErr F.SEC_ERR_COUNT_AUTH F.SEC_EVENT_COUNT_SAT 0 else d).secRefuse e }
    | .ok (h, s) => s.on fun d => d.secAccept 2 imm arg h []

/-- KEY_DESTROY (R389). -/
def State.secDestroy (s : State) (imm arg : Nat) : State :=
  s.on fun d => match d.keyOf (arg % 2 ^ 32) with
    | none => d.secRefuse 5
    | some i => (d.keyDestroy i).secAccept 3 imm arg 0 []

/-- MEAS_EXTEND (R380): MEAS0 to MEAS6 are frozen after LOCK. -/
def State.secExtend (s : State) (imm arg : Nat) : State :=
  s.on fun d =>
    let m := imm % 16
    if d.bit F.SEC_STATUS_LOCKED && decide (m < 7) then d.secRefuse 2
    else match d.secRead arg 64 1 with
      | (d, .error e) => d.secRefuse e
      | (d, .ok bs) => (d.extend m bs).secAccept 4 imm arg 0 []

/-- MEAS_RESET (R380). -/
def State.secReset (s : State) (imm arg : Nat) : State :=
  s.on fun d => if imm % 16 < 8 then d.secRefuse 2 else (d.setMeas (imm % 16) (zeros 64)).secAccept 5 imm arg 0 []

/-- ATTEST (R383): refused before LOCK. -/
def State.secAttest (s : State) (imm arg : Nat) : State :=
  if s.dev.bit F.SEC_STATUS_LOCKED = false then s.on fun d => d.secRefuse 2
  else if hbmSize < arg + 64 + 1330 then s.on fun d => d.secRefuse 1
  else match s.dev.secRead arg 64 1 with
    | (d, .error e) => { s with dev := d.secRefuse e }
    | (d, .ok bs) =>
      let s := { s with dev := d }
      let r := s.report bs
      s.on fun d => d.secAccept 6 imm arg 0 r

/-- ZERO (R391): refused when a valid grant covers one of its GiB; GiB 383 is never zeroed by it. -/
def State.secZero (s : State) (imm arg : Nat) : State :=
  s.on fun d =>
    let first := imm % 512
    let last := imm / 512 % 512
    if last < first ∨ 382 < last then d.secRefuse 1
    else if d.grants.any fun g => g.2.any fun x => decide (first ≤ x) && decide (x ≤ last) then d.secRefuse 2
    else
      let d := d.secAccept 7 imm arg 0 []
      { d with sec := { d.sec with wait := d.sec.wait ++ [none] } }.zeroNext

/-- LOCK (R380): a second one is refused. -/
def State.secLock (s : State) (imm arg : Nat) : State :=
  if s.dev.bit F.SEC_STATUS_LOCKED then s.on fun d => d.secRefuse 2 else s.lock.on fun d => d.secAccept 8 imm arg 0 []

/-- Whether a command's read of HBM must wait for the repair of a stack (log 180). -/
def Dev.secWaits (d : Dev) (op arg : Nat) : Bool :=
  match op with
  | 2 => d.readWaits arg 112
  | 4 => d.readWaits arg 64
  | 6 => d.readWaits arg 64
  | _ => false

/-- A write of SEC_CMD. -/
def State.writeSecCmd (s : State) (v : Nat) : State :=
  let op := F.SEC_CMD_OP.ofNat v
  let imm := F.SEC_CMD_IMM.ofNat v
  let arg := (s.dev.reg R.SEC_CMD_ARG).toNat
  let rsv := op == 0 || decide (8 < op)
  let s := if rsv then s.on fun d => d.rsvWrite R.SEC_CMD else s
  if s.dev.bit F.SEC_CMD_STATUS_BUSY then s.on fun d => d.raise F.SEC_EVENT_CMD_ERR 0 clsContained
  else if s.dev.secWaits op arg then s
  else match op with
    | 0 => s
    | 1 => s.secSvn imm arg
    | 2 => s.secImport imm arg
    | 3 => s.secDestroy imm arg
    | 4 => s.secExtend imm arg
    | 5 => s.secReset imm arg
    | 6 => s.secAttest imm arg
    | 7 => s.secZero imm arg
    | 8 => s.secLock imm arg
    | _ => s

/-- A write of SEC_CMD with its OP forced. -/
def State.secCmdAs (s : State) (t : Tag) (op : Nat) (v : Word) : State :=
  s.fwElse t.toNat (fun d => d.refuse (regBase + R.SEC_CMD)) fun s => s.writeSecCmd (v.toNat % 2 ^ 60 + op * 2 ^ 60)

/-- SVN_ADV (R382). -/
def execSvnAdv (t : Tag) (v : Word) (s : State) : Out := actS s fun s => s.secCmdAs t 1 v
/-- KEY_IMPORT (R389). -/
def execKeyImport (t : Tag) (v : Word) (s : State) : Out := actS s fun s => s.secCmdAs t 2 v
/-- KEY_DESTROY (R389). -/
def execKeyDestroy (t : Tag) (v : Word) (s : State) : Out := actS s fun s => s.secCmdAs t 3 v
/-- MEAS_EXTEND (R380). -/
def execMeasExtend (t : Tag) (v : Word) (s : State) : Out := actS s fun s => s.secCmdAs t 4 v
/-- MEAS_RESET (R380). -/
def execMeasReset (t : Tag) (v : Word) (s : State) : Out := actS s fun s => s.secCmdAs t 5 v
/-- ATTEST (R383). -/
def execAttest (t : Tag) (v : Word) (s : State) : Out := actS s fun s => s.secCmdAs t 6 v
/-- ZERO (R391). -/
def execZero (t : Tag) (v : Word) (s : State) : Out := actS s fun s => s.secCmdAs t 7 v
/-- LOCK (R380). -/
def execLock (t : Tag) (v : Word) (s : State) : Out := actS s fun s => s.secCmdAs t 8 v

/-- SEC_COMMAND_DONE (R382, R383, R392): the command in progress completes with RESULT 0; an advance's bits have been blown, an ATTEST writes
its report once its stacks are not under repair (log 180), and a ZERO has ended. -/
def execSecCommandDone (s : State) : Out :=
  actS s fun s =>
    match s.dev.sec.op with
    | none => s
    | some o =>
      if (o.op = 7 ∧ (s.dev.sec.zero.isSome ∨ !s.dev.sec.wait.isEmpty)) ∨ (o.op = 6 ∧ s.dev.repairing (o.arg + 64) o.report.length) then s
      else
        let s := if o.op = 1 then ((s.svnBlow (o.imm % 8) (o.imm / 256 % 256 - s.svn (o.imm % 8))).sense).on fun d => d.raise F.SEC_EVENT_SVN_ADVANCED 0 clsInfo
          else s
        s.on fun d =>
          let d := if o.op = 6 then (d.hbmWrite (o.arg + 64) o.report).1 else d
          let d := if o.op = 2 then d.setFld F.SEC_CMD_STATUS_HANDLE o.handle else d
          let d := { (d.setFld F.SEC_CMD_STATUS_BUSY 0).setFld F.SEC_CMD_STATUS_RESULT 0 with sec := { d.sec with op := none } }
          d.raise F.SEC_EVENT_CMD_DONE 0 clsInfo

/-! ## Decommissioning (R379) -/

/-- A write of SEC_DECOM: with the code, in production, every UDS bit and then lifecycle bit 1,089 are blown. -/
def State.writeDecom (s : State) (v : Nat) : State :=
  if v % 2 ^ 32 ≠ 0xDEC00001 then s.on fun d => d.rsvWrite R.SEC_DECOM
  else if s.lifecycle ≠ 1 then s
  else
    let s := ((List.range 512).map (512 + ·)).foldl (fun s b => s.blow b) s
    ((s.blow 1089).sense).on fun d => d.raise F.SEC_EVENT_DECOMMISSIONED 0 clsInfo

/-- DECOMMISSION (R379): a write of SEC_DECOM. -/
def execDecommission (t : Tag) (v : Word) (s : State) : Out :=
  actS s fun s => s.fwElse t.toNat (fun d => d.refuse (regBase + R.SEC_DECOM)) fun s => s.writeDecom v.toNat

/-- A write to the SEC block. -/
def State.writeSEC (s : State) (off v : Nat) : State :=
  if off = R.SEC_CMD then s.writeSecCmd v
  else if off = R.SEC_DECOM then s.writeDecom v
  else if off = R.SEC_GIB_SEL then s.on fun d => if 383 < v % 512 then d.rsvWrite off else d.plain off v
  else s.on fun d => d.plain off v

/-! ## KILL_DONE (R289, R391) -/

/-- KILL_DONE: every context of the job has been released and is FREE (step 7 of R289), so the landing slots are zeroed of what came in since the kill,
and the killed job's HBM is to be zeroed. -/
def execKillDone (job : BitVec 16) (s : State) : Out :=
  act s fun d =>
    let j := job.toNat
    match d.str.kills.find? (·.1 == j) with
    | none => d
    | some (_, landing) =>
      if d.str.rels.any fun r => r.kill == some j then d
      else
        let d := { d with str := { d.str with kills := d.str.kills.filter (·.1 ≠ j) } }
        let d := if landing then d.freeSlots.zero landBase 0xC000000 else d
        let d := d.raise F.STR_EVENT_KILL_DONE 0 clsInfo
        if d.bit F.SEC_CTRL_ZERO_ON_KILL then
          let d := d.revoke j
          { d with sec := { d.sec with wait := d.sec.wait ++ [some j] } }.zeroNext
        else d

/-! ## Link keying (R384) -/

/-- LINK_KEY_EXCHANGE: the peer's public key, certificates and signature are verified; the link's keys are derived and the port goes Up, or the
port fails. A device that is not in production, or that holds no alias key, takes no part. -/
def execLinkKeyExchange (p : PortId) (pub certs sig : List Byte) (s : State) : Out :=
  actS s fun s =>
    let d := s.dev
    if d.portState p ≠ 3 ∨ s.lifecycle ≠ 1 ∨ d.bit F.SEC_STATUS_LOCKED = false then s
    else
      let peer := d.fld (F.LNK_PEER_ID_SERIAL p)
      let lower := decide (s.serial < peer)
      let own := Config.x448Public (d.port p).ephemeral
      let order := fun (a b : List Byte) => if lower then a ++ b else b ++ a
      let msg := Config.shake256 (order own pub ++ order (leBytes 8 s.serial) (leBytes 8 peer) ++
        order (leBytes 1 p.val) (leBytes 1 (d.fld (F.LNK_PEER_POS_PORT p)))) 64
      if Config.chainValid certs s.rootHash && Config.ed448Verify (Config.chainKey certs) msg sig then
        let k := kdf (Config.x448 (d.port p).ephemeral pub) "TGW-LINK" (order (leBytes 8 s.serial) (leBytes 8 peer)) 72
        let lo := k.take 32 ++ (k.drop 64).take 4
        let hi := (k.drop 32).take 32 ++ (k.drop 68).take 4
        s.on fun d => if lower then d.portUp p lo hi else d.portUp p hi lo
      else
        s.on fun d =>
          let d := (d.portClear p).setFld (F.LNK_PSTATUS_STATE p) 7
          (d.raise F.SEC_EVENT_LINK_AUTH 0 clsContained).countErr F.SEC_ERR_COUNT_AUTH F.SEC_EVENT_COUNT_SAT 0

end Sys2Proof.Machine
end

