-- ==== Sys2Proof/Machine/Eth.lean ====
section
/-! DEFINITION. The Ethernet port: link, frames and priorities, queue pairs, remote memory access and depot reads (R358 to R368), and the writes of
the ETH registers (R374). -/

namespace Sys2Proof.Machine

/-! ## Link and frames (R358 to R361) -/

/-- Whether the port is up. -/
def Dev.ethUp (d : Dev) : Bool := d.fld F.ETH_STATUS_LINK == 2

/-- ETH_LINK_UP (R359): the port has trained, at the rate of the reference clock (R461). -/
def execEthLinkUp (s : State) : Out :=
  act s fun d =>
    if d.bit F.ETH_CTRL_ENABLE = false ∨ d.pwr.refClk = false ∨ d.ethUp then d else (d.setFld F.ETH_STATUS_LINK 2).raise F.ETH_EVENT_LINK_UP 0 clsInfo

/-- The link goes down: queue pairs keep their state; an enabled port trains again. -/
def Dev.ethDown (d : Dev) : Dev :=
  if d.ethUp = false then d
  else (d.setFld F.ETH_STATUS_LINK (if d.bit F.ETH_CTRL_ENABLE then 1 else 0)).raise F.ETH_EVENT_LINK_DOWN 0 clsInfo

/-- ETH_LINK_DOWN (R359). -/
def execEthLinkDown (s : State) : Out := act s Dev.ethDown

/-- Bytes a priority's receive buffer holds. -/
def Dev.ethHeld (d : Dev) (p : Nat) : Nat := Store.get (fun _ => 0) d.eth.held p
def Dev.setEthHeld (d : Dev) (p n : Nat) : Dev := { d with eth := { d.eth with held := Store.put (fun _ => 0) d.eth.held p n } }

/-- A frame is discarded and counted. -/
def Dev.ethDrop (d : Dev) : Dev := d.countErr F.ETH_ERR_COUNT_DROP F.ETH_EVENT_COUNT_SAT 0

/-- XOFF above 768 KiB, XON below 512 KiB, on the priorities of MASK (R360). -/
def Dev.ethPfc (d : Dev) (p : Nat) : Dev :=
  let n := d.ethHeld p
  if bitOf (d.fld F.ETH_PFC_MASK) p = false then d
  else if 786432 < n ∧ !d.eth.xoff.contains p then ({ d with eth := { d.eth with xoff := p :: d.eth.xoff } }).emit (.pfc p true)
  else if n < 524288 ∧ d.eth.xoff.contains p then ({ d with eth := { d.eth with xoff := d.eth.xoff.filter (· ≠ p) } }).emit (.pfc p false)
  else d

/-- A queue pair. -/
def Dev.qp (d : Dev) (n : Nat) : Option Qp := Store.get (fun _ => none) d.eth.qps n
def Dev.setQp (d : Dev) (n : Nat) (q : Option Qp) : Dev := { d with eth := { d.eth with qps := Store.put (fun _ => none) d.eth.qps n q } }

/-- A packet marked CE: one congestion notification per queue pair and 50 µs (R361). -/
def Dev.cnpFor (d : Dev) (n : Nat) : Dev :=
  match d.qp n with
  | none => d
  | some q =>
    let soon : Bool := match q.cnpSent with | some t => decide (d.time < t + 50000 * nsUnits) | none => false
    if d.bit F.ETH_CTRL_CNP_EN = false ∨ soon then d else (d.setQp n (some { q with cnpSent := some d.time })).emit (.cnp n)

/-- ETH_FRAME_RECEIVED (R358, R360, R361): counted, then discarded or held by its priority's buffer. -/
def execEthFrameReceived (f : EthFrame) (s : State) : Out :=
  act s fun d =>
    if d.ethUp = false then d
    else
      let p := f.prio.val
      let d := (d.count F.ETH_RX_BYTES_BYTES f.len).monitor 15 0 f.len
      let d := (d.setEthHeld p (d.ethHeld p - f.taken)).ethPfc p
      let vlanOk := match f.vid with | none => true | some v => v.toNat == d.fld F.ETH_CTRL_VID && v != 0
      if f.supported = false ∨ vlanOk = false ∨ f.len < 64 ∨ 9216 < f.len then d.ethDrop
      else if 1048576 < d.ethHeld p + f.len then d.ethDrop
      else
        let d := (d.setEthHeld p (d.ethHeld p + f.len)).ethPfc p
        match f.ce with
        | some n => d.cnpFor n.toNat
        | none => d

/-- PFC_RECEIVED (R360): a priority is stopped, or sends again. -/
def execPfcReceived (p : Fin 8) (xoff : Bool) (s : State) : Out :=
  act s fun d =>
    if d.ethUp = false then d
    else
      let rest := d.eth.paused.filter (· ≠ p.val)
      { d with eth := { d.eth with paused := if xoff then p.val :: rest else rest } }

/-- The port's own IPv4 or IPv6 address. -/
def Dev.ownIp (d : Dev) (v6 : Bool) : Nat :=
  if v6 then d.fld F.ETH_IP6_HI_ADDR * 2 ^ 64 + d.fld F.ETH_IP6_LO_ADDR else d.fld F.ETH_IP4_ADDR

/-- ARP_REQUEST (R358): an ARP request or neighbour solicitation for the own address is answered with the station address. -/
def execArpRequest (v6 : Bool) (target sender : BitVec 128) (s : State) : Out :=
  act s fun d => if d.ethUp && target.toNat == d.ownIp v6 then d.emit (.arp v6 sender.toNat (d.fld F.ETH_MAC_MAC)) else d

/-- ICMP_ECHO (R358). -/
def execIcmpEcho (v6 : Bool) (target sender : BitVec 128) (data : List Byte) (s : State) : Out :=
  act s fun d => if d.ethUp && target.toNat == d.ownIp v6 then d.emit (.echo v6 sender.toNat data) else d

/-- Sending rates: 1 GB/s, 5 GB/s, 200 GB/s. -/
def rateMin : Nat := 1000000000
def rateStep : Nat := 5000000000
def rateMax : Nat := 200000000000

/-- Whether a queue pair acts as requester (R362). -/
def Qp.requester (q : Qp) : Bool := q.role == 1 || q.role == 3

/-- CNP_RECEIVED (R361). -/
def execCnpReceived (n : BitVec 24) (s : State) : Out :=
  act s fun d =>
    match d.qp n.toNat with
    | none => d
    | some q =>
      if d.ethUp = false ∨ d.bit F.ETH_CTRL_CNP_EN = false ∨ q.requester = false then d
      else d.setQp n.toNat (some { q with rate := max (q.rate * 7 / 8) rateMin, cnpGot := d.time })

/-- RATE_RECOVERY (R361): 50 µs after the last notification or recovery. -/
def execRateRecovery (n : BitVec 24) (s : State) : Out :=
  act s fun d =>
    match d.qp n.toNat with
    | none => d
    | some q =>
      if d.bit F.ETH_CTRL_CNP_EN = false ∨ q.requester = false then d
      else
        let d := d.at_ (q.cnpGot + 50000 * nsUnits)
        d.setQp n.toNat (some { q with rate := min (q.rate + rateStep) rateMax, cnpGot := d.time })

/-! ## Queue pairs (R362 to R365) -/

/-- Create a queue pair; it takes a flow. -/
def Dev.newQp (d : Dev) (n role peer ip psnIn psnOut : Nat) : Dev :=
  (if (d.qp n).isSome then d else d.takeFlow).setQp n (some ⟨role, peer, ip, psnIn, psnOut, false, 0, rateMax, none, d.time⟩)

/-- A queue pair enters the error state. -/
def Dev.qpError (d : Dev) (n : Nat) : Dev :=
  match d.qp n with
  | none => d
  | some q => (d.setQp n (some { q with error := true })).raise F.ETH_EVENT_QP_ERR 0 clsContained

/-- Packets of a message: one at least, 4,096 payload bytes each. -/
def packets (len : Nat) : Nat := max 1 (ceilDiv len 4096)

/-- Take the next message of a queue pair: its packet sequence number must be the one expected; a gap is answered with a NAK, a duplicate with an
acknowledgement (go-back-N). -/
def Dev.qpTake (d : Dev) (n psn len : Nat) (g : Dev → Qp → Dev) : Dev :=
  match d.qp n with
  | none => d
  | some q =>
    if d.ethUp = false ∨ q.error then d
    else if psn ≠ q.psnIn then d.emit (if (q.psnIn + 2 ^ 24 - psn) % 2 ^ 24 < 2 ^ 23 then .ack n ((q.psnIn + 2 ^ 24 - 1) % 2 ^ 24) else .nak n q.psnIn 0)
    else
      let q := { q with psnIn := (q.psnIn + packets len) % 2 ^ 24 }
      g (d.setQp n (some q)) q

/-- SEND (R362): a message arrives and is acknowledged; what it says acts through its own command (log 23). -/
def execSend (n : BitVec 24) (psn : BitVec 24) (len : Nat) (s : State) : Out :=
  act s fun d => d.qpTake n.toNat psn.toNat len fun d q => d.emit (.ack n.toNat ((q.psnIn + 2 ^ 24 - 1) % 2 ^ 24))

/-- Whether a request's tag is admitted on the device (R298). -/
def Dev.admitted (d : Dev) (tag : Nat) : Bool := tag == 0xFFFF || d.jobs.contains tag

/-- The tag of a remote memory access that passes R364, none when any check fails. -/
def Dev.rkeyTag (d : Dev) (rkey addr n : Nat) (write : Bool) : Option Nat :=
  let i := rkey / 2 ^ 24 % 256
  let base := d.fld (F.ETH_MR_BASE_BASE i) * 64
  let size := 2 ^ d.fld (F.ETH_MR_CTL_SIZE_LOG2 i)
  let place := regionOf base size
  if d.bit (F.ETH_MR_CTL_VALID i) && rkey % 2 ^ 24 == d.fld (F.ETH_MR_CTL_KEY i) && decide (base ≤ addr) && decide (addr + n ≤ base + size) &&
      d.bit (if write then F.ETH_MR_CTL_WRITE i else F.ETH_MR_CTL_READ i) && (place == .hbm || place == .scratch) &&
      d.admitted (d.fld (F.ETH_MR_CTL_JOB i)) then some (d.fld (F.ETH_MR_CTL_JOB i)) else none

/-- A remote access is refused: NAK, error state, RKEY. -/
def Dev.rkeyRefuse (d : Dev) (n psn : Nat) : Dev := ((d.emit (.nak n psn 2)).qpError n).raise F.ETH_EVENT_RKEY 0 clsContained

/-- Whether a queue pair serves host control, the only role with remote memory access to the device. -/
def Qp.host (q : Qp) : Bool := q.role == 2

/-- RDMA_WRITE (R364); it waits at its home while that would make it wait (R322, R327). -/
def execRdmaWrite (n psn : BitVec 24) (rkey : BitVec 32) (addr : Word) (bytes : List Byte) (s : State) : Out :=
  act s fun d => if d.writeWaits addr.toNat bytes then d else d.qpTake n.toNat psn.toNat bytes.length fun d q =>
    match if q.host then d.rkeyTag rkey.toNat addr.toNat bytes.length true else none with
    | none => d.rkeyRefuse n.toNat psn.toNat
    | some tag =>
      match d.memWrite tag addr.toNat bytes with
      | (d, true) => d.emit (.ack n.toNat ((q.psnIn + 2 ^ 24 - 1) % 2 ^ 24))
      | (d, false) => d.rkeyRefuse n.toNat psn.toNat

/-- RDMA_READ (R364); it waits at its home as a write does. -/
def execRdmaRead (n psn : BitVec 24) (rkey : BitVec 32) (addr : Word) (len : Nat) (s : State) : Out :=
  act s fun d => if d.readWaits addr.toNat len then d else d.qpTake n.toNat psn.toNat len fun d q =>
    match if q.host then d.rkeyTag rkey.toNat addr.toNat len false else none with
    | none => d.rkeyRefuse n.toNat psn.toNat
    | some tag =>
      match d.memRead tag addr.toNat len with
      | (d, some bs) => d.emit (.readData n.toNat bs)
      | (d, none) => d.rkeyRefuse n.toNat psn.toNat

/-! ## Depot reads (R366 to R368) -/

/-- Add to a depot record's DONE, with release semantics. -/
def Dev.depotDone (d : Dev) (job done v : Nat) : Dev :=
  if done = 0 then d
  else d.issue { Req.of 3000 job done (.atomic 0 true false v 0) with rel := true }

/-- A depot record ends without writing. -/
def Dev.depotFail (d : Dev) (job done : Nat) (ev : Fld) : Dev := (d.raise ev 0 clsContained).depotDone job done (1 + 2 ^ 32)

/-- ROCE_RETRANSMIT (R358, R368): the timer of a queue pair expires, and it resends; at its retry limit it enters the error state, and its depot
records end. -/
def execRoceRetransmit (n : BitVec 24) (s : State) : Out :=
  act s fun d =>
    match d.qp n.toNat with
    | none => d
    | some q =>
      if q.error then d
      else if q.retries < Config.retryLimit then (d.setQp n.toNat (some { q with retries := q.retries + 1 })).emit (.again n.toNat)
      else
        let mine := d.eth.recs.filter fun r => r.qp == n.toNat && !r.written
        let d := d.qpError n.toNat
        let d := { d with eth := { d.eth with recs := d.eth.recs.filter fun r => r.qp != n.toNat || r.written } }
        mine.foldl (fun d r => d.depotFail r.job r.done F.ETH_EVENT_QP_ERR) d

/-- A write of ETH_DEPOT_TAIL: TAIL never moves back over outstanding records. -/
def Dev.writeDepotTail (d : Dev) (v : Nat) : Dev :=
  let head := d.fld F.ETH_DEPOT_TAIL_HEAD
  let ahead := fun t => (t + 1024 - head) % 1024
  if ahead (v % 1024) < ahead (d.fld F.ETH_DEPOT_TAIL_TAIL) then d.raise F.ETH_EVENT_DEPOT_ERR 0 clsContained
  else d.setFld F.ETH_DEPOT_TAIL_TAIL (v % 1024)

/-- DEPOT_TAIL_WRITE (R367). -/
def execDepotTailWrite (t : Tag) (v : Word) (s : State) : Out :=
  act s fun d => d.fw t.toNat R.ETH_DEPOT_TAIL fun d => d.writeDepotTail v.toNat

/-- Start one record, whose 64 bytes are given. -/
def Dev.depotStart (d : Dev) (bs : List Byte) : Dev :=
  let r : DepotRec := ⟨kNat bs 0 8, kNat bs 8 4, kNat bs 12 4, kNat bs 28 2, kNat bs 30 2, kNat bs 32 8, [], kNat bs 48 8, false⟩
  let bad := kNat bs 63 1 != 1 || kNat bs 44 4 != 0 || kNat bs 56 7 != 0 || r.len % 64 != 0 || decide (65536 < r.len) || decide (r.qp < 0x1000) ||
    decide (0x10FF < r.qp) || r.dest % 64 != 0 || decide (hbmSize < r.dest + r.len) || r.done % 8 != 0 || !(d.admitted r.job)
  match d.keyOf (kNat bs 40 4) with
  | none => d.depotFail r.job r.done F.ETH_EVENT_DEPOT_ERR
  | some i =>
    if bad ∨ (d.key i).job ≠ r.job then d.depotFail r.job r.done F.ETH_EVENT_DEPOT_ERR
    else match d.qp r.qp with
      | none => d.depotFail r.job r.done F.ETH_EVENT_QP_ERR
      | some q =>
        if q.error ∨ q.role ≠ 3 then d.depotFail r.job r.done F.ETH_EVENT_QP_ERR
        else
          let d := { d with eth := { d.eth with recs := d.eth.recs ++ [{ r with key := (d.key i).key }] } }
          d.emit (.readAsk r.qp (kNat bs 16 8) (kNat bs 24 4) (r.len + 16))

/-- DEPOT_RECORD_START (R367, R368, R386): the next record, while one of the 64 chunk buffers is free; its read waits for a
stack under repair. -/
def execDepotRecordStart (s : State) : Out :=
  act s fun d =>
    let head := d.fld F.ETH_DEPOT_TAIL_HEAD
    let at_ := d.fld F.ETH_DEPOT_RING_BASE * 65536 + 64 * head
    if d.bit F.ETH_DEPOT_RING_VALID = false ∨ head = d.fld F.ETH_DEPOT_TAIL_TAIL ∨ 64 ≤ d.eth.recs.length ∨ d.readWaits at_ 64 then d
    else match d.hbmRead at_ 64 with
      | (d, none) => (d.setFld F.ETH_DEPOT_TAIL_HEAD ((head + 1) % 1024)).raise F.ETH_EVENT_DEPOT_ERR 0 clsContained
      | (d, some bs) => (d.setFld F.ETH_DEPOT_TAIL_HEAD ((head + 1) % 1024)).depotStart bs

/-- Replace the i-th record, or take it out. -/
def Dev.setRec (d : Dev) (i : Nat) (r : DepotRec) : Dev := { d with eth := { d.eth with recs := d.eth.recs.set i r } }
def Dev.dropRec (d : Dev) (i : Nat) : Dev := { d with eth := { d.eth with recs := d.eth.recs.eraseIdx i } }

/-- DEPOT_CHUNK_ARRIVAL (R366, R368): the i-th record's ciphertext and tag are in, and no stack it is written to is under repair. -/
def execDepotChunkArrival (i : Nat) (bytes : List Byte) (s : State) : Out :=
  act s fun d =>
    match d.eth.recs[i]? with
    | none => d
    | some r =>
      if r.written ∨ bytes.length ≠ r.len + 16 ∨ d.repairing r.dest r.len then d
      else
        let nonce := leBytes 8 r.object ++ leBytes 4 r.chunk
        let aad := leBytes 8 r.object ++ leBytes 4 r.chunk ++ leBytes 4 r.len
        let plain := Config.gcmDecrypt r.key nonce aad (bytes.take r.len)
        if Config.gcmTag r.key nonce aad plain ≠ bytes.drop r.len then
          ((d.dropRec i).countErr F.ETH_ERR_COUNT_AUTH F.ETH_EVENT_COUNT_SAT 0).depotFail r.job r.done F.ETH_EVENT_DEPOT_AUTH
        else match d.memWrite r.job r.dest plain with
          | (d, true) => d.setRec i { r with written := true, key := [] }
          | (d, false) => (d.dropRec i).depotFail r.job r.done F.ETH_EVENT_DEPOT_ERR

/-- DEPOT_WRITES_DONE (R368): 1 is added to the i-th record's DONE. -/
def execDepotWritesDone (i : Nat) (s : State) : Out :=
  act s fun d =>
    match d.eth.recs[i]? with
    | none => d
    | some r => if r.written then (d.dropRec i).depotDone r.job r.done 1 else d

/-! ## Register writes (R365, R372, R374) -/

/-- A write to the ETH block. -/
def Dev.writeETH (d : Dev) (off v : Nat) : Dev :=
  if off = R.ETH_CTRL then
    let was := d.bit F.ETH_CTRL_ENABLE
    let d := d.plain off v
    if was && !bitOf v 0 then (if d.ethUp then d.ethDown else d.setFld F.ETH_STATUS_LINK 0)
    else if !was && bitOf v 0 then d.setFld F.ETH_STATUS_LINK 1 else d
  else if off = R.ETH_DEPOT_TAIL then d.writeDepotTail v
  else if off = 0x80048 then d.writeMr (d.fld F.ETH_MR_SEL_INDEX) v
  else if R.ETH_SVC 0 ≤ off ∧ off ≤ R.ETH_SVC 15 then
    (if d.eth.sessions.any fun q => q.ep == (off - R.ETH_SVC 0) / 8 then d.raise F.ETH_EVENT_LOCKED_WRITE 0 clsInfo else d.plain off v)
  else d.plain off v

end Sys2Proof.Machine
end

