-- ==== Sys2Proof/Machine/Nvs.lean ====
section
/-! DEFINITION. The persistent store: journal classes, copies, compaction, mount and the NVS commands (R426 to R431, R435). -/

namespace Sys2Proof.Machine

/-! ## Layout (R426, Tables 4 and 5) -/

/-- Record bytes of a class. -/
def recSize (cls : Nat) : Nat := match cls with | 4 => 1088 | 5 => 256 | _ => 64
/-- Keys of a class. -/
def recKeys (cls : Nat) : Nat := match cls with | 1 => 64 | 2 => 49152 | 3 => 1024 | 4 => 16 | _ => 4096
/-- Blocks of one copy of a class, and the first block of copy A. -/
def copyBlocks (cls : Nat) : Nat := match cls with | 1 => 32 | 2 => 64 | 3 => 64 | 4 => 16 | _ => 128
def copyFirst (cls : Nat) : Nat := match cls with | 1 => 16 | 2 => 80 | 3 => 208 | 4 => 336 | _ => 368
/-- Records that fit a block behind its 32-byte head. -/
def blockRecs (cls : Nat) : Nat := (65536 - 32) / recSize cls
/-- Time units in which a class may gain one record (R431). -/
def recPeriod (cls : Nat) : Nat :=
  1000000000 * nsUnits * (match cls with | 1 => 1 | 2 => 36 | 3 => 6 | 4 => 360 | _ => 60)

/-- A record as it lies in flash (R428). -/
def Rec.bytes (cls : Nat) (r : Rec) : List Byte :=
  let head := leBytes 1 cls ++ zeros 1 ++ leBytes 2 r.key ++ leBytes 2 r.body.length ++ zeros 2 ++ leBytes 8 r.seq ++ r.body
  let all := head ++ leBytes 4 (crc32c head)
  all ++ List.replicate (recSize cls - 1 - all.length) 0xFF ++ zeros 1

/-! ## The logs (R428, R429) -/

/-- A copy of a class: 0 for A, 1 for B. -/
def State.log (s : State) (cls c : Nat) : Log := Store.get (fun _ => Log.empty) s.persist.logs (2 * cls + c)
def State.setLog (s : State) (cls c : Nat) (l : Log) : State :=
  { s with persist := { s.persist with logs := Store.put (fun _ => Log.empty) s.persist.logs (2 * cls + c) l } }
def Log.recs (l : Log) : List Rec := l.blocks.flatten

/-- Valid records of both copies. -/
def State.validRecs (s : State) (cls : Nat) : List Rec := ((s.log cls 0).recs ++ (s.log cls 1).recs).filter (·.valid)

/-- The record of a key with the greatest SEQ. -/
def liveOf (rs : List Rec) (key : Nat) : Option Rec :=
  rs.foldl (fun b r => if r.key ≠ key then b else match b with
    | none => some r
    | some x => if x.seq < r.seq then some r else b) none

/-- Insert a record before the first with a greater key. -/
def recInsert (r : Rec) : List Rec → List Rec
  | [] => [r]
  | x :: xs => if r.key < x.key then r :: x :: xs else x :: recInsert r xs

/-- The live records of a class, in ascending KEY order. -/
def State.live_ (s : State) (cls : Nat) : List Rec :=
  let rs := s.validRecs cls
  ((rs.map (·.key)).eraseDups.filterMap (liveOf rs)).foldr recInsert []

/-- Append a record to a copy of `n` blocks with `cap` records each. A full head block gives way to an erased one; when none would stay erased,
the oldest block's live records move to the head and it is erased. Answers the copy and the places erased. -/
def Log.append (cap n : Nat) (live : Rec → Bool) (r : Rec) : Nat → Log → Log × List Nat
  | 0, l => (l, [])
  | fuel + 1, l =>
    let front := l.blocks.dropLast
    let head := l.blocks.getLast?.getD []
    if head.length < cap then ({ l with blocks := front ++ [head ++ [r]] }, [])
    else if l.blocks.length + 1 < n then Log.append cap n live r fuel { l with blocks := l.blocks ++ [[]] }
    else
      let (l', e) := Log.append cap n live r fuel ⟨l.blocks.drop 1 ++ [(l.blocks.headD []).filter live], (l.oldest + 1) % n⟩
      (l', l.oldest :: e)

/-- Erase counts. -/
def State.erase (s : State) (block : Nat) : State :=
  { s with persist := { s.persist with erases := Store.put (fun _ => 0) s.persist.erases block (Store.get (fun _ => 0) s.persist.erases block + 1) } }

/-- Append to copy c of a class. -/
def State.logAppend (s : State) (cls c : Nat) (r : Rec) : State :=
  let live := s.live_ cls
  let (l, e) := Log.append (blockRecs cls) (copyBlocks cls) (fun x => live.contains x) r (2 * copyBlocks cls) (s.log cls c)
  e.foldl (fun s p => s.erase (copyFirst cls + c * copyBlocks cls + p)) (s.setLog cls c l)

/-- The NVS registers show the journal: SEQ, LIVE and FREE of a class, wear, spares. -/
def State.nvsShow (s : State) (cls : Nat) : State :=
  let live := (s.live_ cls).length
  let free := copyBlocks cls - (s.log cls 0).blocks.length
  let worst := s.persist.erases.foldl (fun (b : Nat × Nat) e => if b.2 < e.2 then e else b) (0, 0)
  let seq := Store.get (fun _ => 0) s.persist.seqs cls
  s.on fun d =>
    let d := ((d.setFld (F.NVS_CLASS_SEQ (cls - 1)) seq).setFld (F.NVS_CLASS_LIVE (cls - 1)) live).setFld (F.NVS_CLASS_FREE (cls - 1)) free
    let d := (d.setFld F.NVS_WEAR_BLOCK worst.1).setFld F.NVS_WEAR_ERASES worst.2
    let d := d.setFld F.NVS_STATUS_SPARES s.persist.spares
    if 80000 < worst.2 then d.raise F.NVS_EVENT_WEAR 0 clsInfo else d

/-- A class is mounted (R430): a copy that lacks a live record gains it; invalid records are counted. -/
def State.mountClass (s : State) (cls : Nat) : State :=
  let torn := (((s.log cls 0).recs ++ (s.log cls 1).recs).filter (!·.valid)).length
  let s := s.on fun d => (List.range torn).foldl (fun d _ => d.countErr F.NVS_ERR_COUNT_TORN F.NVS_EVENT_COUNT_SAT 0) d
  let live := s.live_ cls
  let s := [0, 1].foldl (fun s c =>
    let lack := live.filter fun r => !((s.log cls c).recs.contains r)
    if lack.isEmpty then s
    else (lack.foldl (fun (s : State) r => s.logAppend cls c r) s).on fun d => d.raise F.NVS_EVENT_MOUNT_REPAIR 0 clsCorrected) s
  s.nvsShow cls

/-! ## Commands (R431, R435) -/

/-- A refusal. -/
def Dev.nvsRefuse (d : Dev) (result : Nat) : Dev :=
  (d.setFld F.NVS_CMD_STATUS_RESULT result).raise F.NVS_EVENT_CMD_ERR 0 clsContained

/-- A class's credit now: at most 64 records. -/
def Dev.nvsCredit (d : Dev) (cls : Nat) : Nat :=
  let c := Store.get (fun k => (64 * recPeriod k, 0)) d.nvs.credit cls
  min (64 * recPeriod cls) (c.1 + (d.time - c.2))

/-- Accept a command: BUSY reads 1 until NVS_COMMAND_DONE. -/
def Dev.nvsAccept (d : Dev) (o : NvsOp) : Dev := { d.setFld F.NVS_CMD_STATUS_BUSY 1 with nvs := { d.nvs with op := some o } }

/-- An APPEND is accepted: it takes the class's next SEQ, and one record's credit. -/
def State.nvsBegin (s : State) (cls key : Nat) (body : List Byte) (addr life : Nat) : State :=
  let seq := Store.get (fun _ => 0) s.persist.seqs cls + 1
  let d := s.dev
  let d := { d with nvs := { d.nvs with credit := Store.put (fun k => (64 * recPeriod k, 0)) d.nvs.credit cls (d.nvsCredit cls - recPeriod cls, d.time) } }
  let persist := { s.persist with seqs := Store.put (fun _ => 0) s.persist.seqs cls seq }
  { s with dev := d.nvsAccept ⟨1, cls, ⟨key, seq, body, true⟩, body.length, addr, life⟩, persist := persist }

/-! ## Lifetime counters (R432) -/

/-- A lifetime counter that has gained nothing. -/
def lifeNone (_ : Nat) : Life := ⟨0, false, 0⟩
def Dev.life (d : Dev) (key : Nat) : Life := Store.get lifeNone d.nvs.life key
def Dev.setLife (d : Dev) (key : Nat) (x : Life) : Dev := { d with nvs := { d.nvs with life := Store.put lifeNone d.nvs.life key x } }

/-- A counter gains n, for a cause other than time and energy (`now`) or not. -/
def Dev.lifeAdd (d : Dev) (key n : Nat) (now : Bool) : Dev :=
  let x := d.life key
  if n = 0 then d else d.setLife key { x with gain := x.gain + n, now := x.now || now }

/-- Powered seconds and input energy are brought up to date. -/
def Dev.lifeTime (d : Dev) : Dev :=
  let secs := (d.time - d.nvs.since) / (1000000000 * nsUnits)
  let kj := d.fld F.PWR_ENERGY_MJ / 1000000
  let d := (d.lifeAdd 0 (secs - d.nvs.secs) false).lifeAdd 4 (kj - d.nvs.kj) false
  { d with nvs := { d.nvs with secs := secs, kj := kj } }

/-- A counter's value in its live record. -/
def State.lifeOf (s : State) (key : Nat) : Nat := match liveOf (s.validRecs 1) key with | some r => leNat r.body | none => 0

/-- Whether telemetry may append a counter now: at once after a change that is not time or energy, else 60 s after its last append (R431, R432). -/
def Dev.lifeDue (d : Dev) (key : Nat) : Bool :=
  let x := d.life key
  x.gain != 0 && (x.now || decide (x.at_ + 60 * (1000000000 * nsUnits) ≤ d.time))

/-- The telemetry component appends the first counter that is due, while it runs and the controller is free (log 183). -/
def State.lifePump (s : State) : State :=
  let d := s.dev
  if (d.serving && d.compUp 7 && d.bit F.NVS_STATUS_MOUNTED) = false ∨ d.bit F.NVS_CMD_STATUS_BUSY ∨ d.nvsCredit 1 < recPeriod 1 then s
  else match [1, 2, 3, 0, 4].find? d.lifeDue with
    | none => s
    | some key =>
      let gain := (d.life key).gain
      let s := s.on fun d => d.setLife key { d.life key with now := false, at_ := d.time }
      s.nvsBegin 1 key (leBytes 8 (min (2 ^ 64 - 1) (s.lifeOf key + gain))) 0 gain

/-- JOURNAL_MOUNT (R430). A journal that holds counters has lived through a power failure, which counts now (R432; log 183). -/
def execJournalMount (s : State) : Out :=
  actS s fun s =>
    if s.dev.bit F.NVS_STATUS_MOUNTED then s
    else
      let s := ([1, 2, 3, 4, 5].foldl (fun s c => s.mountClass c) s).on fun d => d.setFld F.NVS_STATUS_MOUNTED 1
      if (s.validRecs 1).isEmpty then s else s.on fun d => d.lifeAdd 1 1 true

/-! ## Commands that append and read -/

/-- APPEND; its body waits for a stack under repair (log 180). -/
def State.nvsAppend (s : State) (cls key len : Nat) : State :=
  let addr := s.dev.fld F.NVS_ARG_ADDR * 64
  let live := s.live_ cls
  if recKeys cls ≤ key ∨ recSize cls < len + 21 ∨ hbmSize < addr + len then s.on fun d => d.nvsRefuse 1
  else if (copyBlocks cls - 1) * blockRecs cls < live.length + (if live.any (·.key == key) then 0 else 1) then s.on fun d => d.nvsRefuse 2
  else if s.dev.nvsCredit cls < recPeriod cls then s.on fun d => d.nvsRefuse 3
  else if s.dev.repairing addr len then s
  else match s.dev.hbmRead addr len with
    | (d, none) => { s with dev := d.nvsRefuse 1 }
    | (d, some body) => ({ s with dev := d } : State).nvsBegin cls key body addr 0

/-- READ. -/
def State.nvsRead (s : State) (cls len : Nat) : State :=
  let addr := s.dev.fld F.NVS_ARG_ADDR * 64
  s.on fun d => if hbmSize < addr + len then d.nvsRefuse 1 else d.nvsAccept ⟨2, cls, ⟨0, 0, [], true⟩, len, addr, 0⟩

/-- A write of NVS_CMD. -/
def State.writeNvsCmd (s : State) (v : Nat) : State :=
  let op := F.NVS_CMD_OP.ofNat v
  let cls := F.NVS_CMD_CLASS.ofNat v
  let rsv := (op != 1 && op != 2) || cls == 0 || decide (5 < cls)
  let s := if rsv then s.on fun d => d.rsvWrite R.NVS_CMD else s
  if s.dev.bit F.NVS_CMD_STATUS_BUSY then s.on fun d => d.raise F.NVS_EVENT_CMD_ERR 0 clsContained
  else if rsv then s
  else if op = 1 then s.nvsAppend cls (F.NVS_CMD_KEY.ofNat v) (F.NVS_CMD_LEN.ofNat v)
  else s.nvsRead cls (F.NVS_CMD_LEN.ofNat v)

/-- A write to the NVS block. -/
def State.writeNVS (s : State) (off v : Nat) : State := if off = R.NVS_CMD then s.writeNvsCmd v else s.on fun d => d.plain off v

/-- A write of NVS_CMD with its OP forced. -/
def State.nvsCmdAs (s : State) (t : Tag) (op : Nat) (v : Word) : State :=
  s.fwElse t.toNat (fun d => d.refuse (regBase + R.NVS_CMD)) fun s => s.writeNvsCmd (v.toNat % 2 ^ 60 + op * 2 ^ 60)

/-- NVS_APPEND (R429): a write of NVS_CMD with OP 1. -/
def execNvsAppend (t : Tag) (v : Word) (s : State) : Out := actS s fun s => s.nvsCmdAs t 1 v
/-- NVS_READ (R435): a write of NVS_CMD with OP 2. -/
def execNvsRead (t : Tag) (v : Word) (s : State) : Out := actS s fun s => s.nvsCmdAs t 2 v

/-- A block that fails is replaced from the spare pool; false when the pool is empty (R429). -/
def State.retire (s : State) : Nat → State × Bool
  | 0 => (s, true)
  | n + 1 =>
    let s := s.on fun d => d.countErr F.NVS_ERR_COUNT_FAILS F.NVS_EVENT_COUNT_SAT 0
    if s.persist.spares = 0 then (s, false)
    else
      let s := { s with persist := { s.persist with spares := s.persist.spares - 1 } }
      (s.on fun d => d.raise F.NVS_EVENT_BLOCK_RETIRED 0 clsCorrected).retire n

/-- A command ends. -/
def Dev.nvsEnd (d : Dev) (result count : Nat) : Dev :=
  let d := { (d.setFld F.NVS_CMD_STATUS_BUSY 0).setFld F.NVS_CMD_STATUS_RESULT result with nvs := { d.nvs with op := none } }
  let d := d.setFld F.NVS_CMD_STATUS_COUNT count
  if result = 0 then d.raise F.NVS_EVENT_CMD_DONE 0 clsInfo else d.raise F.NVS_EVENT_CMD_ERR 0 clsContained

/-- A lifetime counter's record stands: its gain is no longer outstanding. -/
def Dev.lifeKept (d : Dev) (o : NvsOp) : Dev :=
  if o.life = 0 then d else d.setLife o.entry.key { d.life o.entry.key with gain := (d.life o.entry.key).gain - o.life }

/-- NVS_COMMAND_DONE (R429, R435): an APPEND's record stands in copy A and then in copy B, with `failed` blocks retired on the way; a READ's
records are written, as many as fit, once no stack they lie in is under repair (log 180). -/
def execNvsCommandDone (failed : Nat) (s : State) : Out :=
  actS s fun s =>
    match s.dev.nvs.op with
    | none => s
    | some o =>
      if o.op = 1 then
        match s.retire failed with
        | (s, false) => (s.on fun d => d.nvsEnd 4 o.entry.seq).nvsShow o.cls
        | (s, true) => (((s.logAppend o.cls 0 o.entry).logAppend o.cls 1 o.entry).on fun d => (d.lifeKept o).nvsEnd 0 o.entry.seq).nvsShow o.cls
      else
        let live := s.live_ o.cls
        let n := min live.length (o.len / recSize o.cls)
        if s.dev.repairing o.addr (n * recSize o.cls) then s
        else s.on fun d =>
          let d := (d.hbmWrite o.addr ((live.take n).map (Rec.bytes o.cls)).flatten).1
          d.nvsEnd (if n < live.length then 5 else 0) n

end Sys2Proof.Machine
end

