-- ==== Sys2Proof/Machine/Boot.lean ====
section
/-! DEFINITION. Loading the firmware at each start: the load protocol, the image and its checks, and the boot loader (R381, R395, R397 to R399). -/

namespace Sys2Proof.Machine

/-- Parts of firmware's GiB of HBM (R395, Table 2). -/
def depotRingAt : Nat := fwBase + 0x0400000
def logRingAt : Nat := fwBase + 0x0410000
def inboxAt : Nat := fwBase + 0x0500000
def stagedAt : Nat := fwBase + 0x2400000

/-- Greatest image length (R397). -/
def imageMax : Nat := 3932160

/-! ## The image (R398) -/

/-- An entry of the section table. -/
def secEntry (im : List Byte) (i : Nat) : List Byte := (im.drop (64 + 32 * i)).take 32

/-- The entry of a section by ID, and its bytes and digest. -/
def secOf (im : List Byte) (id : Nat) : List Byte :=
  (((List.range 9).map (secEntry im)).find? fun e => kNat e 0 1 == id).getD []
def secBytes (im : List Byte) (id : Nat) : List Byte := (im.drop (kNat (secOf im id) 8 4)).take (kNat (secOf im id) 12 4)
def secDigest (im : List Byte) (id : Nat) : List Byte := Config.shake256 (secBytes im id) 64

/-- State record versions: written, least and greatest accepted. -/
def stateOut (im : List Byte) (id : Nat) : Nat := kNat (secOf im id) 2 2
def stateMin (im : List Byte) (id : Nat) : Nat := kNat (secOf im id) 4 2
def stateMax (im : List Byte) (id : Nat) : Nat := kNat (secOf im id) 6 2

/-- Counter index, security version, and mailbox versions of an image. -/
def imageK (im : List Byte) : Nat := kNat im 6 1
def imageSvn (im : List Byte) : Nat := kNat im 7 1
def mboxLo (im : List Byte) : Nat := kNat im 24 2
def mboxHi (im : List Byte) : Nat := kNat im 26 2

/-- Where CHAIN begins: behind the last section. -/
def chainAt (im : List Byte) : Nat := (List.range 9).foldl (fun m i => max m (kNat (secEntry im i) 8 4 + kNat (secEntry im i) 12 4)) 1024
def chainLen (im : List Byte) : Nat := kNat im (chainAt im) 4
def chainOf (im : List Byte) : List Byte := (im.drop (chainAt im + 4)).take (chainLen im)

/-- The layout of Table 3. -/
def imageForm (im : List Byte) : Bool :=
  kNat im 0 4 == 0x4C544843 && kNat im 4 2 == 0x0100 && decide (imageK im < 8) && kNat im 8 4 == im.length && kNat im 12 4 == 9 &&
    kNat im 28 36 == 0 && ((List.range 9).all fun id => (List.range 9).any fun i => kNat (secEntry im i) 0 1 == id) &&
    ((List.range 9).all fun i => kNat (secEntry im i) 1 1 == 0 && kNat (secEntry im i) 24 8 == 0 && decide (1024 ≤ kNat (secEntry im i) 8 4)) &&
    kNat im 352 224 == 0 && kNat im 576 448 == 0 && chainAt im + 4 + chainLen im + 114 == im.length

/-- The STATUS of a complete image of an announced length: 0 when R381, R397, R398 and R399 accept it. -/
def State.imageStatus (s : State) (len : Nat) (im : List Byte) : Nat :=
  let body := im.take (im.length - 114)
  if im.length ≠ len then 3
  else if imageForm im = false then 2
  else if Config.chainValid (chainOf im) s.rootHash = false then 4
  else if Config.ed448Verify (Config.chainKey (chainOf im)) (Config.shake256 body 64) (im.drop (im.length - 114)) = false then 5
  else if imageSvn im < s.svn (imageK im) then 6
  else if s.lifecycle ≠ 1 then 7
  else 0

/-! ## The load protocol (R363, R397) -/

/-- A load message to the peer: TYPE, STATUS and payload, numbered from 1. -/
def Dev.loadSend (d : Dev) (typ status : Nat) (payload : List Byte) : Dev :=
  let n := 1 + (d.eth.out.filter fun o => match o with | .send 0x10 _ => true | _ => false).length
  d.emit (.send 0x10 (leBytes 2 0x0100 ++ leBytes 1 typ ++ leBytes 1 0 ++ leBytes 4 n ++ leBytes 4 payload.length ++ leBytes 4 status ++ payload))

/-- RESULT: the load ends, rejected, and the boot ROM waits for a new request of the same peer. -/
def Dev.loadResult (d : Dev) (status : Nat) : Dev :=
  ({ d with eth := { d.eth with load := d.eth.load.map fun (l : Load) => { l with len := 0, got := [] } } }).loadSend 4 status []

/-- Whether a peer is heard: any before a load has connected, then only that one (R363). -/
def Dev.loadPeer (d : Dev) (ip : Nat) : Bool := match d.eth.load with | none => true | some l => l.ip == ip

/-- BOOT_REQ: the load queue pair connects, and the request is answered. -/
def execBootReq (ip : BitVec 128) (bytes : List Byte) (s : State) : Out :=
  actS s fun s =>
    let d := s.dev
    let p := bytes.drop 16
    if d.ethUp = false ∨ d.fld F.GND_STATUS_STATE ≠ 0 ∨ d.loadPeer ip.toNat = false ∨ bytes.length ≠ 80 ∨ kNat bytes 2 1 ≠ 1 then s
    else
      let qpn := kNat p 4 3
      let len := kNat p 32 4
      let (w, d) := d.drawWord
      let d := if (d.qp 0x10).isSome then d else d.takeFlow
      let d := d.setQp 0x10 (some ⟨0, qpn, ip.toNat, (kNat p 8 3 + 1) % 2 ^ 24, w.toNat % 2 ^ 24, false, 0, rateMax, none, d.time⟩)
      let d := { d with eth := { d.eth with load := some ⟨ip.toNat, qpn, len, []⟩ } }
      let s := { s with dev := d }
      if kNat bytes 0 2 ≠ 0x0100 ∨ 0x0100 < kNat p 0 2 ∨ kNat p 2 2 < 0x0100 then s.on fun d => d.loadResult 1
      else if kNat bytes 8 4 ≠ 64 ∨ kNat p 7 1 ≠ 0 ∨ kNat p 36 28 ≠ 0 then s.on fun d => d.loadResult 2
      else if imageMax < len then s.on fun d => d.loadResult 3
      else
        let svns := (List.range 8).map fun k => BitVec.ofNat 8 (s.svn k)
        let ack := leBytes 2 0x0100 ++ zeros 2 ++ leBytes 8 s.serial ++ svns ++ leBytes 4 imageMax
        s.on fun d =>
          let d := ((d.setFld F.ETH_IP4_ADDR (kNat p 12 4)).setFld F.ETH_IP6_LO_ADDR (kNat p 16 8)).setFld F.ETH_IP6_HI_ADDR (kNat p 24 8)
          d.loadSend 2 0 ack

/-- An extend that LOCK may have frozen (R380). -/
def Dev.extendOpen (d : Dev) (m : Nat) (digest : List Byte) : Dev :=
  if d.bit F.SEC_STATUS_LOCKED && decide (m < 7) then d else d.extend m digest

/-- The boot ROM accepts an image: the running version, BOOT, MEAS0, and the boot loader starts (R381, R399). -/
def Dev.imageAccept (d : Dev) (im : List Byte) : Dev :=
  let d := (d.setFld (F.SEC_SVN_RUN_RUN (imageK im)) (imageSvn im)).setFld F.SEC_STATUS_BOOT 1
  let d := (d.extendOpen 0 (secDigest im 0)).setFld F.GND_STATUS_STATE 1
  ({ d.lifeAdd 2 1 true with gnd := { d.gnd with image := im }, eth := { d.eth with load := none } }).loadSend 4 0 []

/-- The boot ROM rejects an image (R381). -/
def Dev.imageReject (d : Dev) (status : Nat) : Dev :=
  let d := (d.setFld F.SEC_STATUS_BOOT 2).countErr F.SEC_ERR_COUNT_REJECT F.SEC_EVENT_COUNT_SAT 0
  (d.raise F.SEC_EVENT_IMAGE_REJECT 0 clsContained).loadResult status

/-- CHUNK: the next bytes of the image; the last chunk triggers the check. -/
def execChunk (ip : BitVec 128) (bytes : List Byte) (s : State) : Out :=
  actS s fun s =>
    let d := s.dev
    match d.eth.load with
    | none => s
    | some l =>
      if d.ethUp = false ∨ d.fld F.GND_STATUS_STATE ≠ 0 ∨ l.ip ≠ ip.toNat ∨ l.len = 0 ∨ kNat bytes 2 1 ≠ 3 then s
      else if kNat bytes 0 2 ≠ 0x0100 then s.on fun d => d.loadResult 1
      else if 1 < kNat bytes 3 1 ∨ kNat bytes 8 4 + 16 ≠ bytes.length ∨ bytes.length < 24 ∨ 65560 < bytes.length ∨ kNat bytes 20 4 ≠ 0 then
        s.on fun d => d.loadResult 2
      else if kNat bytes 16 4 ≠ l.got.length ∨ l.len < l.got.length + (bytes.length - 24) then s.on fun d => d.loadResult 3
      else
        let got := l.got ++ bytes.drop 24
        let s := s.on fun d => { d with eth := { d.eth with load := some { l with got := got } } }
        if kNat bytes 3 1 = 0 then s
        else match s.imageStatus l.len got with
          | 0 => s.on fun d => d.imageAccept got
          | n => s.on fun d => d.imageReject n

/-! ## The boot loader (R399) -/

/-- Start the watchdog's and lease's countdowns. -/
def msUnits : Nat := 1000000 * nsUnits
def Dev.feedWdog (d : Dev) : Dev :=
  { d with gnd := { d.gnd with wdog := if d.bit F.GND_WDOG_EN then some (d.time + d.fld F.GND_WDOG_MS * msUnits) else none } }

/-- A grant of firmware's own over the log ring: region table entry 255, read-only, with a key of the random source (R395, R402). -/
def Dev.logRegion (d : Dev) : Dev :=
  let (w, d) := d.drawWord
  let d := d.setFld (F.ETH_MR_BASE_BASE 255) (logRingAt / 64)
  d.writeMr 255 (2 ^ 63 + 2 ^ 61 + 18 * 2 ^ 50 + 0xFFFF * 2 ^ 32 + w.toNat % 2 ^ 24)

/-- BOOT_LOADER_START: MEAS1 to MEAS7, LOCK, and the components; HBM trains, the image to be copied when it is ready (STACK_READY), and the table
region, depot ring and mailbox are installed. -/
def execBootLoaderStart (s : State) : Out :=
  actS s fun s =>
    if s.dev.fld F.GND_STATUS_STATE ≠ 1 then s
    else
      let im := s.dev.gnd.image
      let s := s.on fun d => (List.range 7).foldl (fun d i => d.extendOpen (i + 1) (secDigest im (i + 1))) d
      let s := if s.dev.bit F.SEC_STATUS_LOCKED then s else s.lock
      s.on fun d =>
        let d := d.setFld F.GND_CTRL_CORE_RUN 0x3F
        let d := (List.range 8).foldl (fun d c => (d.setFld (F.GND_COMP_STATE c) 2).setFld (F.GND_COMP_STATE_VER c) (stateOut im c)) d
        let d := (List.range 12).foldl (fun d k => d.setFld (F.KEL_STATUS_STATE k) 1) d
        let d := (d.setFld F.CDC_TDIR_BASE (fwBase / 2 ^ 22)).setFld F.CDC_TDIR_VALID 1
        let d := (d.setFld F.ETH_DEPOT_RING_BASE (depotRingAt / 65536)).setFld F.ETH_DEPOT_RING_VALID 1
        let d := d.logRegion
        let (w, d) := d.drawWord
        let d := match d.qp 0x10 with
          | some q => d.newQp 0x11 1 q.peer q.ip (w.toNat / 2 ^ 24 % 2 ^ 24) (w.toNat % 2 ^ 24)
          | none => d
        let d := d.setFld F.GND_STATUS_STATE 3
        let d := if d.fld F.PWR_STATUS_STATE = 4 then d else d.setFld F.PWR_STATUS_STATE 3
        d.feedWdog

end Sys2Proof.Machine
end

