-- ==== Sys2Proof/Machine/Relay.lean ====
section
/-! DEFINITION. Relay mode: launching, appending and releasing packets, and the arrival of their parts (R96 to R102). -/

namespace Sys2Proof.Machine

/-- NEXT_SEQ and NEXT_LEAD take packet number k. -/
def Dev.nextSeq (d : Dev) (k : Nat) : Dev :=
  let d := { d with ring := { d.ring with seq := k } }
  (d.setFld F.TTH_RELAY_STATUS_NEXT_SEQ k).setFld F.TTH_RELAY_STATUS_NEXT_LEAD (d.leadOf k)

/-- A relay packet's header (R97). -/
def relayHdrBytes (lead dir seq n sched vec max : Nat) : List Byte :=
  let head := leBytes 2 0x0100 ++ leBytes 2 (lead + dir * 8192) ++ leBytes 2 seq ++ leBytes 2 n ++ leBytes 8 sched ++ leBytes 4 vec ++
    leBytes 4 max ++ zeros 36
  head ++ leBytes 4 (crc32c head)

/-- A slice: its header and its body (R98). -/
def sliceBytes (station : Nat) (body : List Byte) : List Byte :=
  leBytes 2 station ++ zeros 2 ++ leBytes 4 body.length ++ zeros 4 ++ leBytes 4 (crc32c body) ++ body

/-- An end marker after n slices (R98). -/
def endBytes (n : Nat) : List Byte :=
  let head := leBytes 2 0xFFFF ++ zeros 2 ++ leBytes 4 n ++ zeros 4
  head ++ leBytes 4 (crc32c head)

/-- Put relay bytes on a direction's link. -/
def Dev.relaySend (d : Dev) (dir slot : Nat) (bs : List Byte) : Dev := d.payload (d.outPort dir) ⟨0, slot, bs, 0, bs.length, none⟩

/-- A failed relay check (R101). -/
def Dev.relayErr (d : Dev) : Dev := (d.raise F.TTH_RIDE_EVENT_RELAY_ERR 0 clsRing).pullRipcord 6

/-- A refused relay command (R100). -/
def Dev.cmdErr (d : Dev) : Dev := d.raise F.TTH_RIDE_EVENT_CMD_ERR 0 clsContained

/-! ## Commands of TTH_RELAY_CMD (R100, R102) -/

/-- Perform a LAUNCH: both packets leave with the vector; the counterclockwise one, which carries no slice of the lead, ends at once. -/
def Dev.launchPacket (d : Dev) (addr len : Nat) : Dev :=
  match d.memRead d.spoolJob addr len with
  | (d, none) => d.cmdErr
  | (d, some vec) =>
    let k := d.ring.seq
    let max := d.fld F.TTH_RELAY_CTRL_SLICE_MAX * 64
    let hdr := fun dir => relayHdrBytes (d.leadOf k) dir (k % 65536) d.ringN d.sched len max
    let d := d.relaySend 0 6 (hdr 0 ++ vec)
    let d := d.relaySend 1 7 (hdr 1 ++ vec ++ endBytes 0)
    let d := { d with ring := { d.ring with launched := some ⟨k, d.sched, max, false⟩ } }
    d.nextSeq (k + 1)

/-- Whether a LAUNCH is refused: also outside relay mode, and while another LAUNCH is held (log 76). -/
def Dev.launchRefused (d : Dev) (len : Nat) : Bool :=
  !(d.relaying) || d.leadOf d.ring.seq != d.station || d.ring.turnaround || d.ring.held.isSome ||
    decide (33554432 < 64 + len + (d.ringN + 1) / 2 * (16 + d.fld F.TTH_RELAY_CTRL_SLICE_MAX * 64) + 16)

/-- LAUNCH: performed at once, or held over a settle window or slip tick. -/
def Dev.relayLaunch (d : Dev) (v : Nat) : Dev :=
  let len := F.TTH_RELAY_CMD_LEN64.ofNat v * 64
  let addr := F.TTH_RELAY_CMD_ADDR.ofNat v * 64
  if d.launchRefused len then d.cmdErr
  else if d.tick.settled || d.fld F.TCK_STATUS_STATE == 3 then { d with ring := { d.ring with held := some v } }
  else d.launchPacket addr len

/-- The end marker goes out after the own slice and the upstream end marker (R98). -/
def Dev.tryEnd (d : Dev) (k : Nat) : Dev :=
  let q := d.slot k
  if q.rOwn && q.rEndIn && !q.rEndOut then
    (d.relaySend (slotDir k) k (endBytes q.rOut)).setSlot k { q with rEndOut := true }
  else d

/-- APPEND: the own slice joins a packet that passes here, or at the lead the clockwise packet just launched. At the meeting station nothing is
sent (R96; log 77). A slice given before the packet's vector has passed waits for it (R98). It is not written into the landing slot (log 188). -/
def Dev.relayAppend (d : Dev) (v : Nat) : Dev :=
  let k := F.TTH_RELAY_CMD_SLOT.ofNat v
  let len := F.TTH_RELAY_CMD_LEN64.ofNat v * 64
  let addr := F.TTH_RELAY_CMD_ADDR.ofNat v * 64
  if k = 6 then
    match d.ring.launched with
    | none => d.cmdErr
    | some q =>
      if !(d.relaying) || q.own || decide (q.max < len) then d.cmdErr
      else match d.memRead d.spoolJob addr len with
        | (d, none) => d.cmdErr
        | (d, some bs) =>
          let d := d.relaySend 0 6 (sliceBytes d.station bs ++ endBytes 1)
          { d with ring := { d.ring with launched := some { q with own := true } } }
  else
    let q := d.slot k
    if !(d.relaying) || !(d.bit (inflight k)) || q.rOwn || decide (q.rMax < len) then d.cmdErr
    else match d.memRead d.spoolJob addr len with
      | (d, none) => d.cmdErr
      | (d, some bs) =>
        if d.meeting q.rSeq then d.setSlot k { q with rOwn := true }
        else if d.full k = false then d.setSlot k { q with rOwn := true, rHeld := some (sliceBytes d.station bs) }
        else ((d.relaySend (slotDir k) k (sliceBytes d.station bs)).setSlot k { q with rOwn := true, rOut := q.rOut + 1 }).tryEnd k

/-- RELEASE: the cores are done with a slot, so EXPANDED sets (R99). -/
def Dev.relayRelease (d : Dev) (v : Nat) : Dev :=
  let k := F.TTH_RELAY_CMD_SLOT.ofNat v
  if !(d.relaying) || k == 6 || !(d.bit (inflight k)) then d.cmdErr
  else if d.bit (F.TTH_SLOT_FLAGS_EXPANDED k) then d else d.setExpanded k

/-- A write of TTH_RELAY_CMD: OP 0 and SLOT 7 are reserved values. -/
def Dev.relayCmd (d : Dev) (v : Nat) : Dev :=
  if F.TTH_RELAY_CMD_SLOT.ofNat v = 7 then d.rsvWrite R.TTH_RELAY_CMD
  else match F.TTH_RELAY_CMD_OP.ofNat v with
    | 1 => d.relayLaunch v
    | 2 => d.relayAppend v
    | 3 => d.relayRelease v
    | _ => d.rsvWrite R.TTH_RELAY_CMD

/-- A TTH_RELAY_CMD write with its OP given. -/
def Dev.relayOp (d : Dev) (t : Tag) (op : Nat) (v : Word) : Dev :=
  d.fw t.toNat R.TTH_RELAY_CMD fun d => d.relayCmd (v.toNat % 2 ^ 62 + op * 2 ^ 62)

/-- RELAY_LAUNCH (R100). -/
def execRelayLaunch (t : Tag) (v : Word) (s : State) : Out := act s fun d => d.relayOp t 1 v
/-- RELAY_APPEND (R100). -/
def execRelayAppend (t : Tag) (v : Word) (s : State) : Out := act s fun d => d.relayOp t 2 v
/-- RELAY_RELEASE (R100). -/
def execRelayRelease (t : Tag) (v : Word) (s : State) : Out := act s fun d => d.relayOp t 3 v

/-! ## Arriving parts (R98, R99, R101) -/

/-- RELAY_HEADER_IN: a packet's header arrives in its slot, is checked, and goes on unless this is the meeting station. -/
def execRelayHeaderIn (dir : Dir) (header : BitVec 512) (s : State) : Out :=
  act s fun d =>
    let n := d.expected dir
    let k := slotFor dir n
    let bs := leBytes 64 header.toNat
    if d.relaying = false ∨ d.ring.turnaround ∨ d.arriving k then d
    else if d.drained k = false then d.slotWait k
    else
      let lead := kNat bs 2 2
      if crc32c (bs.take 60) ≠ kNat bs 60 4 ∨ kNat bs 1 1 ≠ 1 ∨ kNat bs 6 2 ≠ d.ringN ∨ kNat bs 4 2 ≠ n % 65536 ∨
          lead % 8192 ≠ d.leadOf n ∨ lead / 8192 % 2 ≠ dir.val then d.relayErr
      else
        let d := d.waited (d.slot k).waitFrom
        let d := (d.setFlags k true false false false false).wr (landSlot k) bs
        let d := d.setSlot k { Slot.free with
          rSeq := n, rSched := kNat bs 8 8, rVec := kNat bs 16 4, rMax := kNat bs 20 4, rPos := 64, hdrOk := true, frames := (d.slot k).next, live := true }
        let d := (d.setFld (inflight k) 1).setFld (complete k) 0
        let d := { d with ring := { d.ring with cur := Store.put (fun _ => 0) d.ring.cur dir (n + 1) } }
        let d := if d.ring.seq ≤ n then d.nextSeq (n + 1) else d
        if d.meeting n then d else d.relaySend dir k bs

/-- Store bytes of a packet in its slot, in the order in which they come. -/
def Dev.relayStore (d : Dev) (k : Nat) (bs : List Byte) : Dev :=
  let q := d.slot k
  (d.wr (landSlot k + q.rPos) bs).setSlot k { q with rPos := q.rPos + bs.length }

/-- RELAY_VECTOR_IN: the vector region is in, so FULL sets; it has gone on unit by unit, and an own slice that waited for it follows. A RELEASE
taken before stands. -/
def execRelayVectorIn (dir : Dir) (vec : List Byte) (s : State) : Out :=
  act s fun d =>
    let k := d.relaySlot dir
    if d.receiving dir = false ∨ d.arriving k = false then d
    else
      let bs := (vec ++ zeros (d.slot k).rVec).take (d.slot k).rVec
      let d := (d.relayStore k bs).setFlags k false true (d.bit (F.TTH_SLOT_FLAGS_EXPANDED k)) false false
      let q := d.slot k
      if d.meeting q.rSeq then d
      else
        let d := d.relaySend dir k bs
        match q.rHeld with
        | some own => (d.relaySend dir k own).setSlot k { q with rHeld := none, rOut := q.rOut + 1 }
        | none => d

/-- RELAY_SLICE_IN: a slice, its header and body, arrives whole; it is checked and goes on whole. -/
def execRelaySliceIn (dir : Dir) (slice : List Byte) (s : State) : Out :=
  act s fun d =>
    let k := d.relaySlot dir
    if d.receiving dir = false ∨ d.full k = false then d
    else
      let len := kNat slice 4 4
      let bs := (slice ++ zeros (16 + len)).take (16 + len)
      if crc32c (bs.drop 16) ≠ kNat bs 12 4 then d.relayErr
      else
        let d := d.relayStore k bs
        let q := d.slot k
        let d := d.setSlot k { q with rIn := q.rIn + 1, rOut := q.rOut + 1 }
        if d.meeting q.rSeq then d else d.relaySend dir k bs

/-- RELAY_END_MARKER: COMPLETE sets; the meeting station checks the count and has nothing to forward; another sends its own marker after its own
slice. -/
def execRelayEndMarker (dir : Dir) (marker : BitVec 128) (s : State) : Out :=
  act s fun d =>
    let k := d.relaySlot dir
    let bs := leBytes 16 marker.toNat
    if d.receiving dir = false ∨ d.full k = false then d
    else
      let q := d.slot k
      let meet := d.meeting q.rSeq
      if meet && kNat bs 4 4 != (if dir.val = 0 then d.ringN / 2 else (d.ringN + 1) / 2 - 1) then d.relayErr
      else
        let d := d.relayStore k bs
        let d := (d.setSlot k { d.slot k with rEndIn := true }).setFld (complete k) 1
        if meet then d.setForwarded k else d.tryEnd k

end Sys2Proof.Machine
end

