-- ==== Sys2Proof/Machine/Gnd.lean ====
section
/-! DEFINITION. Chituell and the gondola complex: the log, messages between devices, pausing and resuming jobs, crash and restart, the lease, the
hold and the watchdog (R396, R402 to R413). -/

namespace Sys2Proof.Machine

/-! ## The log (R402, R403) -/

/-- Line 0 of the log ring: NEXT_SEQ and DROPPED. -/
def Dev.logLine (d : Dev) : Dev := (d.hbmWrite logRingAt (leBytes 8 (d.fld F.GND_LOG_NEXT_SEQ) ++ leBytes 8 (d.fld F.GND_LOG_DROP_COUNT))).1

/-- A mailbox message of the device: REQ_ID, STATUS and payload. -/
def Dev.mboxSend (d : Dev) (ver op req status : Nat) (token : Nat) (payload : List Byte) : Dev :=
  d.emit (.send 0x11 (leBytes 2 ver ++ leBytes 2 op ++ leBytes 4 req ++ leBytes 4 payload.length ++ leBytes 4 status ++ leBytes 16 token ++ payload))

/-- Write a record; one of level error or warning also goes to the host as NOTIFY (Table 4). -/
def Dev.logRecord (d : Dev) (comp level code : Nat) (args : List Byte) : Dev :=
  let n := d.fld F.GND_LOG_NEXT_SEQ
  let body := leBytes 8 n ++ leBytes 8 d.tai ++ leBytes 8 (d.reg R.TCK_NUMBER).toNat ++ leBytes 1 comp ++ leBytes 1 level ++ leBytes 2 code ++
    (args ++ zeros 32).take 32
  let rec_ := body ++ leBytes 4 (crc32c body)
  let d := (d.hbmWrite (logRingAt + 64 * (1 + n % 4095)) rec_).1
  let d := (d.setFld F.GND_LOG_NEXT_SEQ (n + 1)).logLine
  match d.gnd.session with
  | some (token, ver) => if level ≤ 1 then d.mboxSend ver 0x8080 0 0 token rec_ else d
  | none => d

/-- A record is dropped and counted. -/
def Dev.logDrop (d : Dev) : Dev := ((d.count F.GND_LOG_DROP_COUNT 1).raise F.GND_EVENT_LOG_DROP 0 clsInfo).logLine

/-- TRACE_POINT: an enabled trace point of a running component is reached; `full` says that the component already queues 256 records. -/
def execTracePoint (t : Fin 1024) (args : List Byte) (full : Bool) (s : State) : Out :=
  act s fun d =>
    let ms := d.time / msUnits
    let n := if d.gnd.traceMs = ms then d.gnd.traceN else 0
    if d.serving = false ∨ d.compUp (t / 128) = false ∨ bitOf (d.fld (F.GND_TRACE_EN_EN (t / 64))) (t % 64) = false then d
    else if full ∨ d.fld F.GND_TRACE_CTRL_RATE ≤ n then d.logDrop
    else ({ d with gnd := { d.gnd with traceMs := ms, traceN := n + 1 } }).logRecord (t / 128) 3 t args

/-! ## Messages (R396) -/

/-- Send a message on every port down the tree, each to the device it leads to. -/
def Dev.fwDown (d : Dev) (m : FwMsg) : Dev :=
  (List.range 4).foldl (fun d p =>
    match d.neighbour p with
    | some (x, y) => if bitOf (d.fld F.TCK_CTRL_DOWN_MASK) p then d.fwSend p x y m else d
    | none => d) d

/-! ## Jobs (R404 to R406) -/

/-- Set the state firmware keeps of a job. -/
def Dev.setJob (d : Dev) (tag st : Nat) : Dev :=
  { d with gnd := { d.gnd with jobs := d.gnd.jobs.map fun j => if j.tag = tag then { j with state := st } else j } }

/-- TCK_CTRL with RUN written, ELECT 0. -/
def Dev.writeRun (d : Dev) (run : Bool) : Dev :=
  let v := (d.reg R.TCK_CTRL).toNat
  d.writeTckCtrl (v - v % 2 + b2n run - (if bitOf v 3 then 8 else 0))

/-- The tick master stops its domain, and a restart in progress with it; another device asks the master to (R405). -/
def Dev.askPause (d : Dev) (job : Nat) : Dev :=
  if d.master then
    let d := { d with gnd := { d.gnd with restart := none } }
    if d.tckRunning then d.writeRun false else d
  else d.fwUp (.pause job)

/-- A running job is paused. -/
def Dev.pauseJob (d : Dev) (job st : Nat) : Dev := (d.setJob job st).askPause job

/-- A station is made ready for a restart: TCK_START is written, and RUN = 1 (R39, R406). -/
def Dev.rearm (d : Dev) (tick : Nat) : Dev := (d.setFld F.TCK_START_START tick).writeRun true

/-- The other stations of the region: those of its devices that the routes have not cut off (R27, R39, R355). -/
def Dev.others (d : Dev) : List (Nat × Nat) :=
  ((List.range 8192).map fun i => (i % 128, i / 128)).filter fun v =>
    d.inRegion v.1 v.2 && v != (d.fld F.LNK_COORD_X, d.fld F.LNK_COORD_Y) && d.fld (F.LNK_ROUTE_DATA_MODE (128 * v.2 + v.1)) != 2

/-- A restart goes as far as the reports heard allow: with the stopped tick of every other station known, the start tick, one above the highest of
all (R27), goes to every station; with every other station armed, the master's RUN is written last (R39). -/
def Dev.restartGo (d : Dev) : Dev :=
  match d.gnd.restart with
  | none => d
  | some r =>
    let all := d.others
    if r.start.isNone && all.all (fun v => r.reached.any fun q => q.1 == v.1 && q.2.1 == v.2) then
      let n := r.reached.foldl (fun m q => max m q.2.2) (d.fld F.TCK_NUMBER_NUMBER) + 1
      let d := ({ d with gnd := { d.gnd with restart := some { r with start := some n } } }).fwDown (.start n)
      if all.isEmpty then ({ d with gnd := { d.gnd with restart := none } }).rearm n else d
    else match r.start with
      | some n => if all.all (r.armed.contains ·) then ({ d with gnd := { d.gnd with restart := none } }).rearm n else d
      | none => d

/-- The master's scheduler chooses a resume point at or before the frozen index, sends it to every station, and begins the restart. The layout
of the resume table is not in the manual: the point is free within its bound. -/
def Dev.resumeJob (d : Dev) (job : Nat) : Dev :=
  let d := d.setJob job 1
  if d.master && !d.tckRunning then
    let (w, d) := d.drawWord
    let d := { d with gnd := { d.gnd with restart := some ⟨[], [], none⟩ } }
    (d.fwDown (.resume job (w.toNat % (d.sched + 1)))).restartGo
  else d

/-- A message of the restart arrives at the master's firmware. -/
def Dev.restartHears (d : Dev) (g : Restart → Restart) : Dev :=
  if d.compUp 1 && d.master then ({ d with gnd := { d.gnd with restart := d.gnd.restart.map g } }).restartGo else d

/-- PAUSE_REQUEST: the master's scheduler receives the request. -/
def execPauseRequest (job : BitVec 16) (s : State) : Out :=
  act s fun d => if d.serving && d.compUp 1 && d.master then (d.setJob job.toNat 2).askPause job.toNat else d

/-- INBOX_MESSAGE: a message for a device arrives; it is acted on there, or goes on along the tree. -/
def execInboxMessage (x : BitVec 7) (y : BitVec 6) (m : FwMsg) (s : State) : Out :=
  act s fun d =>
    if d.serving = false then d
    else if x.toNat = d.fld F.LNK_COORD_X ∧ y.toNat = d.fld F.LNK_COORD_Y then
      match m with
      | .pause j => if d.compUp 1 && d.master then (d.setJob j 2).askPause j else d
      | .resume j p =>
        if d.compUp 1 && !d.tckRunning then
          ((d.setJob j 1).fwDown (.resume j p)).fwUp (.reached (d.fld F.LNK_COORD_X) (d.fld F.LNK_COORD_Y) (d.fld F.TCK_NUMBER_NUMBER))
        else d
      | .start n => if d.compUp 1 && !d.tckRunning then (d.fwDown (.start n)).rearm n else d
      | .reached x y n => d.restartHears fun r => { r with reached := (x, y, n) :: r.reached }
      | .armed x y => d.restartHears fun r => { r with armed := (x, y) :: r.armed }
      | .other _ => d
    else d.fwSend (d.treePort x.toNat y.toNat) x.toNat y.toNat m

/-- Every held job is killed (R410). -/
def Dev.killHeld (d : Dev) : Dev :=
  let held := d.gnd.jobs.filter (·.state == 3)
  let d := held.foldl (fun d j => d.killJob j.tag) d
  { d with gnd := { d.gnd with jobs := d.gnd.jobs.filter (·.state != 3), heldTok := none, hold := none } }

/-! ## Crash and restart (R407, R408) -/

/-- The core a component runs on (Table 1). -/
def compCore (c : Nat) : Nat :=
  match c with
  | 0 => 0 | 1 => 1 | 2 => 2 | 3 => 3 | 4 => 4 | 5 => 0 | 6 => 5 | _ => 4

/-- Crash times of a component within the last 10 minutes. -/
def Dev.crashTimes (d : Dev) (c : Nat) : List Nat :=
  (Store.get (fun _ => []) d.gnd.crashes c).filter fun t => decide (d.time < t + 600000 * msUnits)

/-- CORE_TRAP of a component's core. -/
def Dev.setTrap (d : Dev) (c : Nat) (on : Bool) : Dev :=
  let v := d.fld F.GND_STATUS_CORE_TRAP
  let b := 2 ^ compCore c
  d.setFld F.GND_STATUS_CORE_TRAP (if bitOf v (compCore c) then (if on then v else v - b) else if on then v + b else v)

/-- COMPONENT_CRASH: a component that runs or starts is stopped; `cause` is CAUSE − 1. A scheduler's crash pauses the jobs at the next
boundary until it has restarted (Table 5). -/
def execComponentCrash (c : Fin 8) (cause : Fin 4) (s : State) : Out :=
  act s fun d =>
    if d.compUp c = false then d
    else
      let d := (d.setFld (F.GND_COMP_STATE c) 0).setFld (F.GND_COMP_CAUSE c) (cause + 1)
      let d := if cause.val = 0 then d.setTrap c true else d
      let d := { d with gnd := { d.gnd with crashes := Store.put (fun _ => []) d.gnd.crashes c (d.crashTimes c ++ [d.time]) } }
      let d := (d.setFld (F.GND_COMP_RESTARTS c) (d.crashTimes c).length).satStep (F.GND_COMP_CRASHES c)
      let d := (d.raise F.GND_EVENT_CRASH 0 clsContained).countErr F.GND_ERR_COUNT_CRASHES F.GND_EVENT_COUNT_SAT 0
      if c.val = 1 then (d.gnd.jobs.filter (·.state == 1)).foldl (fun d j => d.pauseJob j.tag 4) d else d

/-- COMPONENT_RESTART: `digestOk` says that the code section still has the digest recorded at start. A component restarts, or its device
fails. -/
def execComponentRestart (c : Fin 8) (digestOk : Bool) (s : State) : Out :=
  act s fun d =>
    if d.fld (F.GND_COMP_STATE c) ≠ 0 ∨ (d.crashTimes c).isEmpty then d
    else
      let d := d.setTrap c false
      if digestOk = false ∨ 4 ≤ (d.crashTimes c).length then
        let d := (d.setFld (F.GND_COMP_STATE c) 5).setFld F.GND_STATUS_STATE 5
        ((d.raise F.GND_EVENT_RESTART_FAIL 0 clsRing).pullRipcord 12).killAll
      else
        let d := (d.setFld (F.GND_COMP_STATE c) 2).raise F.GND_EVENT_RESTARTED 0 clsInfo
        if c.val = 1 then (d.gnd.jobs.filter (·.state == 4)).foldl (fun d j => d.resumeJob j.tag) d else d

/-- The gondola complex is reset: the GND block returns to its reset values, and the boot ROM is back in its load state (R408, R451). -/
def Dev.gondolaReset (d : Dev) : Dev :=
  let mine := fun (k : Nat) => k / 0x10000 == 0xA || (decide (R.GND_COMP 0 ≤ k) && decide (k ≤ R.GND_COMP 7))
  { d with regs := d.regs.filter fun e => !(mine e.1), gnd := Gnd.reset, eth := { d.eth with load := none } }

/-- WATCHDOG_EXPIRY: the hardware acts in the supervisor's place; the expiry is recorded in the block it has reset. -/
def execWatchdogExpiry (s : State) : Out :=
  act s fun d =>
    match d.gnd.wdog with
    | none => d
    | some t =>
      let d := ((d.at_ t).fatal 2).gondolaReset
      (d.raise F.GND_EVENT_WDOG 0 clsFatal).countErr F.GND_ERR_COUNT_WDOG F.GND_EVENT_COUNT_SAT 0

/-! ## Lease and hold (R409, R410) -/

/-- The lease runs from now on; GND_STATUS.LEASE reads 1 while a session is open. -/
def Dev.renewLease (d : Dev) : Dev := { d with gnd := { d.gnd with lease := some (d.time + d.fld F.GND_LEASE_MS * msUnits) } }

/-- The hold runs from now on. -/
def Dev.startHold (d : Dev) : Dev := { d with gnd := { d.gnd with hold := some (d.time + d.fld F.GND_HOLD_SECONDS * (1000 * msUnits)) } }

/-- The hold ends: every held job is killed. -/
def Dev.endHold (d : Dev) : Dev :=
  let d := d.killHeld.raise F.GND_EVENT_HOLD_EXPIRED 0 clsInfo
  if d.gnd.session.isSome then d else d.setFld F.GND_STATUS_LEASE 0

/-- The lease ends: its session closes, every running job is paused and held, and the hold begins. -/
def Dev.endLease (d : Dev) : Dev :=
  let d := d.raise F.GND_EVENT_LEASE_EXPIRED 0 clsInfo
  let tok := d.gnd.session.map (·.1)
  let d := { d with gnd := { d.gnd with session := none, heldTok := tok, lease := none } }
  let d : Dev := (d.gnd.jobs.filter fun (j : Job) => j.state == 1 || j.state == 4).foldl (fun (d : Dev) (j : Job) => d.pauseJob j.tag 3) d
  let d := { d with gnd := { d.gnd with jobs := d.gnd.jobs.map fun (j : Job) => if j.state = 2 then { j with state := 3 } else j } }
  let d : Dev := (d.setFld F.GND_STATUS_LEASE 2).startHold
  if (d.fld F.GND_HOLD_SECONDS : Nat) = 0 then d.endHold else d

/-- LEASE_EXPIRY: the lease runs out. -/
def execLeaseExpiry (s : State) : Out :=
  act s fun d =>
    match d.gnd.lease with
    | some t => if d.gnd.session.isSome then (d.at_ t).endLease else d
    | none => d

/-- HOLD_EXPIRY: the hold runs out. -/
def execHoldExpiry (s : State) : Out :=
  act s fun d =>
    match d.gnd.hold with
    | some t => (d.at_ t).endHold
    | none => d

/-! ## Register writes (R409, R413) -/

/-- A write to the GND block. -/
def Dev.writeGND (d : Dev) (off v : Nat) : Dev :=
  if off = R.GND_LEASE then
    if F.GND_LEASE_MS.ofNat v = 0 then d.rsvWrite off
    else
      let d := d.plain off v
      if bitOf v 63 then d.renewLease else d
  else if off = R.GND_HOLD then
    if 3600 < F.GND_HOLD_SECONDS.ofNat v then d.rsvWrite off
    else
      let d := d.plain off v
      if bitOf v 63 then d.startHold else d
  else if off = R.GND_WDOG then
    if F.GND_WDOG_MS.ofNat v = 0 then d.rsvWrite off
    else
      let d := d.plain off v
      if bitOf v 63 ∨ d.bit F.GND_WDOG_EN = false ∨ d.gnd.wdog.isNone then d.feedWdog else d
  else d.plain off v

/-- CORE_RUN (R393): a write of GND_CTRL. -/
def execCoreRun (t : Tag) (v : Word) (s : State) : Out := act s fun d => d.fw t.toNat R.GND_CTRL fun d => d.writeGND R.GND_CTRL v.toNat
/-- LEASE_RENEW (R409): a write of GND_LEASE with RENEW = 1. -/
def execLeaseRenew (t : Tag) (v : Word) (s : State) : Out :=
  act s fun d => d.fw t.toNat R.GND_LEASE fun d => d.writeGND R.GND_LEASE (v.toNat % 2 ^ 63 + 2 ^ 63)
/-- HOLD_START (R409): a write of GND_HOLD with START = 1. -/
def execHoldStart (t : Tag) (v : Word) (s : State) : Out :=
  act s fun d => d.fw t.toNat R.GND_HOLD fun d => d.writeGND R.GND_HOLD (v.toNat % 2 ^ 63 + 2 ^ 63)
/-- WDOG_FEED (R408): a write of GND_WDOG with FEED = 1. -/
def execWdogFeed (t : Tag) (v : Word) (s : State) : Out :=
  act s fun d => d.fw t.toNat R.GND_WDOG fun d => d.writeGND R.GND_WDOG (v.toNat % 2 ^ 63 + 2 ^ 63)

end Sys2Proof.Machine
end

