-- ==== Sys2Proof/Machine/Power.lean ====
section
/-! DEFINITION. Supplies, start-up, the power governor, throttling, trips, and what a power failure leaves (R414 to R427, R433, R434, R464). -/

namespace Sys2Proof.Machine

/-! ## Start and loss (R414 to R416, R433, R464) -/

/-- The bits of ALERT (R467). -/
def alertId : Nat := 1
def alertTherm : Nat := 2
def alertFatal : Nat := 4
def alertElec : Nat := 8
def Dev.alarm (d : Dev) (bit : Nat) : Dev := { d with mgmt := { d.mgmt with alert := d.mgmt.alert ||| bit } }

/-- A device that has lost, or not yet begun, everything volatile; time runs on, and so do the free values (log 2), and the reference clock stays as
it is. -/
def Dev.blank (d : Dev) (p : Pwr) : Dev :=
  { Dev.reset with time := d.time, free := d.free, pwr := { p with refClk := d.pwr.refClk }, nvs := { Nvs.reset with since := d.time },
                   mgmt := if p.v33 then d.mgmt else Mgmt.reset }

/-- What survives of an APPEND and of a version advance in progress: `blown` bits of the advance have been blown; the record was not begun (0),
torn in copy A (1), committed in A (2), or in both (3) (R382, R433, Table 6). -/
def State.interrupted (s : State) (blown : Nat) (stage : Fin 4) : State :=
  let s := match s.dev.sec.op with
    | some o => if o.op = 1 then s.svnBlow (o.imm % 8) (min blown (o.imm / 256 % 256 - s.svn (o.imm % 8))) else s
    | none => s
  match s.dev.nvs.op with
  | some o =>
    if o.op ≠ 1 ∨ stage.val = 0 then s
    else if stage.val = 1 then s.logAppend o.cls 0 { o.entry with valid := false }
    else if stage.val = 2 then s.logAppend o.cls 0 o.entry
    else (s.logAppend o.cls 0 o.entry).logAppend o.cls 1 o.entry
  | none => s

/-- Power is lost, the supplies now as given. -/
def State.powerLost (s : State) (p : Pwr) (blown : Nat) (stage : Fin 4) : State := (s.interrupted blown stage).on fun d => d.blank p

/-- POWER_FAILURE: the 48 V supply, or the auxiliary one, leaves its valid range. A 48 V supply that leaves ends an electrical trip's hold. -/
def execPowerFailure (main : Bool) (blown : Nat) (stage : Fin 4) (s : State) : Out :=
  let p := s.dev.pwr
  let p' := if main then { Pwr.reset with v48 := false, v33 := p.v33 } else { Pwr.reset with v48 := p.v48, v33 := false, on := p.on, tripped := p.tripped }
  .next (s.powerLost p' blown stage)

/-- SUPPLY_VALID: a supply becomes valid; with the later one the device's reset begins. The management controller samples the slot with the
auxiliary supply. -/
def execSupplyValid (main : Bool) (slot : Fin 16) (s : State) : Out :=
  let p := s.dev.pwr
  if main then .next (if p.v48 then s else s.on fun d => d.blank { Pwr.reset with v33 := p.v33 })
  else .next (if p.v33 then s else s.on fun d =>
    { d.blank { Pwr.reset with v48 := p.v48, on := p.on, tripped := p.tripped } with mgmt := { Mgmt.reset with slot := slot } })

/-- AUX_STANDBY: only the auxiliary supply is valid; the device answers nothing, and its management controller runs. -/
def execAuxStandby (slot : Fin 16) (s : State) : Out :=
  .next (if s.dev.pwr.v48 || s.dev.pwr.v33 then s
    else s.on fun d => { d.blank { Pwr.reset with v48 := false } with mgmt := { Mgmt.reset with slot := slot } })

/-- ELECTRICAL_TRIP: the input stage goes off, a power failure; the auxiliary side runs on and reports it. -/
def execElectricalTrip (blown : Nat) (stage : Fin 4) (s : State) : Out :=
  let p := s.dev.pwr
  .next (if p.v48 && p.on then
      (s.powerLost { Pwr.reset with v33 := p.v33, on := false, tripped := true } blown stage).on fun d => if p.v33 then d.alarm alertElec else d
    else s)

/-- TRIP_RECOVERY: after an electrical trip the 48 V input leaves its valid range and returns; the device starts anew. -/
def execTripRecovery (s : State) : Out :=
  let p := s.dev.pwr
  .next (if p.tripped then s.on fun d => d.blank { Pwr.reset with v33 := p.v33 } else s)

/-- DIE_POR_RELEASE: the fuses are sensed and the slot pins sampled (R415, R453); the cores count their cycles from here (R131). -/
def execDiePorRelease (slot : Fin 16) (s : State) : Out :=
  let p := s.dev.pwr
  .next (if (p.v48 && p.v33 && p.on) = false ∨ p.die then s
    else (s.on fun d => ({ d with pwr := { d.pwr with die := true, dieAt := d.time } }).setFld F.DEV_STATUS_SLOT slot).sense)

/-- The MAC of the identity record the boot ROM uses: copy A when it is valid, else copy B; valid with the fused serial (R427). -/
def State.identity (s : State) : Option Nat :=
  let ok := fun (c : Option (Nat × Nat)) => c.bind fun i => if i.1 = s.serial then some i.2 else none
  (ok s.persist.identA).orElse fun _ => ok s.persist.identB

/-- BOOT_ROM_START: the identity region gives ETH_MAC and the port trains, or Ethernet stays disabled (R415, R416). Without the reference clock
start-up does not reach the load state (R461). -/
def execBootRomStart (s : State) : Out :=
  actS s fun s =>
    if s.dev.pwr.booted then s
    else s.on fun d =>
      let d := { d with pwr := { d.pwr with booted := true } }
      let d := (if d.pwr.refClk then d.setFld F.PWR_STATUS_STATE 2 else d).setFld F.NVS_STATUS_SPARES s.persist.spares
      match s.identity with
      | some mac => ((d.setFld F.ETH_MAC_MAC mac).setFld F.NVS_STATUS_ID_VALID 1).setFld F.ETH_STATUS_LINK 1
      | none => ((d.setFld F.ETH_CTRL_ENABLE 0).raise F.NVS_EVENT_ID_LOST 0 clsInfo).alarm alertId

/-! ## The governor (R419 to R422) -/

/-- Units of power to the watt: the slew of SLEW × VIN is then exact per time unit. -/
def wattUnits : Nat := 144000000

/-- The declared level of an index, 0 after a stop, a ripcord or a kill (R421). -/
def Dev.level (d : Dev) (i : Nat) : Nat :=
  if d.pwr.flat || !d.bit F.PWR_PROFILE_VALID then 0 else Store.get (fun _ => 0) d.pwr.levels i

/-- The declared level of the tick now running: a slip tick takes the greater of its neighbours'. -/
def Dev.levelNow (d : Dev) : Nat :=
  let i := (d.reg R.TCK_SCHED).toNat
  if d.fld F.TCK_STATUS_STATE = 3 then max (d.level i) (d.level (i + 1)) else d.level i

/-- The boundaries that markers have announced, with the levels of the ticks they begin, from schedule index i on; and the index that the last of them
begins, none after a stop (R421). -/
def Dev.announced (d : Dev) : List Fire → Nat → List (Nat × Nat) × Option Nat
  | [], i => ([], some i)
  | f :: fs, i =>
    if f.stop then ([], none)
    else
      let j := if f.start then 0 else if f.slip then i else i + 1
      let (l, e) := d.announced fs j
      ((f.nom, if f.slip then max (d.level i) (d.level (i + 1)) else d.level j) :: l, e)

/-- The next eight boundaries with the levels of the ticks they begin: as announced, and beyond that as predicted (R35, R38, R421). -/
def Dev.levelsAhead (d : Dev) : List (Nat × Nat) :=
  let p := d.baseNs d.plannedNs
  let (l, e) := d.announced d.tick.fires (d.reg R.TCK_SCHED).toNat
  let next := match d.tick.fires.getLast? with | some f => some (f.nom + p) | none => d.tick.predicted
  match e, next with
  | some i, some t => (l ++ (List.range 8).map fun j => (t + j * p, d.level (i + j + 1))).take 8
  | _, _ => l

/-- E now, in power units: what it was, fallen at the slew; the running tick's level; and the ramps to the next eight, also ahead of an announced
start. -/
def Dev.powerE (d : Dev) (rate : Nat) : Nat :=
  if d.bit F.PWR_PROFILE_VALID = false then 0
  else
    let now := if d.tckRunning then d.levelNow * wattUnits else 0
    let ahead := if d.tckRunning || !d.tick.fires.isEmpty then
      (d.levelsAhead.map fun x => x.2 * wattUnits - rate * (x.1 - d.time)).foldl max 0 else 0
    max (max (d.pwr.e - rate * (d.time - d.pwr.at_)) now) ahead

/-- Bring E, D, T and the ballast up to date with a measured demand in W. -/
def Dev.govern (d : Dev) (demand : Nat) : Dev :=
  let rate := d.fld F.PWR_CTRL_SLEW * d.fld F.PWR_IN_VIN
  let e := d.powerE rate
  let dd := max (demand * wattUnits) (d.pwr.d - rate * (d.time - d.pwr.at_))
  let d := { d with pwr := { d.pwr with e := e, d := dd, at_ := d.time } }
  let k := d.fld F.PWR_THROTTLE_LEVEL
  let t := min (d.fld F.PWR_LIMIT_LIMIT_W) (max (e * (16 - k) / 16) dd / wattUnits)
  let d := (d.setFld F.PWR_TARGET_TARGET_W t).setFld F.PWR_TARGET_DEMAND_W demand
  d.setFld F.PWR_TARGET_BALLAST_W (if d.bit F.PWR_CTRL_GOV_EN then t - demand else 0)

/-- BALLAST_FILL: ballast fills the difference between demand and target (R422). -/
def execBallastFill (demand : BitVec 16) (s : State) : Out := act s fun d => d.govern demand.toNat

/-- A tick whose measured demand exceeds its declared level by more than 5% (R423). -/
def Dev.overCheck (d : Dev) (demand : Nat) : Dev :=
  if d.bit F.PWR_PROFILE_VALID ∧ d.levelNow * 105 < demand * 100 then
    (d.countErr F.PWR_ERR_COUNT_OVER F.PWR_EVENT_COUNT_SAT 0).raise F.PWR_EVENT_OVER_PROFILE 0 clsInfo
  else d

/-- BUS_HOLD: the deficit exceeds what the bus holds (R423). The freeze cycles it makes are FREEZE_CYCLE commands. -/
def execBusHold (s : State) : Out :=
  act s fun d =>
    if d.bit F.PWR_STATUS_HOLD then d
    else ((d.setFld F.PWR_STATUS_HOLD 1).countErr F.PWR_ERR_COUNT_HOLDS F.PWR_EVENT_COUNT_SAT 0).raise F.PWR_EVENT_BUS_HOLD 0 clsInfo

/-- BUS_HOLD_END: the bus has recovered. -/
def execBusHoldEnd (s : State) : Out := act s fun d => d.setFld F.PWR_STATUS_HOLD 0

/-! ## Sensors, throttling, trips (R424, R425) -/

/-- The hottest stack. -/
def hbmMax (x : Sensors) : Nat := x.hbm.foldl (fun m t => max m t.toNat) 0

/-- The measured values go into their registers, and the input energy is counted. -/
def Dev.measure (d : Dev) (x : Sensors) : Dev :=
  let all := d.pwr.energyRem + d.fld F.PWR_IN_PIN * (d.time - d.pwr.energyAt)
  let d := d.count F.PWR_ENERGY_MJ (all / wattUnits)
  let d := { d with pwr := { d.pwr with energyRem := all % wattUnits, energyAt := d.time } }
  let d := ((d.setFld F.PWR_IN_VIN x.vin.toNat).setFld F.PWR_IN_IIN x.iin.toNat).setFld F.PWR_IN_PIN x.pin.toNat
  ((d.setFld F.PWR_TEMP_DIE_MAX x.die.toNat).setFld F.PWR_TEMP_HBM_MAX (hbmMax x)).setFld F.PWR_TEMP_CORE x.core.toNat

/-- The causes of PWR_THROTTLE.CAUSE that hold. -/
def Dev.causes (d : Dev) (x : Sensors) : Nat :=
  b2n (decide (d.fld F.PWR_LIMIT_LIMIT_W < x.avg100.toNat)) + 2 * b2n (decide (d.fld F.PWR_LIMIT_PEAK_W < x.avg10.toNat)) +
    4 * b2n (decide (d.fld F.PWR_THERM_DIE_C ≤ x.die.toNat)) + 8 * b2n (decide (d.fld F.PWR_THERM_HBM_C ≤ hbmMax x))

/-- The governor evaluates the four causes, and the level follows. -/
def Dev.throttle (d : Dev) (x : Sensors) : Dev :=
  let d := (d.measure x).govern x.demand.toNat
  let c := d.causes x
  let k := d.fld F.PWR_THROTTLE_LEVEL
  let d := d.setFld F.PWR_THROTTLE_CAUSE c
  if c ≠ 0 then
    let d := { d with pwr := { d.pwr with causeAt := d.time } }
    if k < 7 then (d.setFld F.PWR_THROTTLE_LEVEL (k + 1)).raise F.PWR_EVENT_THROTTLE 0 clsInfo else d
  else if 0 < k ∧ d.pwr.causeAt + 1000000 * nsUnits ≤ d.time then
    let d := d.setFld F.PWR_THROTTLE_LEVEL (k - 1)
    if k = 1 then d.raise F.PWR_EVENT_THROTTLE_CLEAR 0 clsInfo else d
  else d

/-- Whether the governor evaluates now: at a boundary while the domain runs, so that no level changes within a tick (R424). -/
def Dev.evalDue (d : Dev) : Bool := !d.tckRunning || d.pwr.evalAt == some d.time

/-- THROTTLE_EVAL: the governor's evaluation, at a boundary or, while no domain runs, 100 µs after the last (log 184). -/
def execThrottleEval (x : Sensors) (s : State) : Out :=
  actS s fun s =>
    if s.dev.evalDue = false then s
    else (s.on fun d => ({ (d.throttle x) with pwr := { (d.throttle x).pwr with evalAt := none } }).lifeTime).lifePump

/-- THERMAL_TRIP: a sensor has reached its trip temperature. -/
def execThermalTrip (x : Sensors) (s : State) : Out :=
  actS s fun s =>
    if x.die.toNat < 105 ∧ hbmMax x < 100 then s
    else
      (s.on fun d =>
        let d := if d.fld F.PWR_STATUS_STATE = 4 then d else d.lifeAdd 3 1 true
        let d := (d.measure x).setFld F.PWR_STATUS_STATE 4
        ((d.raise F.PWR_EVENT_THERM_TRIP 0 clsFatal).alarm alertTherm).fatal 3).lifePump

/-! ## Register writes (R419, R425, R434) -/

/-- TRIP_CLR: a thermal trip clears while every sensor reads below its throttle threshold. -/
def Dev.tripClr (d : Dev) : Dev :=
  if d.fld F.PWR_STATUS_STATE = 4 ∧ d.fld F.PWR_TEMP_DIE_MAX < d.fld F.PWR_THERM_DIE_C ∧ d.fld F.PWR_TEMP_HBM_MAX < d.fld F.PWR_THERM_HBM_C then
    d.setFld F.PWR_STATUS_STATE (if d.fld F.GND_STATUS_STATE < 3 then 2 else 3)
  else d

/-- A write to the PWR block. -/
def Dev.writePWR (d : Dev) (off v : Nat) : Dev :=
  if off = R.PWR_CTRL then
    let k := F.PWR_CTRL_SLEW.ofNat v
    if k = 0 ∨ 40 < k then d.rsvWrite off
    else
      let d := d.plain off v
      if bitOf v 2 then d.tripClr else d
  else if off = R.PWR_PROFILE then
    let st := d.fld F.TCK_STATUS_STATE
    d.guarded (decide (st = 1 ∨ st = 2 ∨ st = 3)) (bitOf v 63 && F.PWR_PROFILE_LEN.ofNat v == 0) F.PWR_EVENT_LOCKED_WRITE off fun d =>
      let d := d.plain off v
      { d with pwr := { d.pwr with levels := [], e := 0 } }
  else if off = R.PWR_LIMIT then
    (if 2600 < F.PWR_LIMIT_LIMIT_W.ofNat v ∨ 3000 < F.PWR_LIMIT_PEAK_W.ofNat v then d.rsvWrite off else d.plain off v)
  else if off = R.PWR_THERM then
    (if 100 < F.PWR_THERM_DIE_C.ofNat v ∨ 90 < F.PWR_THERM_HBM_C.ofNat v then d.rsvWrite off else d.plain off v)
  else d.plain off v

/-- TRIP_CLR (R425): a write of PWR_CTRL with TRIP_CLR = 1. -/
def execTripClr (t : Tag) (v : Word) (s : State) : Out :=
  act s fun d => d.fw t.toNat R.PWR_CTRL fun d => d.writePWR R.PWR_CTRL ((v ||| 4).toNat)

end Sys2Proof.Machine
end

