-- ==== Sys2Proof/Machine/Tel.lean ====
section
/-! DEFINITION. Telemetry and the management bus: network parity, fatal errors, the event queue and what firmware does with a record, monitors,
and SMBus bytes (R404, R438 to R447, R467). -/

namespace Sys2Proof.Machine

/-! ## Network parity and fatal errors (R438, R439) -/

/-- NETWORK_HEADER_PARITY: the i-th waiting request is dropped; the error is device-fatal. -/
def execNetworkHeaderParity (i : Nat) (s : State) : Out :=
  act s fun d =>
    let d := match d.home.reqs[i]? with | some r => d.unwait r.id | none => d
    (d.raise F.TEL_EVENT_HDR_PARITY 0 clsFatal).fatal 1

/-- NETWORK_DATA_PARITY: the i-th waiting request, the i-th descriptor or a stack's running command is answered with an error. -/
def execNetworkDataParity (at_ : ParityAt) (s : State) : Out :=
  act s fun d =>
    let d := (d.countErr F.TEL_ERR_COUNT_PARITY F.TEL_EVENT_COUNT_SAT 0).raise F.TEL_EVENT_PARITY 0 clsContained
    match at_ with
    | .request i => match d.home.reqs[i]? with
      | some r => (d.unwait r.id).respond r 0 true
      | none => d
    | .descriptor i => match d.str.descs[i]? with
      | some q => d.descFault q 7
      | none => d
    | .keel k => match d.kQueue k with
      | c :: _ => if c.performed then d else d.kPerformed k 5 0
      | [] => d

/-- KERNEL_SRAM_UNCORRECTABLE (R439, cause 4). -/
def execKernelSramUncorrectable (s : State) : Out := act s fun d => d.fatal 4

/-! ## The event queue (R404, R442 to R444) -/

/-- Take the head record: TEL_EVQ_HI and TEL_EVQ_LO; both read 0 on an empty queue. -/
def Dev.evqPop (d : Dev) : Dev × Word × Word :=
  match d.tel.evq with
  | [] => (d, 0, 0)
  | r :: rs => ({ d with tel := { d.tel with evq := rs } }, r)

/-- The job of a contained error, as the block's fault register shows it: of a core's set, of a context, or of a keel command. -/
def Dev.recordJob (d : Dev) (block unit : Nat) : Option Nat :=
  match block with
  | 4 => some (d.fld (F.KEL_CMD_ERR_JOB unit))
  | 5 => some (d.fld (ctxJob (d.fld (F.SCP_FAULT_SET unit)) unit))
  | 6 => some (d.fld (ctxJob (d.fld (F.MTX_FAULT_HALF unit)) unit))
  | 7 => some (d.fld (F.STR_CTX_JOB (d.fld F.STR_FAULT_CTX)))
  | _ => none

/-- A job's policy for a contained error (R404). -/
def Dev.policy (d : Dev) (job : Nat) : Dev :=
  match d.gnd.jobs.find? fun j => j.tag == job && j.state == 1 with
  | none => d
  | some j =>
    match j.policy with
    | 0 => d
    | 1 => d.pauseJob job 2
    | _ =>
      let d := d.killJob job
      { d with gnd := { d.gnd with jobs := d.gnd.jobs.filter (·.tag ≠ job) } }

/-- Firmware takes a record: it goes to the log; a contained error meets its job's policy; a ripcord during the hold kills the held jobs (Table 7
of the firmware chapter). -/
def Dev.firmwareTakes (d : Dev) (hi lo : Word) : Dev :=
  let cls := hi.toNat / 2 ^ 28 % 8
  let block := hi.toNat / 2 ^ 24 % 16
  let bit := hi.toNat / 2 ^ 18 % 64
  if d.serving = false ∨ d.compUp 7 = false then d
  else
    let (w, d) := d.drawWord
    let d := d.logRecord 7 (if 2 ≤ cls then 0 else 2) w.toNat (leBytes 8 hi.toNat ++ leBytes 8 lo.toNat)
    if cls = 2 then
      match d.recordJob block (hi.toNat % 65536) with
      | some j => d.policy j
      | none => d
    else if block = 13 ∧ bit = F.TEL_EVENT_RIPCORD.lo ∧ d.gnd.hold.isSome then d.killHeld
    else d

/-- Firmware takes the contained faults that no event bit announces (R203): each goes to the log, and meets its job's policy where it ended a kernel
(log 185). -/
def Dev.takeReports (d : Dev) : Dev :=
  if d.serving = false ∨ d.compUp 7 = false then d
  else
    let rs := d.gnd.reports
    rs.foldl (fun d r =>
      let (w, d) := d.drawWord
      let d := d.logRecord 7 0 w.toNat r.2.1
      if r.2.2 then d.policy r.1 else d) { d with gnd := { d.gnd with reports := [] } }

/-- EVQ_POP: a read of TEL_EVQ_LO removes the head record, which firmware then takes, after the faults it has been told of. -/
def execEvqPop (t : Tag) (s : State) : Out :=
  act s fun d => d.fw t.toNat R.TEL_EVQ_LO fun d =>
    let d := d.takeReports
    if d.tel.evq.isEmpty then d
    else
      let (d, hi, lo) := d.evqPop
      d.firmwareTakes hi lo

/-! ## Register writes (R440, R446, R447) -/

/-- The unit numbers an event may name (Table 6). -/
def eventUnits (e : Nat) : Nat :=
  if 1 ≤ e ∧ e ≤ 5 then 144 else if 6 ≤ e ∧ e ≤ 9 then 12 else if e = 11 ∨ e = 12 then 12 else if e = 13 ∨ e = 14 then 4 else 1

/-- A write to the TEL block. -/
def Dev.writeTEL (d : Dev) (off v : Nat) : Dev :=
  if off = R.TEL_CTRL then
    if 5 < F.TEL_CTRL_IRQ_CORE.ofNat v then d.rsvWrite off
    else
      let d := d.plain off v
      if bitOf v 15 then d.setFld F.TEL_FATAL_CAUSE 0 else d
  else if off = R.TEL_RIPCORD_PULL then d.writePull v
  else if R.TEL_PMSEL 0 ≤ off ∧ off ≤ R.TEL_PMSEL 15 then
    let e := (F.TEL_PMSEL_EVENT 0).ofNat v
    let u := (F.TEL_PMSEL_UNIT 0).ofNat v
    if 15 < e ∨ (u ≠ 0xFF ∧ eventUnits e ≤ u) then d.rsvWrite off else d.plain off v
  else d.plain off v

/-- FATAL_CLR (R439): a write of TEL_CTRL with FATAL_CLR = 1. -/
def execFatalClr (t : Tag) (v : Word) (s : State) : Out :=
  act s fun d => d.fw t.toNat R.TEL_CTRL fun d => d.writeTEL R.TEL_CTRL (v ||| 0x8000).toNat

/-- All sixteen monitors are copied at a boundary (R446). -/
def Dev.snapshot (d : Dev) : Dev :=
  if d.bit F.TEL_CTRL_SNAP_EN = false then d
  else
    let d := (List.range 16).foldl (fun d k => d.setReg (R.TEL_PMS k) (d.reg (R.TEL_PMC k))) d
    d.setReg R.TEL_SNAP_TICK (d.reg R.TCK_NUMBER)

/-! ## The management bus (R467, Table 5) -/

/-- Bits of ALERT whose condition holds. -/
def Dev.alertNow (d : Dev) : Nat :=
  alertId * b2n (d.bit F.NVS_EVENT_ID_LOST) + alertTherm * b2n (d.fld F.PWR_STATUS_STATE == 4) + alertFatal * b2n (d.fld F.TEL_FATAL_CAUSE != 0) +
    alertElec * b2n d.pwr.tripped

/-- A byte of Table 5. -/
def Dev.mgmtByte (d : Dev) (a : Nat) : Nat :=
  let id := (d.reg R.DEV_ID).toNat
  let up := fun (v : Nat) => if d.pwr.die then v else 0
  match a with
  | 0x00 => id / 2 ^ 48 % 256
  | 0x01 => id / 2 ^ 56
  | 0x02 => id / 2 ^ 32 % 256
  | 0x03 => id / 2 ^ 40 % 256
  | 0x04 => id / 2 ^ 8 % 256
  | 0x08 => 8 * b2n (d.fld F.ETH_STATUS_LINK == 2) + 4 * b2n d.pwr.die + 2 * b2n (d.pwr.v48 && d.pwr.on) + b2n d.pwr.v33
  | 0x09 => d.mgmt.alert
  | 0x0A => up (d.fld F.PWR_TEMP_DIE_MAX)
  | 0x0B => up (d.fld F.PWR_TEMP_HBM_MAX)
  | 0x0C => up (d.fld F.PWR_IN_PIN % 256)
  | 0x0D => up (d.mgmt.pinHi.getD (d.fld F.PWR_IN_PIN / 256))
  | 0x0E => up (d.fld F.TEL_FATAL_CAUSE)
  | n => if 0x10 ≤ n ∧ n ≤ 0x17 then up ((d.reg R.SEC_SERIAL).toNat / 256 ^ (n - 0x10) % 256) else 0

/-- MGMT_BYTE_READ: a read of PIN_LO latches PIN_HI until it is read. The controller answers while the auxiliary supply is valid. -/
def execMgmtByteRead (a : BitVec 8) (s : State) : Out :=
  .next (if s.dev.pwr.v33 then s.on fun d =>
    let hi := if a = 0x0C then some (d.fld F.PWR_IN_PIN / 256) else if a = 0x0D then none else d.mgmt.pinHi
    { d with mgmt := { d.mgmt with answer := d.mgmtByte a.toNat, pinHi := hi } }
  else s)

/-- MGMT_BYTE_WRITE: ALERT bits clear by writing 1, and set again at once while their condition holds; other bytes ignore writes. -/
def execMgmtByteWrite (a v : BitVec 8) (s : State) : Out :=
  .next (if s.dev.pwr.v33 && a == 0x09 then s.on fun d =>
    { d with mgmt := { d.mgmt with alert := (d.mgmt.alert &&& (255 - v.toNat)) ||| d.alertNow } }
  else s)

end Sys2Proof.Machine
end

