-- ==== Sys2Proof/Machine/Boundary.lean ====
section
/-! DEFINITION. Boundaries: what fires with one, the settle window, and the overrun of a miss (R16, R19, R23, R24, R29, R38 to R46, R61, R66, R74 to
R78, R102 to R104, R192, R285, R419, R423, R446). -/

namespace Sys2Proof.Machine

/-! ## The tick that begins (R23, R24, R32, R38 to R40, R46, R49) -/

/-- TCK_BASE_TIME and TCK_BASE_TICK take the boundary that fires now (R38). -/
def Dev.baseNow (d : Dev) : Dev := (d.setFld F.TCK_BASE_TIME_TIME d.tai).setFld F.TCK_BASE_TICK_TICK (d.fld F.TCK_NUMBER_NUMBER)

/-- The period in force from this boundary on. -/
def Dev.periodNow (d : Dev) (f : Fire) : Dev :=
  if f.start then (d.setFld F.TCK_PERIOD_CURRENT_NS (f.period.getD (d.fld F.TCK_PERIOD_PERIOD_NS))).baseNow
  else match f.period with
    | some p => ((d.setFld F.TCK_PERIOD_CURRENT_NS p).baseNow).raise F.TCK_EVENT_PERIOD_CHANGE 0 clsInfo
    | none => d

/-- The prediction of the boundary after one, and what the tick unit forgets of ticks long past. -/
def Dev.predictNext (d : Dev) (f : Fire) (rest : List Fire) : Dev :=
  let next := match rest with | g :: _ => g.nom | [] => f.nom + d.baseNs (d.fld F.TCK_PERIOD_CURRENT_NS)
  let d := d.setFld F.TCK_STATUS_SLIP_PENDING (b2n (rest.any (·.slip)))
  { d with tick := { d.tick with fires := rest, predicted := some next, settled := false, slips := d.tick.slips.filter fun k => decide (f.tick ≤ k + 16),
                                 slipLog := d.tick.slipLog.filter fun k => decide (f.tick < k + 256) } }

/-- A slip tick begins (R46): the schedule index holds. -/
def Dev.slipTick (d : Dev) : Dev :=
  ((d.setFld F.TCK_STATUS_STATE 3).countErr F.TCK_MISS_COUNT_SLIPS F.TCK_EVENT_COUNT_SAT 0).raise F.TCK_EVENT_SLIP 0 clsInfo

/-- A tick of a new schedule index begins (R24). -/
def Dev.indexTick (d : Dev) (start : Bool) : Dev :=
  (d.setFld F.TCK_STATUS_STATE 2).setFld F.TCK_SCHED_INDEX (if start then 0 else d.sched + 1)

/-! ## Ring modes (R19, R66, R78, R103, R104) -/

/-- The last schedule index of the final rotation, plus 1 (R61, R66). -/
def Dev.listEnd (d : Dev) : Nat := d.startIdx + max (d.listLen 0) (d.listLen 1) * d.ringN

/-- At the first boundary after every return hop of both directions ACTIVE clears and LIST_END is raised (R66). -/
def Dev.carouselIdle (d : Dev) : Dev :=
  let home := (List.range 2).all fun dir => decide (d.listLen dir ≤ d.retCount dir) && decide (d.listLen dir ≤ d.outCount dir)
  if d.tethered && home then
    (((d.setFld F.TTH_STATUS_ACTIVE 0).setFld F.TTH_STATUS_DRAINING 0).setFld F.TTH_STATUS_RETURN 0).raise F.TTH_EVENT_LIST_END 0 clsInfo
  else d

/-- All slots return to Free, nothing is in flight, and the turnaround tick begins in the new mode (R19, R103, R104, R286). -/
def Dev.turnaround (d : Dev) (mode : Nat) : Dev :=
  let d := ((d.setFld F.TTH_CTRL_MODE mode).freeSlots).cacheInv
  let d := (d.setFld F.TTH_RELAY_STATUS_INFLIGHT 0).setFld F.TTH_RELAY_STATUS_COMPLETE 0
  let d := { d with ring := { d.ring with turnaround := true, held := none, launched := none, cur := [] } }
  if mode = 1 then d.nextSeq 0 else d

/-- A pending mode change meets its boundary (R78). -/
def Dev.modeChange (d : Dev) : Dev :=
  let d := { d with ring := { d.ring with turnaround := false } }
  if d.bit F.TTH_MODE_REQ_PENDING && d.fld F.TTH_MODE_REQ_AT_INDEX == d.sched % 2 ^ 48 then
    let d := d.setFld F.TTH_MODE_REQ_PENDING 0
    let target := d.fld F.TTH_MODE_REQ_TARGET
    if (if target = 1 then d.bit F.TTH_STATUS_ACTIVE else d.fld F.TTH_RELAY_STATUS_INFLIGHT != 0) then
      (d.raise F.TTH_EVENT_MODE_ERR 0 clsRing).pullRipcord 9
    else d.turnaround target
  else d

/-- A slot that a stopped rotation left undrained returns to Free, with what it held: references, sections and buffers (log 179). -/
def Dev.reclaim (d : Dev) (k : Nat) : Dev :=
  let q := d.slot k
  if q.live || d.drained k then d
  else
    let d := q.refs.foldl (fun d t => d.unrefSlot t) d
    let d := { d with codec := { d.codec with secs := d.codec.secs.filter fun x => x.2.slot ≠ k } }
    ((d.setFlags k false false false false true).freeFrames (d.inPort (slotDir k)) q.frames).setSlot k { Slot.free with next := q.next }

/-- ACTIVE sets at the boundary that begins index A − 1 (R66). The lists start anew: nothing of a stopped rotation goes on (R79). -/
def Dev.carouselStart (d : Dev) : Dev :=
  if d.bit F.TTH_CTRL_ENABLE && !d.bit F.TTH_CTRL_MODE && !d.bit F.TTH_STATUS_ACTIVE && d.sched + 1 == d.startIdx then
    let a := d.startIdx
    let d := (List.range 6).foldl Dev.reclaim d
    { d.setFld F.TTH_STATUS_ACTIVE 1 with
      ring := { d.ring with own := [(0, a), (1, a)], arr := [(0, a + 1), (1, a + 1)], ret := [], out := [], returns := [] } }
  else d

/-- Commit the arrived spools of the index that begins (R16). -/
def Dev.commits (d : Dev) : Dev :=
  (List.range 6).foldl (fun d k =>
    if d.tethered && (d.slot k).live && (d.slot k).ready && (d.slot k).idx == d.sched && !d.full k then d.commit k else d) d

/-- TTH_POS and the status bits of the tick (R61, R66). -/
def Dev.position (d : Dev) : Dev :=
  let i := d.sched
  let in_ := d.bit F.TTH_STATUS_ACTIVE && decide (d.startIdx ≤ i) && decide (i < d.listEnd)
  let d := d.setFld F.TTH_POS_ROUND (if in_ then d.roundOf i else 0)
  let d := d.setFld F.TTH_POS_OFFSET (if in_ then d.offsetOf i else 0)
  let d := d.setFld F.TTH_STATUS_RETURN (b2n (in_ && d.offsetOf i + 1 == d.ringN))
  if in_ && i + 1 == d.listEnd then d.setFld F.TTH_STATUS_DRAINING 1 else d

/-- A LAUNCH held over a settle window or a slip tick is performed (R102). -/
def Dev.heldLaunch (d : Dev) : Dev :=
  match d.ring.held with
  | none => d
  | some v =>
    let d := { d with ring := { d.ring with held := none } }
    if d.relaying then d.launchPacket (F.TTH_RELAY_CMD_ADDR.ofNat v * 64) (F.TTH_RELAY_CMD_LEN64.ofNat v * 64) else d

/-! ## Cores (R43, R192) -/

/-- A tick wait ends: the next bundle issues at the first frame slot 0 at or after the boundary (R192). -/
def CoreSt.wake (c : CoreSt) (now seen : Nat) : CoreSt :=
  { c with tickWait := false, tickSeen := seen, cycle := ceilDiv (max c.cycle now) 8 * 8 }.settle

/-- Every tick wait ends at a boundary that begins a new schedule index. -/
def Dev.wakeCores (d : Dev) (start : Bool) : Dev :=
  d.eachCore fun d n =>
    if d.coreState n ≠ 2 then d
    else if (d.core n).tickWait then d.modCore n fun c => c.wake d.nowCc (d.sched + 1)
    else if start then d.modCore n fun c => { c with tickSeen := 0 } else d

/-! ## TICK_BOUNDARY -/

/-- What every boundary that begins a tick does at its end: monitors are copied, and cancelled work returns (R285, R446). -/
def Dev.boundaryEnd (d : Dev) : Dev := d.snapshot.returnCancelled

/-- A boundary begins a tick of a new schedule index. -/
def Dev.newIndex (d : Dev) (start : Bool) : Dev :=
  let d := (d.indexTick start).carouselIdle.modeChange
  if d.tckRunning = false then d
  else
    let d := ((d.carouselStart.commits.position).heldLaunch).wakeCores start
    (d.readLevel (d.sched + 8)).boundaryEnd

/-- A boundary begins a slip tick. -/
def Dev.newSlip (d : Dev) : Dev :=
  let d := d.slipTick.carouselIdle
  ({ d with ring := { d.ring with turnaround := false } }).boundaryEnd

/-- The announced boundary fires; deadlines that count from it stand from now on (R276). At a stop the carousel may still go idle (R66). -/
def Dev.fire (d : Dev) (f : Fire) (rest : List Fire) : Dev :=
  let d := d.passDues f.tick d.time
  if f.stop then
    let d := d.carouselIdle.tickStop
    ({ d with pwr := { d.pwr with flat := true } }).boundaryEnd
  else
    let d := d.setFld F.TCK_NUMBER_NUMBER f.tick
    let d := (d.periodNow f).predictNext f rest
    let d := { d with pwr := { d.pwr with evalAt := some d.time } }
    if f.slip then d.newSlip else d.newIndex f.start

/-- TICK_BOUNDARY: the next announced boundary fires; `demand` is the module's measured demand in the tick that ends, in W. -/
def execTickBoundary (demand : BitVec 16) (s : State) : Out :=
  act s fun d =>
    match d.tick.fires with
    | [] => d
    | f :: rest =>
      if (d.tckRunning || (d.tckState == 1 && f.start)) = false then d
      else
        let d := d.at_ f.at_
        let d := (if f.start then d else d.overCheck demand.toNat).govern demand.toNat
        d.fire f rest

/-! ## The settle window (R41, R42, R76) -/

/-- Whether a core's contexts have not all reached their tick wait: a context that is halted, fenced or at its END counts as having done so
(R41, R203). -/
def Dev.coreLate (d : Dev) (n : Nat) : Bool :=
  let c := d.core n
  d.coreState n == 2 && !c.tickWait && !c.ended && !c.stopped && c.running.any fun l => !(d.fenced n l.1)

/-- Whether a schedule index or tick is due now: the one that runs, or in a slip tick any earlier one still incomplete (R42). -/
def Dev.dueNow (d : Dev) (now i : Nat) : Bool := i == now || (d.tckState == 3 && decide (i < now))

/-- The tick a tick-bound keel command is bound to (R335). -/
def KCmd.due (c : KCmd) : Option Nat := if bitOf c.flags 0 then some (c.tick + c.dlTicks) else none

/-- Whether the spool of a schedule index is committed in its slot and a flag of it holds. -/
def Dev.slotHas (d : Dev) (k i : Nat) (f : Fld) : Bool := d.full k && (d.slot k).idx == i && d.bit f

/-- Forwarding (17) and expansion (19) of a spool, where they are incomplete; before its commit both are (Table 7). -/
def Dev.lateSpool (d : Dev) (k i : Nat) : List (Nat × Nat × Nat) :=
  (if d.slotHas k i (F.TTH_SLOT_FLAGS_FORWARDED k) then [] else [(17, k, i)]) ++
    (if d.slotHas k i (F.TTH_SLOT_FLAGS_EXPANDED k) then [] else [(19, k, i)])

/-- The spools current in the index now running, and in a slip tick those of earlier indices too (R42, R76). -/
def Dev.lateSpools (d : Dev) : List (Nat × Nat × Nat) :=
  ((List.range 2).flatMap fun dir => if d.tethered && d.spoolAt dir d.sched then d.lateSpool (slotFor dir d.sched) d.sched else []) ++
    ((List.range 6).flatMap fun k =>
      let q := d.slot k
      if d.tckState == 3 && !d.bit F.TTH_CTRL_MODE && q.live && decide (q.idx < d.sched) then d.lateSpool k q.idx else [])

/-- Relay packets (22) launched in the index now running, or in a slip tick before it: those whose forwarding here is incomplete, and at their meeting
station those of which one half has come and the other has not begun to (R102; log 143). -/
def Dev.latePackets (d : Dev) : List (Nat × Nat × Nat) :=
  (List.range 6).flatMap fun k =>
    let q := d.slot k
    let other := 1 - slotDir k
    if d.relaying && q.live && d.dueNow d.sched q.rSched then
      (if d.bit (inflight k) && !d.bit (F.TTH_SLOT_FLAGS_FORWARDED k) then [(22, k, q.rSeq)] else []) ++
        (if d.meeting q.rSeq && d.expected other == q.rSeq then [(22, 10 + other, q.rSeq)] else [])
    else []

/-- Whether the lead's own packets have left: its slice and end marker are given, and none of their bytes wait on a port (R102). -/
def Dev.launchOut (d : Dev) (q : Launched) : Bool :=
  q.own && !((List.range 4).any fun p => d.slotPayload p 6 || d.slotPayload p 7)

/-- The lead's own packets, until they have left. -/
def Dev.lateLaunch (d : Dev) : List (Nat × Nat × Nat) :=
  match d.ring.launched with
  | some q => if d.relaying && d.dueNow d.sched q.sched && !d.launchOut q then [(22, 8, q.seq)] else []
  | none => []

/-- Arrivals and stagings for the next index, and return hops of this one (18): directions 0 and 1, and 2 and 3 for return hops. -/
def Dev.lateArrivals (d : Dev) : List (Nat × Nat × Nat) :=
  (List.range 2).flatMap fun dir =>
    let i := d.sched + 1
    if d.tethered = false then []
    else
      (if d.spoolAt dir i && decide ((if d.offsetOf i = 0 then d.ownIdx dir else d.arrIdx dir) ≤ i) then [(18, dir, i)] else []) ++
      (if d.spoolAt dir d.sched && d.offsetOf d.sched + 1 == d.ringN && decide (d.retCount dir ≤ d.roundOf d.sched) then
        [(18, 2 + dir, d.roundOf d.sched)] else [])

/-- Tick-bound keel commands of this tick not ended (20). -/
def Dev.lateKeel (d : Dev) : List (Nat × Nat × Nat) :=
  (List.range 12).flatMap fun k =>
    (d.kQueue k).filterMap fun c => c.due.bind fun t => if d.dueNow (d.fld F.TCK_NUMBER_NUMBER) t then some (20, k, t) else none

/-- Whether a time falls in the tick now running, or in a slip tick before it. -/
def Dev.inTick (d : Dev) (t : Nat) : Bool :=
  match d.tick.predicted with
  | some b => decide (t < b) && (decide (b - d.baseNs (d.fld F.TCK_PERIOD_CURRENT_NS) ≤ t) || d.tckState == 3)
  | none => false

/-- Tick-bound descriptors whose deadline falls in this tick (21; R279). -/
def Dev.lateDescs (d : Dev) : List (Nat × Nat × Nat) :=
  (d.str.descs.filter fun q => q.tickBound && !q.cancelled && (d.unitDeadline q).any d.inTick).map fun q => (21, q.id, 0)

/-- Whether a STREAM channel's next fill waits for its slot to drain (R281). -/
def Dev.fillWaits (d : Dev) (i : Nat) : Bool :=
  let q := d.chan i
  q.live && !q.cancelled && q.run.any (fun k => decide (k < q.count)) && !d.fillOpen i && !(q.drained.getD (q.fills % 2) true)

/-- Tick-bound fills that still wait for their slot in the tick of their deadline (Table 4 of the streams chapter), by channel and fill number plus
1. -/
def Dev.lateFills (d : Dev) : List (Nat × Nat × Nat) :=
  ((List.range d.str.fresh).filter fun i => (d.chan i).tickBound && d.fillWaits i && d.inTick (d.fillDue (d.chan i))).map fun i =>
    (21, i, (d.chan i).fills + 1)

/-- Whether a channel's fill of a number has been performed, or its run has ended. -/
def Dev.fillDone (d : Dev) (i b : Nat) : Bool :=
  let q := d.chan i
  let open_ := (d.str.descs.filter fun x => x.chan == i + 1 && x.slot.isSome && !x.cancelled).length
  !q.live || q.run.isNone || decide (b + open_ < q.fills)

/-- Every due item of R41 that is incomplete. -/
def Dev.lateItems (d : Dev) : List (Nat × Nat × Nat) :=
  ((List.range 144).filter d.coreLate).map (fun n => (16, n, (d.core n).tickSeen)) ++ d.lateSpools ++ d.latePackets ++ d.lateLaunch ++ d.lateArrivals ++
    d.lateKeel ++ d.lateDescs ++ d.lateFills

/-- The source bits of some items, bit 16 as bit 0 (Table 8). -/
def sourcesOf (items : List (Nat × Nat × Nat)) : Nat := ((List.range 7).map fun i => b2n (items.any (·.1 == 16 + i)) * 2 ^ i).sum

/-- SETTLE_WINDOW_OPEN: 500 ns before the predicted boundary every due item is checked; an incomplete one is a miss (R42). -/
def execSettleWindowOpen (s : State) : Out :=
  act s fun d =>
    match d.settleAt with
    | none => d
    | some t =>
      if d.tckRunning = false ∨ d.tick.settled then d
      else
        let d := d.at_ t
        let d := { d with tick := { d.tick with settled := true } }
        let late := d.lateItems
        if late.isEmpty then d
        else
          let now := d.fld F.TCK_NUMBER_NUMBER
          let d := d.setReg R.TCK_MISS (BitVec.ofNat 64 (now % 2 ^ 32 * 2 ^ 32 + sourcesOf late * 2 ^ 16))
          let d := (d.countErr F.TCK_MISS_COUNT_MISSES F.TCK_EVENT_COUNT_SAT 0).raise F.TCK_EVENT_MISS 0 clsInfo
          let d := { d with tick := { d.tick with missItems := late, missAt := d.time } }
          d.missNotice now (sourcesOf late)

/-- Whether an item has completed since. -/
def Dev.itemDone (d : Dev) (x : Nat × Nat × Nat) : Bool :=
  let (src, a, b) := x
  match src with
  | 16 => !d.coreLate a || decide (b < (d.core a).tickSeen)
  | 17 => decide (b < (d.slot a).idx) || d.slotHas a b (F.TTH_SLOT_FLAGS_FORWARDED a)
  | 18 => if a < 2 then !d.tethered ||
      decide (b < (if d.offsetOf b = 0 then d.ownIdx a else d.arrIdx a)) else decide (b < d.retCount (a - 2)) || !d.tethered
  | 19 => decide (b < (d.slot a).idx) || d.slotHas a b (F.TTH_SLOT_FLAGS_EXPANDED a)
  | 20 => !((d.kQueue a).any fun c => c.due == some b)
  | 21 => if b = 0 then !(d.str.descs.any fun q => q.id == a && !q.cancelled) else d.fillDone a (b - 1)
  | _ =>
    if a = 8 then (match d.ring.launched with | some q => q.seq != b || d.launchOut q | none => true)
    else if 10 ≤ a then decide (b < Store.get (fun _ => 0) d.ring.cur (a - 10)) || !d.relaying
    else (d.slot a).rSeq != b || !d.bit (inflight a) || d.bit (F.TTH_SLOT_FLAGS_FORWARDED a)

/-- MISS_OVERRUN: the last item incomplete at the miss has completed, and OVERRUN takes the time since, in units of 16 ns rounded up (R42). -/
def execMissOverrun (s : State) : Out :=
  act s fun d =>
    if d.tick.missItems.isEmpty || !(d.tick.missItems.all d.itemDone) then d
    else
      let d := d.setFld F.TCK_MISS_OVERRUN (min 0xFFFF (ceilDiv (d.time - d.tick.missAt) (16 * nsUnits)))
      { d with tick := { d.tick with missItems := [] } }

end Sys2Proof.Machine
end

