-- ==== Sys2Proof/Machine/Bridle.lean ====
section
/-! DEFINITION. The bridle: the repair of a ring in quads (R355, R356). -/

namespace Sys2Proof.Machine

/-- The region is quad-aligned: its corner even and its sides even (R354). -/
def Dev.quadAligned (d : Dev) : Bool :=
  d.bit F.LNK_REGION_VALID && d.fld F.LNK_REGION_X0 % 2 == 0 && d.fld F.LNK_REGION_Y0 % 2 == 0 && d.fld F.LNK_REGION_X1 % 2 == 1 &&
    d.fld F.LNK_REGION_Y1 % 2 == 1

/-- Quads of the region, by row and then column. -/
def Dev.quads (d : Dev) : List (Nat × Nat) :=
  (((List.range 32).filter fun j => decide (d.fld F.LNK_REGION_Y0 ≤ 2 * j) && decide (2 * j ≤ d.fld F.LNK_REGION_Y1)).map fun j =>
    ((List.range 64).filter fun i => decide (d.fld F.LNK_REGION_X0 ≤ 2 * i) && decide (2 * i ≤ d.fld F.LNK_REGION_X1)).map fun i => (i, j)).flatten

/-- A quad's neighbours among the given ones, in the order east, south, west, north. -/
def quadNext (live : List (Nat × Nat)) (q : Nat × Nat) : List (Nat × Nat) :=
  ([(q.1 + 1, q.2), (q.1, q.2 + 1)] ++ (if q.1 = 0 then [] else [(q.1 - 1, q.2)]) ++ (if q.2 = 0 then [] else [(q.1, q.2 - 1)])).filter (live.contains ·)

/-- Breadth-first search: the quads reached with the quad each was reached from, in the order of their visit. -/
def quadTree (live : List (Nat × Nat)) : Nat → List (Nat × Nat) → List ((Nat × Nat) × (Nat × Nat)) → List ((Nat × Nat) × (Nat × Nat))
  | 0, _, seen => seen
  | _, [], seen => seen
  | fuel + 1, q :: qs, seen =>
    let new := (quadNext live q).filter fun x => !(seen.any (·.1 == x))
    quadTree live fuel (qs ++ new) (seen ++ new.map fun x => (x, q))

/-- The tree of the piece that holds a quad: its first entry is the quad itself. -/
def treeFrom (live : List (Nat × Nat)) (root : Nat × Nat) : List ((Nat × Nat) × (Nat × Nat)) :=
  quadTree live (live.length + 1) [root] [(root, root)]

/-- The tree of the connected piece with the most quads; on a tie, of the piece with the quad of least row and column (step 2). The quads
come in that order, and each piece's tree is rooted at its first. -/
def keptTree (live : List (Nat × Nat)) : List ((Nat × Nat) × (Nat × Nat)) :=
  live.foldl (fun best q =>
    if best.any (·.1 == q) then best
    else
      let t := treeFrom live q
      if best.length < t.length then t else best) []

/-- Whether two quads are joined by a tree edge. -/
def joined (t : List ((Nat × Nat) × (Nat × Nat))) (a b : Nat × Nat) : Bool :=
  a != b && t.any fun e => (e.1 == a && e.2 == b) || (e.1 == b && e.2 == a)

/-- The successor of a device on the contour (R356). -/
def contourNext (t : List ((Nat × Nat) × (Nat × Nat))) (v : Nat × Nat) : Nat × Nat :=
  let q := (v.1 / 2, v.2 / 2)
  match v.1 % 2, v.2 % 2 with
  | 0, 0 => if 0 < q.1 && joined t q (q.1 - 1, q.2) then (2 * (q.1 - 1) + 1, 2 * q.2) else (v.1, v.2 + 1)
  | 0, _ => if joined t q (q.1, q.2 + 1) then (v.1, v.2 + 1) else (v.1 + 1, v.2)
  | _, 0 => if 0 < q.2 && joined t q (q.1, q.2 - 1) then (v.1, v.2 - 1) else (v.1 - 1, v.2)
  | _, _ => if joined t q (q.1 + 1, q.2) then (v.1 + 1, v.2) else (v.1, v.2 - 1)

/-- The contour from a device on: n devices. -/
def contour (t : List ((Nat × Nat) × (Nat × Nat))) : Nat → Nat × Nat → List (Nat × Nat)
  | 0, _ => []
  | n + 1, v => v :: contour t n (contourNext t v)

/-- Whether the dimension-order path between two devices avoids every cut one. -/
def legOk (ok : Nat → Nat → Bool) (x y tx ty : Nat) : Bool :=
  (List.range (max x tx + 1)).all (fun i => decide (i < min x tx) || ok i y) &&
    (List.range (max y ty + 1)).all (fun j => decide (j < min y ty) || ok tx j)

/-- A route entry: MODE and via device; none when no via exists (step 4). -/
def routeFor (ok : Nat → Nat → Bool) (vias : List (Nat × Nat)) (x y tx ty : Nat) : Option (Nat × Nat × Nat) :=
  if ok tx ty = false then some (2, 0, 0)
  else if legOk ok x y tx ty then some (0, 0, 0)
  else (vias.find? fun v => legOk ok x y v.1 v.2 && legOk ok v.1 v.2 tx ty).map fun v => (1, v.1, v.2)

/-- The port from a device to a neighbour. -/
def portTo (a b : Nat × Nat) : Nat := portToward a.1 a.2 b.1 b.2

/-- The routes of the repaired region, by entry; none when the region is unrepairable. -/
def Dev.bridleRoutes (d : Dev) (ok : Nat → Nat → Bool) : Option (List (Nat × Nat × Nat × Nat)) :=
  let x := d.fld F.LNK_COORD_X
  let y := d.fld F.LNK_COORD_Y
  let dests := ((List.range 8192).map fun i => (i % 128, i / 128)).filter fun v => d.inRegion v.1 v.2
  let vias := dests.filter fun v => ok v.1 v.2
  dests.foldr (fun v acc => acc.bind fun l => (routeFor ok vias x y v.1 v.2).map fun r => (128 * v.2 + v.1, r) :: l) (some [])

/-- Write a route entry. -/
def Dev.setRoute (d : Dev) (e : Nat × Nat × Nat × Nat) : Dev :=
  ((d.setFld (F.LNK_ROUTE_DATA_MODE e.1) e.2.1).setFld (F.LNK_ROUTE_DATA_VIA_X e.1) e.2.2.1).setFld (F.LNK_ROUTE_DATA_VIA_Y e.1) e.2.2.2

/-- Number the station of a device on the contour and name its two ports (step 3). -/
def Dev.bridleStation (d : Dev) (ring : List (Nat × Nat)) (me : Nat × Nat) : Dev :=
  let n := ring.length
  let s := (ring.findIdx? (· == me)).getD 0
  let d := (d.setFld F.TTH_STATION_STATION s).setFld F.TTH_STATION_N n
  let d := d.setFld F.TTH_STATION_NEXT_PORT (portTo me (ring.getD ((s + 1) % n) me))
  d.setFld F.TTH_STATION_PREV_PORT (portTo me (ring.getD ((s + n - 1) % n) me))

/-- Steps 2 to 5: ring, routes, and the election of R27; a survivor of a cut quad leaves the job and is zeroed under R289. -/
def Dev.bridle (d : Dev) : Dev :=
  let cut := d.links.faults.map fun v => (v.1 / 2, v.2 / 2)
  let tree := keptTree (d.quads.filter fun q => !(cut.contains q))
  let ok := fun x y => tree.any (·.1 == (x / 2, y / 2))
  let me := (d.fld F.LNK_COORD_X, d.fld F.LNK_COORD_Y)
  if ok me.1 me.2 = false then d.jobs.foldl (fun d j => d.killJob j) d
  else match d.bridleRoutes ok, tree with
    | some es, t :: _ =>
      let ring := contour tree (4 * tree.length) (2 * t.1.1, 2 * t.1.2)
      ((es.foldl (fun d e => d.setRoute e) d).bridleStation ring me).elect
    | _, _ => d

/-- BRIDLE_REPAIR (R355): FAULT_WAIT µs after the ripcord, or after a late report. -/
def execBridleRepair (s : State) : Out :=
  act s fun d =>
    match d.links.faultFrom with
    | some t =>
      if d.links.faults.isEmpty ∨ d.quadAligned = false ∨ d.routesFixed then d
      else (d.at_ (t + d.fld F.LNK_CTRL_FAULT_WAIT * 1000 * nsUnits)).bridle
    | none => d

end Sys2Proof.Machine
end

