-- ==== Sys2Proof/Machine/Control.lean ====
section
/-! DEFINITION. S slot: branches, loops, waits and synchronising instructions (R186 to R188, R192, R193, R198, R216, R217, R220). -/

namespace Sys2Proof.Machine

/-- Whether the present bundle is a delay bundle of a taken branch (R186). -/
def CoreSt.inDelay (c : CoreSt) : Bool := c.branch.isSome

/-- Whether a taken branch here would straddle a loop's wrap-around (R216). -/
def CoreSt.nearWrap (c : CoreSt) : Bool := c.loops.any fun l => c.bundle == l.last || c.bundle + 1 == l.last

/-- Take a branch to bundle t (R186, R187, R216), or fault at it. -/
def Dev.branchTo (d : Dev) (n t : Nat) (g : CoreSt → CoreSt) : Dev :=
  let c := d.core n
  if c.inDelay || c.nearWrap then d.isaFault n 0 0 3 0
  else if c.bundles ≤ t then d.isaFault n 0 0 2 0
  else d.modCore n fun c => { g c with branch := some (3, t) }

/-- SBR (R186): two delay bundles issue, and the target in the third cycle after the branch. -/
def execSbr (n : CoreId) (f : FmtSB) (s : State) : Out :=
  act s fun d => d.slotIssue n 0 (.sbr n f) f.hd .branch (f.rsv != 0 || f.hd.set) fun d => .go (d.branchTo n f.t.toNat id)

/-- SCALL writes the index of the third bundle after it into s31 (R186, R212). -/
def execScall (n : CoreId) (f : FmtSB) (s : State) : Out :=
  act s fun d => d.slotIssue n 0 (.scall n f) f.hd .branch (f.rsv != 0 || f.hd.set) fun d =>
    .go (d.branchTo n f.t.toNat fun c => c.later 1 0 (.s 31 (BitVec.ofNat 64 (c.bundle + 3))))

/-- SRET branches to the bundle in s31[10:0] (R186, R216). -/
def execSret (n : CoreId) (f : FmtS0) (s : State) : Out :=
  act s fun d => d.slotIssue n 0 (.sret n f) f.hd .branch (f.rsv != 0 || f.hd.set) fun d =>
    .go (d.branchTo n (((d.core n).sreg 31).toNat % 2048) id)

/-- SLOOP (R187, R216): a register count of 0 issues the body once with every instruction predicated false. -/
def execSloop (n : CoreId) (f : FmtSL) (s : State) : Out :=
  act s fun d => d.slotIssue n 0 (.sloop n f) f.hd .free
    (f.rsv != 0 || f.hd.set || (f.reg && f.cnt != 0) || (!f.reg && (f.cnt == 0 || f.n != 0))) fun d =>
    let c := d.core n
    let k := if f.reg then (c.sreg f.n.toNat).toNat % 2 ^ 32 else f.cnt.toNat
    .go (if c.inDelay || decide (4 ≤ c.loops.length) then d.isaFault n 0 0 3 0
      else d.modCore n fun c =>
        { c with loops := ⟨c.bundle + 1, c.bundle + 1 + f.l.toNat, max 1 k, k == 0⟩ :: c.loops })

/-- SWAIT: the next bundle issues that much later than it otherwise would (R188, R216). -/
def execSwait (n : CoreId) (f : FmtSW) (s : State) : Out :=
  act s fun d => d.slotIssue n 0 (.swait n f) f.hd .free
    (f.rsv != 0 || f.hd.set || (f.reg && f.cnt != 0) || (!f.reg && (f.cnt == 0 || f.n != 0))) fun d =>
    .go (d.modCore n fun c =>
      { c with planned := if f.reg then (c.sreg f.n.toNat).toNat % 2 ^ 16 else f.cnt.toNat })

/-- SYNC.TICK (R192): the context has reached its tick wait; when the boundary it awaits has fired already, the wait ends at once (R43). The bundle
after it issues at frame slot 0. Running free it faults (R200). -/
def execSyncTick (n : CoreId) (f : FmtSY) (s : State) : Out :=
  act s fun d => d.slotIssue n 0 (.syncTick n f) f.hd .free (f.rsv != 0 || f.mask != 0 || f.hd.set) fun d =>
    .go (if d.coreState n = 3 then d.isaFault n 0 0 1 0
      else if (d.core n).tickSeen ≤ d.fld F.TCK_SCHED_INDEX then
        d.modCore n fun c => { c with tickSeen := c.tickSeen + 1, align := true }
      else d.modCore n fun c => { c with tickWait := true })

/-- The greatest cycle at which a V-slot result of an earlier bundle becomes usable, or the lanes are free of what an earlier one writes. -/
def CoreSt.vDue (c : CoreSt) : Nat :=
  (c.pend.filter fun q => q.prio == 1 && decide (q.issue < c.cycle)).foldl (fun m q => max m q.due) (if c.laneAt < c.cycle then c.laneFree else 0)

/-- Whether a unit of the matrix engine holds work accepted before bundle `no`. -/
def ArrUnit.busy (u : ArrUnit) (no : Nat) : Bool :=
  (u.inArray ++ u.aq).any (fun r => decide (r.op.no < no)) || u.dq.any fun q => decide (q.no < no)

/-- Whether the matrix engine, or the DMA engine, holds work accepted before bundle `no`. -/
def CoreSt.arrayBefore (c : CoreSt) (no : Nat) : Bool := (c.unit 0).busy no || (c.unit 1).busy no
def CoreSt.copiesBefore (c : CoreSt) (no : Nat) : Bool := c.copies.any fun q => decide (q.no < no)

/-- Whether a free-running engine has instructions queued by bundles before number `no` (R199). -/
def CoreSt.queuedBefore (c : CoreSt) (slot no : Nat) : Bool := (c.queue slot).any fun q => decide (q.no < no)

/-- SYNC.ENG (R193, R217): MASK bits V, M and D; what its own bundle issues is not awaited. -/
def execSyncEng (n : CoreId) (f : FmtSY) (s : State) : Out :=
  act s fun d => d.slotIssue n 0 (.syncEng n f) f.hd .free (f.rsv != 0 || f.hd.set) fun d =>
    let c := d.core n
    if (f.mask.getLsbD 0 && c.queuedBefore 1 c.no) || (f.mask.getLsbD 1 && (c.queuedBefore 2 c.no || c.arrayBefore c.no)) ||
        (f.mask.getLsbD 2 && (c.queuedBefore 3 c.no || c.copiesBefore c.no)) then .wait 1
    else .go (if f.mask.getLsbD 0 then d.modCore n fun c => c.stall (c.vDue - (c.cycle + 1)) else d)

/-- SYNC.FRAME: the bundle after it issues at frame slot 0 (R178). -/
def execSyncFrame (n : CoreId) (f : FmtSY) (s : State) : Out :=
  act s fun d => d.slotIssue n 0 (.syncFrame n f) f.hd .free (f.rsv != 0 || f.mask != 0 || f.hd.set) fun d =>
    .go (d.modCore n fun c => { c with align := true })

/-- FENCE.PUSH stalls until every earlier write of the set beyond the own scratchpad has been performed (R217). -/
def execFencePush (n : CoreId) (f : FmtS0) (s : State) : Out :=
  act s fun d => d.slotIssue n 0 (.fencePush n f) f.hd .normal (f.rsv != 0) fun d =>
    if d.writesOut n (d.slotSet n f.hd) (d.core n).no then .wait 1 else .go d

/-- END (R198, R220): no later bundle of the kernel issues. -/
def execEnd (n : CoreId) (f : FmtS0) (s : State) : Out :=
  act s fun d => d.slotIssue n 0 (.endKernel n f) f.hd .free (f.rsv != 0 || f.hd.set) fun d =>
    .go (if (d.core n).inDelay then d.isaFault n 0 0 3 0 else d.modCore n fun c => { c with ended := true })

/-- Whether a DMOVE of a core has yet to complete (R198, R237). -/
def Dev.movesOut (d : Dev) (n : Nat) : Bool := d.str.descs.any fun q => q.core == n && q.chan == 0 && !q.cancelled

/-- Whether everything a kernel started has been done (R198): the engines are idle, every answer is in, and every write has been performed. Results
with a fixed latency land with time. -/
def Dev.kernelDone (d : Dev) (n : Nat) : Bool :=
  let c := d.core n
  c.ended && !c.stopped && !c.arrayBefore c.no && c.copies.isEmpty && c.queues.all (·.2.isEmpty) && c.acq.isNone && !d.answersDue n &&
    !d.movesOut n

/-- The completion store of one set's record: DONE_VALUE, with bit 63 set when the command faulted; it follows every write of the set (R198, R201,
R310). -/
def Dev.complete (d : Dev) (n : Nat) (set : Nat) : Dev :=
  let d := if d.split n then d.writeFault n set else d
  match (d.core n).launchOf set with
  | none => d
  | some l =>
    let c := d.core n
    let v := l.doneValue % 2 ^ 63 + (if (c.fault set).isSome then 2 ^ 63 else 0)
    let (need, needDesc) := d.relNeeds n set c.no
    let d := if l.doneAddr = 0 then d
      else d.issue { d.scalarReq n set l.doneAddr (.store (leBytes 8 v)) none false with need := need, needDesc := needDesc, rel := true }
    -- the command-ring entry is free again (R292)
    if l.chan = 0 then d
    else
      let i := l.chan / 2048 % 8192
      if (d.chan i).gen = l.chan % 2048 then d.setChan i { d.chan i with ready := (d.chan i).ready - 1 } else d

/-- END_COMPLETE: the completion stores are made; STATE reads 1, or 4 after a fault (R198, R201). -/
def execEndComplete (n : CoreId) (s : State) : Out :=
  act s fun d =>
    if d.kernelDone n = false then d
    else
      let d := d.modCore n fun (c : CoreSt) =>
        { c with cycle := c.pend.foldl (fun m (q : Pend) => max m q.due) c.cycle }.settle
      let halted := !(d.split n) && ((d.core n).fault 0).isSome
      let d := (d.complete n 0).complete n 1
      let d := d.setFld (F.SCP_CORE_STATUS_STATE n) (if halted then 4 else d.idleState n)
      d.modCore n fun c => { c with ended := false, running := [], faults := [], endedAt := c.cycle, branch := none }

end Sys2Proof.Machine
end

