-- ==== Sys2Proof/Machine/Dma.lean ====
section
/-! DEFINITION. D slot: local copies, moves, channel operations and waits (R234 to R240). -/

namespace Sys2Proof.Machine

/-- DNOP (R206, R234). -/
def execDnop (n : CoreId) (f : FmtS0) (s : State) : Out :=
  act s fun d => d.slotIssue n 3 (.dnop n f) f.hd .normal (nopRsv f) fun d => .go d

/-! ## Local copies (R235, R236) -/

/-- The first slot 6 cycle later than a cycle (R110). -/
def slot6After (t : Nat) : Nat := t + 1 + frameWait 3 (t + 1)

/-- Cycles from a copy's first access until the engine is free: 16 words are read in one slot 6 cycle and written in the next (R236). -/
def copyCycles (words : Nat) : Nat := 16 * ceilDiv words 16

/-- The copy that a DCOPY hands to the DMA engine, which begins when the engine is free (R235). -/
def Dev.copyOf (d : Dev) (n set : Nat) (dst src words : Nat) : Copy :=
  let c := d.core n
  let base := 4096 * d.fld (ctxBase4k set n)
  { dst := base + dst, src := base + src, words := words, set := set, bundle := c.bundle, start := max (slot6After c.cycle) c.copyFree, no := c.no }

/-- DCOPY is checked and queued; the queue holds four beside the one being performed (R235, R236). -/
def execDcopy (n : CoreId) (f : FmtDC) (s : State) : Out :=
  act s fun d => d.slotIssue n 3 (.dcopy n f) f.hd .normal (f.rsv != 0) fun d =>
    let c := d.core n
    let set := d.slotSet n f.hd
    let dst := (c.sreg f.d.toNat).toNat
    let src := (c.sreg f.s.toNat).toNat
    let k := (c.sreg f.n.toNat).toNat % 2 ^ 32
    let bound := 4096 * d.fld (ctxBound4k set n)
    if c.copyWaits f then .wait 1
    else if src % 128 ≠ 0 then .go (d.isaFault n set 3 4 src)
    else if dst % 128 ≠ 0 then .go (d.isaFault n set 3 4 dst)
    else if bound < src + 128 * k then .go (d.scpFault n set 3 1 3 src)
    else if bound < dst + 128 * k then .go (d.scpFault n set 3 1 3 dst)
    else if k = 0 then .go d
    else
      let q := d.copyOf n set dst src k
      .go (d.modCore n fun c => { c with copies := c.copies ++ [q], copyFree := q.start + copyCycles k })

/-- A copy meets a word that cannot be read or written: the words before it stay copied (log 17). `a` is its physical offset; the records give the
local offset as issued (R131, R202). -/
def Dev.copyFault (d : Dev) (n : Nat) (q : Copy) (kind a : Nat) : Dev :=
  let addr := a - 4096 * d.fld (ctxBase4k q.set n)
  (d.scpRecord n q.set kind 3 addr).engineFault n q.set 3 q.bundle 1 kind addr (d.core n).cycle

/-- Overlapping ranges leave unspecified contents at the destination (R236). -/
def Copy.overlaps (q : Copy) : Bool := decide (q.src < q.dst + 128 * q.words) && decide (q.dst < q.src + 128 * q.words)

/-- One word of a copy is written: as it was read, or unspecified where the ranges overlap. -/
def Dev.copyWord (d : Dev) (n : Nat) (q : Copy) (src dst : Nat) : Dev :=
  if q.overlaps then (let (bs, d) := d.drawBytes 128; d.scpWrite n dst bs) else d.scpWrite n dst (d.scpRead n src 128)

/-- Copy words in ascending order (R236): each is read under the checks of R123, R125 and R290 and written under that of R125. -/
def Dev.copyWords (d : Dev) (n : Nat) (q : Copy) : Nat → Nat → Dev
  | 0, _ => d
  | m + 1, i =>
    let src := q.src + 128 * i
    let dst := q.dst + 128 * i
    if d.zeroing n src 128 then d.engineFault n q.set 3 q.bundle 3 6 (src - 4096 * d.fld (ctxBase4k q.set n)) (d.core n).cycle
    else if d.segsReady n src 128 = false then d.copyFault n q 3 src
    else if d.segsReady n dst 128 = false then d.copyFault n q 3 dst
    else match d.eccRead n src 128 with
      | (d, true) => d.copyFault n q 6 src
      | (d, false) => (d.copyWord n q src dst).copyWords n q m (i + 1)

/-- DCOPY_COMPLETE: the copy at the head of the queue has been performed, in the slot 6 cycles it took (R110, R235, R236). -/
def execDcopyComplete (n : CoreId) (s : State) : Out :=
  act s fun d =>
    match (d.core n).copies with
    | [] => d
    | q :: qs => ((d.modCore n fun c => { c with copies := qs }).copyWords n q q.words 0)

/-! ## Moves and channels (R237 to R240) -/

/-- The descriptor a DMOVE becomes (R237, R274, R276). -/
def Dev.moveDesc (d : Dev) (n set : Nat) (dc src dst len : Nat) : Desc :=
  let c := d.core n
  let ctx := d.fld (ctxId set n)
  { Desc.blank with
    ctx := ctx, tag := d.fld (ctxJob set n), core := n, set := set, cluster := clusterOf n, dc := some dc, src := src, dst := dst, len := len,
    deadline := some d.moveDue, pusher := ctx, kern := c.kern, bundle := c.bundle, no := c.no }

/-- DMOVE becomes one descriptor (R237, R274); a length of 0 completes at once. -/
def execDmove (n : CoreId) (f : FmtDM) (s : State) : Out :=
  act s fun d => d.slotIssue n 3 (.dmove n f) f.hd .normal (dmRsv f) fun d =>
    let set := d.slotSet n f.hd
    match d.moveChk n set f with
    | .isa a => .go (d.isaFault n set 3 4 a)
    | .scp k a => .go (d.scpFault n set 3 k 3 a)
    | .ok src dst len =>
      if d.moveWaits n f then .hold (d.raise F.STR_EVENT_POOL_EMPTY 0 clsInfo) 1
      else if len = 0 then .go (d.modCore n fun c => c.later 1 3 (.dc set f.dc.toNat))
      else .go (d.addDesc (d.moveDesc n set f.dc.toNat src dst len))

/-- An operation of DSTR on the channel whose handle is in sh (R239, R273, R291). -/
def Dev.dstr (d : Dev) (n : CoreId) (i : Instr) (f : FmtDS) (op : Dev → Nat → Issuer → ChanAct) (noDc : Bool) : Dev :=
  d.slotIssue n 3 i f.hd .normal (dsRsv f noDc) fun d =>
    let set := d.slotSet n f.hd
    let h := ((d.core n).sreg f.h.toNat).toNat % 2 ^ 32
    match d.regChan n f.hd f.h with
    | none => .go (d.strFault n set 3 1 h)
    | some k => match op d k (d.issuer n set) with
      | .done d => .go d
      | .fault x => .go (d.strFault n set 3 x h)
      | .full => .hold (d.raise F.STR_EVENT_POOL_EMPTY 0 clsInfo) 1

/-- DSTR_PUSH (R239, R270, R275). -/
def execDstrPush (n : CoreId) (f : FmtDS) (s : State) : Out :=
  act s fun d => d.dstr n (.dstrPush n f) f (fun d k a => d.chanPush k a (some f.dc.toNat)) false
/-- DSTR_ARM (R282). -/
def execDstrArm (n : CoreId) (f : FmtDS) (s : State) : Out :=
  act s fun d => d.dstr n (.dstrArm n f) f (fun d k a => d.chanArm k a) true
/-- DSTR_CANCEL (R283). -/
def execDstrCancel (n : CoreId) (f : FmtDS) (s : State) : Out :=
  act s fun d => d.dstr n (.dstrCancel n f) f (fun d k _ => d.chanCancel k) true

/-- DWAIT stalls until dc[DC] − v is at least 0 as a signed 32-bit value (R238). -/
def execDwait (n : CoreId) (f : FmtDW) (s : State) : Out :=
  act s fun d => d.slotIssue n 3 (.dwait n f) f.hd .normal (dwRsv f) fun d => if d.counterWaits n f then .wait 1 else .go d

/-- DFLAGW stalls until a slot's flag reads VAL (R240, R280); with FLAG_FAULT a slot not yet FULL raises KIND 4 instead (R281). -/
def execDflagw (n : CoreId) (f : FmtDF) (s : State) : Out :=
  act s fun d => d.slotIssue n 3 (.dflagw n f) f.hd .normal (dfRsv f) fun d =>
    let set := d.slotSet n f.hd
    let h := ((d.core n).sreg f.h.toNat).toNat % 2 ^ 32
    match d.regChan n f.hd f.h with
    | none => .go (d.strFault n set 3 1 h)
    | some i => match d.chanFlag i f.flag.toNat f.slot.toNat with
      | none => .go (d.strFault n set 3 2 h)
      | some b =>
        if b = f.val then .go d
        else if d.flagFaults n f then .go (d.strFault n set 3 4 h)
        else .wait 1

end Sys2Proof.Machine
end

