-- ==== Sys2Proof/Machine/Launch.lean ====
section
/-! DEFINITION. Launch of commands: launch records, image loads, checks and the start of a kernel (R182, R194 to R197, R292). -/

namespace Sys2Proof.Machine

/-- Read a launch record (R195, Table 6). -/
def launchOf (bs : List Byte) (chan slot : Nat) : Launch :=
  ⟨kNat bs 0 8, kNat bs 8 2, bitOf (kNat bs 10 2) 0, bitOf (kNat bs 10 2) 1, kNat bs 16 8, kNat bs 24 8, kNat bs 32 8,
    (List.range 8).map fun i => BitVec.ofNat 64 (kNat bs (64 + 8 * i) 8), chan, slot⟩

/-- A record that R195 refuses as written: its length, a reserved byte or bit, or an address out of alignment (log 18). -/
def recordBad (bs : List Byte) : Bool :=
  kNat bs 8 2 == 0 || decide (2048 < kNat bs 8 2) || decide (4 ≤ kNat bs 10 2) || kNat bs 12 4 != 0 || ((bs.drop 40).take 24).any (· ≠ 0) ||
    bitOf (kNat bs 32 8) 63 || kNat bs 0 8 % 32 != 0 || kNat bs 16 8 % 64 != 0 || kNat bs 24 8 % 8 != 0

/-- The COMMAND channel of a core's set with an entry ready to launch (R292). -/
def Dev.readyChan (d : Dev) (n set : Nat) : Option Nat :=
  (List.range d.str.fresh).find? fun i =>
    let q := d.chan i
    q.live && q.typ == 5 && q.core == n && q.set == set && decide (q.launch < q.pushes) && !q.cancelled

/-- The next command of a core's set: its channel, its record, and whether the record is refused; a record that cannot be read is refused, and one
that no mover has read yet is no command (R276, R292). -/
def Dev.nextCommand (d : Dev) (n set : Nat) : Dev × Option (Nat × Launch × Bool) :=
  match d.readyChan n set with
  | none => (d, none)
  | some i =>
    let q := d.chan i
    let h := chanHandle i q
    let bad := some (i, launchOf (zeros 128) h (q.launch % q.count), true)
    match q.entry with
    | some (some bs) => (d, some (i, launchOf bs h (q.launch % q.count), recordBad bs))
    | some none => (d, bad)
    | none => (d, if (d.entryAddr i).isNone then bad else none)

/-- The idle half of the instruction buffer. -/
def CoreSt.idle (c : CoreSt) : Nat := 1 - c.active % 2

/-- Whether an image lies in a stack under repair (R322). -/
def Dev.imageWaits (d : Dev) (l : Launch) : Bool := !(d.beyond l.image) && d.readWaits (l.image % 2 ^ 44) (32 * l.bundles)

/-- Load an image into the idle half; no bytes stand for an image that could not be read. -/
def Dev.loadImage (d : Dev) (n job : Nat) (l : Launch) (peer : Option (List Byte)) : Dev :=
  let (d, bs) := d.brdRead job l.image (32 * l.bundles) peer
  d.modCore n fun c =>
    { c with loaded := true, images := Store.put (fun _ => (0, 0, [])) c.images c.idle (l.image, l.bundles, bs.getD []),
             badBundles := c.badBundles.filter fun b => b / 2048 ≠ c.idle }

/-- IMAGE_LOAD_COMPLETE: the image of the next command has loaded into the idle half, while a kernel may run from the other (R194);
`peer` is what a device beyond answers. -/
def execImageLoadComplete (n : CoreId) (peer : Option (List Byte)) (s : State) : Out :=
  act s fun d =>
    if (d.core n).loaded then d
    else match d.nextCommand n 0 with
      | (d, some (_, l, bad)) => if bad || l.resident || d.imageWaits l then d else d.loadImage n (d.fld (ctxJob 0 n)) l peer
      | (d, none) => match d.nextCommand n 1 with
        | (d, some (_, l, bad)) => if bad || l.resident || d.imageWaits l then d else d.loadImage n (d.fld (ctxJob 1 n)) l peer
        | (d, none) => d

/-- A channel's next entry has been launched. -/
def Dev.tookEntry (d : Dev) (i : Nat) : Dev := d.setChan i { d.chan i with launch := (d.chan i).launch + 1, entry := none }

/-- A set's launch is refused: its record, reported to firmware (R195, R202, R203). -/
def Dev.refuseSet (d : Dev) (n set : Nat) : Dev :=
  let f := d.faultRec n set 0 4 3 7 0 (d.core n).cycle false
  (d.report n set (d.fld (ctxJob set n)) f true).modCore n fun c => c.setFault set f

/-- A refused launch: ISA KIND 7 with slot 4, and a faulted completion (R195). No kernel starts. -/
def Dev.refuseLaunch (d : Dev) (n : Nat) (ls : List (Nat × Launch)) : Dev :=
  let d := d.modCore n fun c => { c with running := ls, loaded := false, faults := [], bundle := 0, kern := c.kern + 1, stopped := false, ended := true,
                                         cycle := max c.cycle d.nowCc }
  let d := ls.foldl (fun d p => d.refuseSet n p.1) d
  if d.split n then d
  else match ls with
    | (k, _) :: _ => (d.writeFault n k).setFld (F.SCP_CORE_STATUS_STATE n) 4
    | [] => d

/-- Zero the registers, the loop counters and the completion counters (R182, R238). -/
def CoreSt.zeroRegs (c : CoreSt) : CoreSt := { c with s := [], p := [], v := [], loops := [], dc := [], badRegs := [] }

/-- Argument registers of a launch (R195, R197). -/
def launchArgs (ls : List (Nat × Launch)) (merged : Bool) (c : CoreSt) : CoreSt :=
  if merged then
    ls.foldl (fun c p => (List.range 4).foldl (fun c i => c.setS (1 + 4 * p.1 + i) (p.2.args.getD i 0)) c) c
  else ls.foldl (fun c p => (List.range 8).foldl (fun c i => c.setS (1 + i) (p.2.args.getD i 0)) c) c

/-- What a kernel that starts takes over: nothing of the one before but registers of the same context, memories and generators. -/
def CoreSt.fresh (c : CoreSt) (cycle bundles : Nat) (ls : List (Nat × Launch)) (key : Nat × Nat) : CoreSt :=
  { c with cycle := cycle, extra := 0, planned := 0, align := false, begun := false, late := [], loops := [], bundle := 0, bundles := bundles,
           branch := none, pend := [], score := [], queues := [], perf := none, active := c.idle, loaded := false, running := ls, lastCtx := some key,
           kern := c.kern + 1, ended := false, stopped := false, faults := [], tickWait := false, acq := none }

/-- Start a kernel: bundle 0 issues in the first frame slot 0 cycle that R196 allows, 64 cc later when the registers are zeroed (R182). -/
def Dev.startKernel (d : Dev) (n : Nat) (ls : List (Nat × Launch)) (bundles : Nat) : Dev :=
  let merged := ls.length == 2
  let first := ls.headD (0, launchOf (zeros 128) 0 0)
  let key := if merged then (2, d.fld (ctxId 0 n) + 65536 * d.fld (ctxId 1 n)) else (first.1, d.fld (ctxId first.1 n))
  let c := d.core n
  let zero := decide (c.lastCtx ≠ some key)
  let gap := if c.endedAt = 0 then 0 else c.endedAt + 8
  let from_ := max (max d.nowCc c.cycle) gap + (if zero then 64 else 0)
  let d := d.modCore n fun c =>
    launchArgs ls merged { (if zero then c.zeroRegs else c).fresh (ceilDiv from_ 8 * 8) bundles ls key with
                           tickSeen := d.fld F.TCK_SCHED_INDEX + 1 }
  d.setFld (F.SCP_CORE_STATUS_STATE n) (if d.bit (F.SCP_CORE_CTRL_FREE_RUN n) then 3 else 2)

/-- Whether a core's engines have done all they accepted. -/
def CoreSt.enginesIdle (c : CoreSt) : Bool := !(c.arrayBefore c.no) && c.copies.isEmpty && c.queues.all (·.2.isEmpty)

/-- Whether the core may take its next command: idle or halted, its last completion posted, its engines done, enabled (R196, R198, R201). -/
def Dev.mayLaunch (d : Dev) (n : Nat) : Bool :=
  let c := d.core n
  (d.coreState n == 1 || d.coreState n == 4) && (c.running.isEmpty || c.stopped) && c.enginesIdle && d.bit (F.SCP_CORE_CTRL_CORE_EN n)

/-- A launch whose records passed: it waits for its image, and fails when the image could not be read. -/
def Dev.launchNow (d : Dev) (n : Nat) (is : List Nat) (ls : List (Nat × Launch)) : Dev :=
  let c := d.core n
  match ls with
  | [] => d
  | (_, l) :: _ =>
    if l.resident then (is.foldl Dev.tookEntry d).startKernel n ls l.bundles
    else if c.loaded = false then d
    else if (Store.get (fun _ => (0, 0, [])) c.images c.idle).2.2.isEmpty then (is.foldl Dev.tookEntry d).refuseLaunch n ls
    else (is.foldl Dev.tookEntry d).startKernel n ls l.bundles

/-- COMMAND_LAUNCH: the next command of the core launches when R196 allows (R195 to R197, R292). Outside split mode only set 0 is in use; in
split mode a merged kernel needs the record of both sets. -/
def execCommandLaunch (n : CoreId) (s : State) : Out :=
  act s fun d =>
    if d.mayLaunch n = false then d
    else
      let alone := fun (d : Dev) (k i : Nat) (l : Launch) (bad : Bool) =>
        if d.bit (ctxValid k n) = false then d
        else if bad || (l.merged && !(d.split n)) then (d.tookEntry i).refuseLaunch n [(k, l)]
        else d.launchNow n [i] [(k, l)]
      match d.nextCommand n 0 with
      | (d, none) =>
        if d.split n = false then d
        else match d.nextCommand n 1 with
          | (d, some (i, l, bad)) => if l.merged && !bad then d else alone d 1 i l bad
          | (d, none) => d
      | (d, some (i, l, bad)) =>
        if d.split n && l.merged && !bad then
          match d.nextCommand n 1 with
          | (d, none) => d
          | (d, some (j, m, bad1)) =>
            if d.bit (ctxValid 0 n) = false ∨ d.bit (ctxValid 1 n) = false then d
            else if bad1 || !m.merged || m.image != l.image || (l.args.drop 4 ++ m.args.drop 4).any (· ≠ 0) then
              ((d.tookEntry i).tookEntry j).refuseLaunch n [(0, l), (1, m)]
            else d.launchNow n [i, j] [(0, l), (1, m)]
        else alone d 0 i l bad

end Sys2Proof.Machine
end

