-- ==== Sys2Proof/Machine/Mailbox.lean ====
section
/-! DEFINITION. The mailbox (R400, R401, Table 4) and live update (R411, R412). -/

namespace Sys2Proof.Machine

/-- What an operation answers: the state after, STATUS, and the reply's payload. -/
abbrev MboxAns := State × Nat × List Byte

/-- The mailbox versions of the running image. -/
def Dev.mboxRange (d : Dev) : List Byte := leBytes 2 (mboxLo d.gnd.image) ++ leBytes 2 (mboxHi d.gnd.image)

/-- Reply to a request: its OP with bit 15 set and its REQ_ID. -/
def State.mboxReply (_s : State) (h : MboxHdr) (op : Nat) (a : MboxAns) : State :=
  a.1.on fun d => d.mboxSend h.ver.toNat (op + 0x8000) h.req.toNat a.2.1 h.token.toNat a.2.2

/-- An operation of an open session, carried out by a component; an accepted one renews the lease. -/
def State.mbox (s : State) (h : MboxHdr) (op comp : Nat) (g : State → MboxAns) : State :=
  let d := s.dev
  if (d.ethUp && d.serving) = false then s
  else match d.gnd.session with
    | none => s.mboxReply h op (s, 2, [])
    | some (token, ver) =>
      if h.ver.toNat ≠ ver then s.mboxReply h op (s, 1, d.mboxRange)
      else if h.token.toNat ≠ token then s.mboxReply h op (s, 3, [])
      else if h.full then s.mboxReply h op (s, 4, [])
      else if d.compUp comp = false then s.mboxReply h op (s, 7, [])
      else
        let a := g s
        s.mboxReply h op (if a.2.1 = 0 then (a.1.on Dev.renewLease, a.2) else a)

/-- An answer without a payload. -/
def State.status (s : State) (n : Nat) : MboxAns := (s, n, [])
def State.ok (s : State) (g : Dev → Dev) : MboxAns := (s.on g, 0, [])

/-! ## The session (R401, R409, R410) -/

/-- Open a session under a token. -/
def Dev.openSession (d : Dev) (token ver : Nat) : Dev :=
  ({ d with gnd := { d.gnd with session := some (token, ver) } }.setFld F.GND_STATUS_LEASE 1).renewLease

/-- The reply to an accepted HELLO: version, token, R_Key of the log ring, serial, release. -/
def State.helloReply (s : State) (token ver : Nat) : List Byte :=
  leBytes 2 ver ++ leBytes 16 token ++ leBytes 4 (255 * 2 ^ 24 + s.dev.fld (F.ETH_MR_CTL_KEY 255)) ++ leBytes 8 s.serial ++
    (s.dev.gnd.image.drop 16).take 8

/-- HELLO. -/
def execHello (h : MboxHdr) (lo hi : BitVec 16) (s : State) : Out :=
  actS s fun s =>
    let d := s.dev
    let ver := min hi.toNat (mboxHi d.gnd.image)
    let token := h.token.toNat
    if (d.ethUp && d.serving) = false then s
    else if ver < max lo.toNat (mboxLo d.gnd.image) then s.mboxReply h 1 (s, 1, d.mboxRange)
    else if h.full then s.mboxReply h 1 (s, 4, [])
    else if d.compUp 0 = false then s.mboxReply h 1 (s, 7, [])
    else if token = 0 then
      if d.gnd.session.isSome then s.mboxReply h 1 (s, 5, [])
      else
        let (t, d) := d.drawBytes 16
        let s := { s with dev := d.openSession (leNat t) ver }
        s.mboxReply h 1 (s, 0, s.helloReply (leNat t) ver)
    else if d.gnd.heldTok = some token then
      let s := s.on fun d => d.openSession token ver
      s.mboxReply h 1 (s, 0, s.helloReply token ver)
    else s.mboxReply h 1 (s, 3, [])

/-- RENEW: the reply gives the lease remaining, in ms. -/
def execRenew (h : MboxHdr) (s : State) : Out :=
  actS s fun s => s.mbox h 2 0 fun s => (s, 0, leBytes 4 (s.dev.fld F.GND_LEASE_MS))

/-- RECLAIM: the held session's driver gets its jobs back, still paused. -/
def execReclaim (h : MboxHdr) (s : State) : Out :=
  actS s fun s => s.mbox h 3 1 fun s =>
    let held := s.dev.gnd.jobs.filter (·.state == 3)
    if s.dev.gnd.heldTok ≠ some h.token.toNat then s.status 5
    else
      let s := s.on fun d =>
        let d := { d with gnd := { d.gnd with jobs := d.gnd.jobs.map fun (j : Job) => if j.state = 3 then { j with state := 2 } else j } }
        ({ d with gnd := { d.gnd with heldTok := none, hold := none } }).raise F.GND_EVENT_RECLAIMED 0 clsInfo
      (s, 0, (held.map fun j => leBytes 2 j.tag).flatten)

/-- GOODBYE: answered, and the lease ends at once. -/
def execGoodbye (h : MboxHdr) (s : State) : Out :=
  actS s fun s => s.mbox h 4 0 fun s => s.ok Dev.endLease

/-! ## Queue pairs and regions (R363 to R365) -/

/-- QP_CREATE: role 2 host control or 3 depot, the peer's QPN, PSN and address; the reply gives the QPN. -/
def execQpCreate (h : MboxHdr) (role : BitVec 8) (peer psn : BitVec 24) (ip : BitVec 128) (s : State) : Out :=
  actS s fun s => s.mbox h 0x10 3 fun s =>
    let d := s.dev
    let range := if role = 2 then (List.range 64).map (0x100 + ·) else (List.range 256).map (0x1000 + ·)
    if role ≠ 2 ∧ role ≠ 3 then s.status 6
    else if d.fld F.ETH_STATUS_FLOWS_FREE = 0 then s.status 5
    else match range.find? fun n => (d.qp n).isNone with
      | none => s.status 5
      | some n =>
        let (w, d) := d.drawWord
        ({ s with dev := d.newQp n role.toNat peer.toNat ip.toNat psn.toNat (w.toNat % 2 ^ 24) }, 0, leBytes 4 n)

/-- QP_DESTROY: depot records on it end. -/
def execQpDestroy (h : MboxHdr) (n : BitVec 24) (s : State) : Out :=
  actS s fun s => s.mbox h 0x11 3 fun s =>
    match s.dev.qp n.toNat with
    | none => s.status 5
    | some q =>
      if q.role < 2 then s.status 5
      else s.ok fun d =>
        let mine := d.eth.recs.filter fun r => r.qp == n.toNat && !r.written
        let d := { d with eth := { d.eth with recs := d.eth.recs.filter fun r => r.qp != n.toNat || r.written } }
        let d := (d.setQp n.toNat none).freeFlow
        mine.foldl (fun d r => d.depotFail r.job r.done F.ETH_EVENT_QP_ERR) d

/-- REGION_SET: one region table entry other than 255. -/
def execRegionSet (h : MboxHdr) (i : Fin 256) (base ctl : Word) (s : State) : Out :=
  actS s fun s => s.mbox h 0x30 3 fun s =>
    let sz := (F.ETH_MR_CTL_SIZE_LOG2 i).of ctl
    if i.val = 255 then s.status 5
    else if sz < 12 ∨ 34 < sz then s.status 6
    else
      let s := s.on fun d => (d.setFld (F.ETH_MR_BASE_BASE i) ((F.ETH_MR_BASE_BASE i).of base)).writeMr i ctl.toNat
      if ctl.getLsbD 63 && !s.dev.bit (F.ETH_MR_CTL_VALID i) then s.status 5 else s.status 0

/-! ## Jobs (R404 to R406) -/

/-- JOB_CREATE. -/
def execJobCreate (h : MboxHdr) (j : JobSpec) (s : State) : Out :=
  actS s fun s => s.mbox h 0x20 1 fun s =>
    if j.tag = 0xFFFF ∨ 2 < j.policy.toNat ∨ j.x1.toNat < j.x0.toNat ∨ j.y1.toNat < j.y0.toNat ∨ j.last.toNat < j.first.toNat ∨ 382 < j.last.toNat then
      s.status 6
    else if s.dev.gnd.jobs.any (·.tag == j.tag.toNat) ∨ s.dev.str.kills.any (·.1 == j.tag.toNat) then s.status 5
    else s.ok fun d =>
      let job : Job := ⟨j.tag.toNat, j.x0.toNat, j.x1.toNat, j.y0.toNat, j.y1.toNat, j.first.toNat, j.last.toNat, j.ctxs.map (·.toNat),
        j.policy.toNat, j.resume.toNat, 0⟩
      { d with gnd := { d.gnd with jobs := d.gnd.jobs ++ [job] } }

/-- An operation on a job that firmware keeps in one of some states. -/
def State.onJob (s : State) (job : Nat) (states : List Nat) (g : Dev → Dev) : MboxAns :=
  if s.dev.gnd.jobs.any fun j => j.tag == job && states.contains j.state then s.ok g else s.status 5

/-- JOB_START. -/
def execJobStart (h : MboxHdr) (job : BitVec 16) (s : State) : Out :=
  actS s fun s => s.mbox h 0x21 1 fun s => s.onJob job.toNat [0] fun d => d.setJob job.toNat 1
/-- JOB_PAUSE (R405). -/
def execJobPause (h : MboxHdr) (job : BitVec 16) (s : State) : Out :=
  actS s fun s => s.mbox h 0x22 1 fun s => s.onJob job.toNat [1] fun d => d.pauseJob job.toNat 2
/-- JOB_RESUME (R406). -/
def execJobResume (h : MboxHdr) (job : BitVec 16) (s : State) : Out :=
  actS s fun s => s.mbox h 0x23 1 fun s => s.onJob job.toNat [2] fun d => d.resumeJob job.toNat
/-- JOB_KILL (R289). -/
def execJobKill (h : MboxHdr) (job : BitVec 16) (s : State) : Out :=
  actS s fun s => s.mbox h 0x24 1 fun s => s.onJob job.toNat [0, 1, 2, 3, 4] fun d =>
    let d := d.killJob job.toNat
    { d with gnd := { d.gnd with jobs := d.gnd.jobs.filter (·.tag ≠ job.toNat) } }

/-! ## Traces, attestation, keys -/

/-- TRACE_SET: sixteen words of enable bits. -/
def execTraceSet (h : MboxHdr) (bits : List Word) (s : State) : Out :=
  actS s fun s => s.mbox h 0x40 7 fun s =>
    if bits.length ≠ 16 then s.status 6
    else s.ok fun d => bits.zipIdx.foldl (fun d p => d.setReg (R.GND_TRACE_EN p.2) p.1) d

/-- TRACE_INFO: the trace catalogue, section 8 of the image. -/
def execTraceInfo (h : MboxHdr) (s : State) : Out :=
  actS s fun s => s.mbox h 0x41 7 fun s => (s, 0, secBytes s.dev.gnd.image 8)

/-- MAILBOX_ATTEST (R383). -/
def execMailboxAttest (h : MboxHdr) (nonce : List Byte) (s : State) : Out :=
  actS s fun s => s.mbox h 0x50 5 fun s =>
    if nonce.length ≠ 64 then s.status 6
    else if s.dev.bit F.SEC_STATUS_LOCKED = false then s.status 5
    else (s, 0, s.report nonce)

/-- MAILBOX_KEY_IMPORT (R389). -/
def execMailboxKeyImport (h : MboxHdr) (rec_ : List Byte) (s : State) : Out :=
  actS s fun s => s.mbox h 0x70 5 fun s =>
    if rec_.length ≠ 112 then s.status 6
    else match s.unwrap rec_ with
      | .ok (handle, s) => (s, 0, leBytes 4 handle)
      | .error e => (s.on fun d => if e = 3 then d.countErr F.SEC_ERR_COUNT_AUTH F.SEC_EVENT_COUNT_SAT 0 else d).status 5

/-! ## Live update (R411, R412) -/

/-- UPDATE_BEGIN: a new announcement discards what was staged. -/
def execUpdateBegin (h : MboxHdr) (len : BitVec 32) (s : State) : Out :=
  actS s fun s => s.mbox h 0x60 0 fun s =>
    if imageMax < len.toNat then s.status 6
    else if !s.dev.gnd.swaps.isEmpty then s.status 5
    else s.ok fun d => { d with gnd := { d.gnd with stageLen := some len.toNat, staged := [] } }

/-- UPDATE_CHUNK: the next bytes, in order. -/
def execUpdateChunk (h : MboxHdr) (offset : BitVec 32) (bytes : List Byte) (s : State) : Out :=
  actS s fun s => s.mbox h 0x61 0 fun s =>
    match s.dev.gnd.stageLen with
    | none => s.status 5
    | some n =>
      if !s.dev.gnd.swaps.isEmpty then s.status 5
      else if offset.toNat ≠ s.dev.gnd.staged.length ∨ n < offset.toNat + bytes.length then s.status 6
      else s.ok fun d =>
        let d := (d.hbmWrite (stagedAt + offset.toNat) bytes).1
        { d with gnd := { d.gnd with staged := d.gnd.staged ++ bytes } }

/-- The components whose sections differ, last first. -/
def changed (old new : List Byte) : List Nat := [7, 6, 5, 4, 3, 2, 1].filter fun id => secDigest old id != secDigest new id

/-- Whether a staged image may replace the running one. -/
def State.updateOk (s : State) (len : Nat) : Bool :=
  let old := s.dev.gnd.image
  let new := s.dev.gnd.staged
  s.imageStatus len new == 0 && imageK new == imageK old && imageSvn new == s.dev.fld (F.SEC_SVN_RUN_RUN (imageK old)) &&
    secDigest new 0 == secDigest old 0 &&
    (changed old new).all fun id => decide (stateMin new id ≤ stateOut old id) && decide (stateOut old id ≤ stateMax new id)

/-- The update is complete: the new image is the running one. -/
def Dev.updateDone (d : Dev) : Dev :=
  let im := d.gnd.next
  let d := (d.hbmWrite imageAt im).1
  let d := { d with gnd := { d.gnd with image := im, next := [], staged := [], stageLen := none } }
  (d.setFld F.GND_STATUS_STATE 3).raise F.GND_EVENT_UPDATE_DONE 0 clsInfo

/-- UPDATE_COMMIT: the staged image is checked; the swaps follow, or the update is refused. -/
def execUpdateCommit (h : MboxHdr) (s : State) : Out :=
  actS s fun s => s.mbox h 0x62 0 fun s =>
    let refuse := fun (s : State) => (s.on fun d => d.raise F.GND_EVENT_UPDATE_REFUSED 0 clsContained).status 5
    match s.dev.gnd.stageLen with
    | none => refuse s
    | some len =>
      if !s.dev.gnd.swaps.isEmpty ∨ s.updateOk len = false then refuse s
      else s.ok fun d =>
        let swaps := changed d.gnd.image d.gnd.staged
        let d := { d with gnd := { d.gnd with next := d.gnd.staged, swaps := swaps } }
        if swaps.isEmpty then d.updateDone else d.setFld F.GND_STATUS_STATE 4

/-- UPDATE_ABORT: at any time before the first swap. -/
def execUpdateAbort (h : MboxHdr) (s : State) : Out :=
  actS s fun s => s.mbox h 0x63 0 fun s =>
    if s.dev.gnd.stageLen.isNone then s.status 5
    else s.ok fun d => ({ d with gnd := { d.gnd with stageLen := none, staged := [], next := [], swaps := [] } }).setFld F.GND_STATUS_STATE 3

/-- COMPONENT_SWAP: the next changed component is replaced through its state record; one that is down waits. -/
def execComponentSwap (s : State) : Out :=
  act s fun d =>
    match d.gnd.swaps with
    | [] => d
    | c :: cs =>
      if d.compUp c = false then d
      else
        let im := d.gnd.next
        let d := (d.setFld (F.GND_COMP_STATE c) 2).setFld (F.GND_COMP_STATE_VER c) (stateOut im c)
        let d := d.extend 7 (secDigest im c)
        let d := { d with gnd := { d.gnd with swaps := cs, stageLen := none, staged := [] } }
        if cs.isEmpty then d.updateDone else d

end Sys2Proof.Machine
end

