-- ==== Sys2Proof/Machine/RegRead.lean ====
section
/-! DEFINITION. Register reads: fields that show other state, and the read of TEL_EVQ_LO (R8, R443, R449, R455). -/

namespace Sys2Proof.Machine

/-- A word whose bit i is the i-th of some truth values. -/
def bitsOf (n : Nat) (g : Nat → Bool) : Nat := ((List.range n).map fun i => b2n (g i) * 2 ^ i).sum

/-- Whether a block has an event register that is non-zero (TEL_EVT_SUM). -/
def Dev.blockEvents (d : Dev) (b : Nat) : Bool :=
  let any := fun (ks : List Nat) => ks.any fun k => d.reg k != 0
  match b with
  | 0 => any [R.TCK_EVENT]
  | 1 => any [R.TTH_EVENT, R.TTH_RIDE_EVENT]
  | 2 => any (R.LNK_DEV_EVENT :: (List.range 4).map R.LNK_EVENT)
  | 3 => any [R.CDC_EVENT]
  | 4 => any ((List.range 12).map R.KEL_EVENT)
  | 5 => any ((List.range 144).map R.SCP_EVENT)
  | 6 => any ((List.range 144).map R.MTX_EVENT)
  | 7 => any [R.STR_EVENT]
  | 8 => any [R.ETH_EVENT]
  | 9 => any [R.SEC_EVENT]
  | 10 => any [R.GND_EVENT]
  | 11 => any [R.PWR_EVENT]
  | 12 => any [R.NVS_EVENT]
  | 13 => any [R.TEL_EVENT]
  | 14 => any [R.DEV_EVENT, R.DEV_WIN_EVENT]
  | _ => false

/-- Time left until an instant, in units, rounded up. -/
def Dev.remain (d : Dev) (t : Option Nat) (unit : Nat) : Nat := match t with | some t => ceilDiv (t - d.time) unit | none => 0

/-- DEV_STATUS (Table 6). -/
def Dev.devStatus (d : Dev) : Word :=
  let w := d.reg R.DEV_STATUS
  let w := F.DEV_STATUS_HBM_READY.into w (b2n ((List.range 12).all fun k => d.fld (F.KEL_STATUS_STATE k) == 2))
  let w := F.DEV_STATUS_FATAL.into w (b2n (d.fld F.TEL_FATAL_CAUSE != 0))
  F.DEV_STATUS_TRIP.into w (b2n (d.fld F.PWR_STATUS_STATE == 4))

/-- STR_STATUS (Table 11): an index whose channel was destroyed is free once it has returned (R272, R285). -/
def Dev.strStatus (d : Dev) : Word :=
  let w := F.STR_STATUS_DESC_FREE.into 0 (16384 - d.str.descs.length)
  let w := F.STR_STATUS_CHAN_FREE.into w (8192 - d.str.fresh + d.str.freed.length)
  let w := F.STR_STATUS_ZEROING.into w (b2n (d.str.rels.any (·.tables) || !d.str.kills.isEmpty))
  F.STR_STATUS_CACHE_ACTIVE.into w (b2n (d.cacheSlots != 0))

/-- MTX_CORE_STATUS of a core (Table 11 of the matrix chapter). One MDRAIN of those accepted is performing. -/
def Dev.mtxStatus (d : Dev) (n : Nat) : Word :=
  let c := d.core n
  let now := d.cycleOf n
  let form := fun (h : Nat) => (c.unit h).form now
  let w := d.reg (R.MTX_CORE_STATUS n)
  let w := (F.MTX_CORE_STATUS_FORM0 n).into w (form 0)
  let w := (F.MTX_CORE_STATUS_FORM1 n).into w (if d.split n then form 1 else 0)
  let w := (F.MTX_CORE_STATUS_AQ0 n).into w (c.unit 0).aq.length
  let w := (F.MTX_CORE_STATUS_AQ1 n).into w (c.unit 1).aq.length
  let w := (F.MTX_CORE_STATUS_DQ0 n).into w ((c.unit 0).dq.length - 1)
  let w := (F.MTX_CORE_STATUS_DQ1 n).into w ((c.unit 1).dq.length - 1)
  let w := (F.MTX_CORE_STATUS_FROZEN n).into w (b2n (decide (c.frozen.1 ≤ now) && decide (now < c.frozen.2)))
  (F.MTX_CORE_STATUS_BALLAST n).into w (b2n (d.bit F.PWR_CTRL_GOV_EN && d.fld F.PWR_TARGET_BALLAST_W != 0 && form 0 == 0 && form 1 == 0))

/-- What the register of a key shows. -/
def Dev.view (d : Dev) (k : Nat) : Word :=
  if k = R.DEV_STATUS then d.devStatus
  else if k = R.STR_STATUS then d.strStatus
  else if k = R.TEL_EVT_SUM then BitVec.ofNat 64 (bitsOf 15 d.blockEvents)
  else if k = R.TEL_EVQ_HI then (d.tel.evq.head?.map (·.1)).getD 0
  else if k = R.TEL_EVQ_LO then (d.tel.evq.head?.map (·.2)).getD 0
  else if k = R.TEL_EVQ_STATUS then BitVec.ofNat 64 d.tel.evq.length
  else if k = R.LNK_EVT_SUM then BitVec.ofNat 64 (bitsOf 4 fun p => d.reg (R.LNK_EVENT p) != 0)
  else if k = R.KEL_EVT_SUM then BitVec.ofNat 64 (bitsOf 12 fun i => d.reg (R.KEL_EVENT i) != 0)
  else if k = R.SCP_EVT_SUM 0 ∨ k = R.SCP_EVT_SUM 1 ∨ k = R.SCP_EVT_SUM 2 then
    let g := (k - R.SCP_EVT_SUM 0) / 8 * 64
    BitVec.ofNat 64 (bitsOf (min 64 (144 - g)) fun i => d.reg (R.SCP_EVENT (g + i)) != 0)
  else if k = R.MTX_EVT_SUM 0 ∨ k = R.MTX_EVT_SUM 1 ∨ k = R.MTX_EVT_SUM 2 then
    let g := (k - R.MTX_EVT_SUM 0) / 8 * 64
    BitVec.ofNat 64 (bitsOf (min 64 (144 - g)) fun i => d.reg (R.MTX_EVENT (g + i)) != 0)
  else if k = R.SEC_STATUS then F.SEC_STATUS_KEYS_FREE.into (d.reg k) d.keysFree
  else if k = R.GND_LEASE then F.GND_LEASE_REMAIN_MS.into (d.reg k) (d.remain d.gnd.lease msUnits)
  else if k = R.GND_HOLD then F.GND_HOLD_REMAIN_S.into (d.reg k) (d.remain d.gnd.hold (1000 * msUnits))
  else if R.GND_COMP 0 ≤ k ∧ k ≤ R.GND_COMP 7 then
    (F.GND_COMP_RESTARTS 0).into (d.reg k) (d.crashTimes ((k - R.GND_COMP 0) / 8)).length
  else if R.STR_CTX 0 ≤ k ∧ k ≤ R.STR_CTX 2047 then (F.STR_CTX_IN_USE 0).into (d.reg k) (d.inUse ((k - R.STR_CTX 0) / 8))
  else if k = R.LNK_PSTATUS 0 ∨ k = R.LNK_PSTATUS 1 ∨ k = R.LNK_PSTATUS 2 ∨ k = R.LNK_PSTATUS 3 then
    (F.LNK_PSTATUS_IN_REGION 0).into (d.reg k) (b2n (d.portIn ((k - R.LNK_PSTATUS 0) / 0x100)))
  else if 0x50000 ≤ k ∧ k < 0x59000 ∧ k % 0x100 = 0x70 then
    BitVec.ofNat 64 (d.cycleOf ((k - 0x50000) / 0x100))
  else if 0x60000 ≤ k ∧ k < 0x69000 ∧ k % 0x100 = 0x08 then d.mtxStatus ((k - 0x60000) / 0x100)
  else d.reg k

/-- Read the register at an offset: its word, write-only fields as 0; none where no register is assigned. Reading TEL_EVQ_LO removes the head
record. -/
def Dev.readReg (d : Dev) (off : Nat) : Dev × Option Word :=
  match d.regAt off with
  | none => (d, none)
  | some (r, k) =>
    let w := d.view k &&& ~~~(BitVec.ofNat 64 r.wo)
    (if k = R.TEL_EVQ_LO then d.evqPop.1 else d, some w)

end Sys2Proof.Machine
end

