-- ==== Sys2Proof/Machine/Scratch.lean ====
section
/-! DEFINITION. The scratchpad's own work and the SCP registers: error write-back, scrubbing, segment power and the context sets
(R119, R122 to R126, R129 to R131, R290). -/

namespace Sys2Proof.Machine

/-! ## Codewords (R123, R124) -/

/-- ECC_WRITEBACK: the oldest correction that waits for this bank is written back (R123). -/
def execEccWriteback (n : CoreId) (bank : Fin 32) (s : State) : Out :=
  act s fun d => d.modCore n fun c =>
    match c.fixing.find? fun w => w / 16 % 32 == bank.val with
    | none => c
    | some w => { c with fixing := c.fixing.filter (· ≠ w), badCw := c.badCw.filter fun q => q.1 ≠ w || q.2 }

/-- The next row of a bank from row r on whose segment is powered; at most six segments are passed over. -/
def scrubFrom (ready : Nat) : Nat → Nat → Option Nat
  | 0, _ => none
  | k + 1, r => if bitOf ready (r / 256) then some r else scrubFrom ready k ((r / 256 + 1) * 256 % 1536)

/-- What a scrub records of a double error: ENGINE 5, and no context is faulted (R124). -/
def Dev.scrubFault (d : Dev) (n a : Nat) : Dev :=
  let d := d.setFld (F.SCP_FAULT_KIND n) 6
  let d := d.setFld (F.SCP_FAULT_ENGINE n) 5
  let d := d.setFld (F.SCP_FAULT_SET n) 0
  (d.setFld (F.SCP_FAULT_ADDR n) a).raise (F.SCP_EVENT_FAULT n) n clsContained

/-- Accumulator memory scrubs its next row of 512 bytes (R127); a double error there has no offset for SCP_FAULT (log 170). -/
def Dev.scrubAcc (d : Dev) (n : Nat) : Dev :=
  let r := Store.get (fun _ => 0) (d.core n).scrubRow 32
  let d := d.modCore n fun c => { c with scrubRow := Store.put (fun _ => 0) c.scrubRow 32 ((r + 1) % 2048) }
  match d.accRead n false 0 r with
  | (d, true) => d.scrubFault n 0
  | (d, false) => d

/-- SCRUB_READ: a bank scrubs its next row (R124); accumulator memory scrubs one when bank 0 does (log 170). -/
def execScrubRead (n : CoreId) (bank : Fin 32) (s : State) : Out :=
  act s fun d =>
    if d.bit (F.SCP_CORE_CTRL_SCRUB_EN n) = false then d
    else
      let d := if bank.val = 0 then d.scrubAcc n else d
      match scrubFrom (d.fld (F.SCP_PWR_SEG_READY n)) 7 (Store.get (fun _ => 0) (d.core n).scrubRow bank.val) with
      | none => d
      | some r =>
        let d := d.modCore n fun c => { c with scrubRow := Store.put (fun _ => 0) c.scrubRow bank.val ((r + 1) % 1536) }
        let a := (r * 32 + bank.val) * 128
        match d.eccRead n a 128 with
        | (d, false) => d
        | (d, true) => d.scrubFault n a

/-! ## Segments (R125, R126) -/

/-- Power a segment down: it is unusable at once (R125). -/
def Dev.segOff (d : Dev) (n k : Nat) : Dev :=
  let d := d.setFld (F.SCP_PWR_SEG_OFF n) (d.fld (F.SCP_PWR_SEG_OFF n) ||| 2 ^ k)
  let r := d.fld (F.SCP_PWR_SEG_READY n)
  d.setFld (F.SCP_PWR_SEG_READY n) (if bitOf r k then r - 2 ^ k else r)

/-- Start waking a segment (R126): ready 4,096 cc after the write. -/
def Dev.segOn (d : Dev) (n k : Nat) : Dev :=
  let o := d.fld (F.SCP_PWR_SEG_OFF n)
  let d := d.setFld (F.SCP_PWR_SEG_OFF n) (if bitOf o k then o - 2 ^ k else o)
  let d := d.setFld (F.SCP_CORE_STATUS_WAKING n) 1
  d.modCore n fun c => { c with waking := c.waking ++ [(k, d.nowCc + 4096, none)] }

/-- A write to one bit of SEG_OFF: a second write to a waking segment is held (R126). -/
def Dev.segWrite (d : Dev) (n k : Nat) (off : Bool) : Dev :=
  if (d.core n).waking.any (·.1 == k) then
    if off = false ∧ ((d.core n).waking.find? (·.1 == k)).bind (·.2.2) = none then d
    else d.modCore n fun c => { c with waking := c.waking.map fun w => if w.1 = k then (w.1, w.2.1, some off) else w }
  else if off = bitOf (d.fld (F.SCP_PWR_SEG_OFF n)) k then d
  else if off then d.segOff n k else d.segOn n k

/-- A write of SCP_PWR. -/
def Dev.writePwr (d : Dev) (n v : Nat) : Dev := (List.range 6).foldl (fun d k => d.segWrite n k (bitOf v k)) d

/-- SEG_POWER_DOWN: a write of 1 to bit k of SCP_PWR.SEG_OFF (R125). -/
def execSegPowerDown (t : Tag) (n : CoreId) (k : Fin 6) (s : State) : Out :=
  act s fun d => d.fw t.toNat (R.SCP_PWR n) fun d => d.segWrite n k true

/-- SEG_WAKE: a write of 0 to bit k of SCP_PWR.SEG_OFF (R126). -/
def execSegWake (t : Tag) (n : CoreId) (k : Fin 6) (s : State) : Out :=
  act s fun d => d.fw t.toNat (R.SCP_PWR n) fun d => d.segWrite n k false

/-- SEG_WAKE_COMPLETE: the segment is cleared and ready, and a held write is applied (R126). -/
def execSegWakeComplete (n : CoreId) (k : Fin 6) (s : State) : Out :=
  act s fun d =>
    match (d.core n).waking.find? (·.1 == k.val) with
    | none => d
    | some (_, cyc, held) =>
      let d := (d.at_ (d.timeOfCc cyc)).zero (scpWin n + k * 0x100000) 0x100000
      let d := d.modCore n fun c =>
        { c with waking := c.waking.filter (·.1 ≠ k.val), badCw := c.badCw.filter fun q => q.1 * 8 / 0x100000 ≠ k.val,
                 fixing := c.fixing.filter fun w => w * 8 / 0x100000 ≠ k.val }
      let d := d.setFld (F.SCP_PWR_SEG_READY n) (d.fld (F.SCP_PWR_SEG_READY n) ||| 2 ^ k.val)
      let d := d.setFld (F.SCP_CORE_STATUS_WAKING n) (b2n (!(d.core n).waking.isEmpty))
      if held = some true then d.segOff n k else d

/-! ## Core control and context sets -/

/-- Whether writes of CORE_EN = 1 are discarded: a thermal trip or a device-fatal cause stands (R425, R439). -/
def Dev.enHeld (d : Dev) : Bool := d.fld F.TEL_FATAL_CAUSE != 0 || d.fld F.PWR_STATUS_STATE == 4

/-- Set CORE_EN: an idle core without it reads STATE 0 (R131, R196). -/
def Dev.setCoreEn (d : Dev) (n : Nat) (en : Bool) : Dev :=
  let d := d.setFld (F.SCP_CORE_CTRL_CORE_EN n) (b2n en)
  let st := d.coreState n
  if en && st == 0 then d.setFld (F.SCP_CORE_STATUS_STATE n) (d.idleState n)
  else if !en && st == 1 then d.setFld (F.SCP_CORE_STATUS_STATE n) 0 else d

/-- A write of SCP_CORE_CTRL (R122, R129, R131). -/
def Dev.writeScpCtrl (d : Dev) (n v : Nat) : Dev :=
  let d := d.setFld (F.SCP_CORE_CTRL_SLOT_FAULT n) (v / 16)
  let d := d.setFld (F.SCP_CORE_CTRL_SCRUB_EN n) (v / 8)
  let d := if d.running n then d.raise (F.SCP_EVENT_LOCKED_WRITE n) n clsInfo
    else d.setFld (F.SCP_CORE_CTRL_FREE_RUN n) (v / 4)
  let d := if bitOf v 7 then d.scInv n else d
  if bitOf v 0 && d.enHeld then d else d.setCoreEn n (bitOf v 0)

/-- SC_INV: a write of SCP_CORE_CTRL with SC_INV = 1 (R129). -/
def execScInv (t : Tag) (n : CoreId) (v : Word) (s : State) : Out :=
  act s fun d => d.fw t.toNat (R.SCP_CORE_CTRL n) fun d => d.writeScpCtrl n (v ||| 0x80).toNat

/-- Whether a core set is under zeroing (R290). -/
def Dev.setZeroing (d : Dev) (n set : Nat) : Bool :=
  d.str.rels.any fun r => r.zero.any (fun z => z.1 == n && z.2.1 == set) || r.regs.contains (n, set)

/-- A write of SCP_CTXn: a change empties the scalar cache, and clearing VALID ends the set's fence (R119, R129, R156, R290); VALID = 1 is a
grant over its HBM range (R390). -/
def Dev.writeCtx (d : Dev) (n set v : Nat) : Dev :=
  let r := if set = 0 then R.SCP_CTX0 n else R.SCP_CTX1 n
  let put := fun (d : Dev) => let d' := d.plain r v; if d'.reg r = d.reg r then d' else d'.scInv n
  if bitOf v 63 = false then (put d).setFld (if set = 0 then F.MTX_CORE_STATUS_FENCED0 n else F.MTX_CORE_STATUS_FENCED1 n) 0
  else if d.setZeroing n set then d.raise (F.SCP_EVENT_CONFIG_ERR n) n clsInfo
  else
    d.granted (gibsOf (d.setHbm n set).1 (d.setHbm n set).2) ((ctxJob set n).ofNat v) fun d => if set = 0 then (put d).revive n else put d

/-- A write of a register of a core set (R122): locked while the set is valid and the core runs; out of range raises CONFIG_ERR. -/
def Dev.writeSet (d : Dev) (n set reg v : Nat) : Dev :=
  let cfgErr := fun (d : Dev) => d.raise (F.SCP_EVENT_CONFIG_ERR n) n clsInfo
  let off := 0x50000 + 0x100 * n + 0x18 + 0x20 * set + 8 * reg
  if d.running n && d.bit (ctxValid set n) then d.raise (F.SCP_EVENT_LOCKED_WRITE n) n clsInfo
  else match reg with
    | 0 => d.writeCtx n set v
    | 1 => if 1536 < v % 2 ^ 12 + v / 2 ^ 32 % 2 ^ 12 then cfgErr d else d.plain off v
    | 2 => if hbmSize < (v / 2 ^ 16 % 2 ^ 28 + d.fld (ctxHbmBound set n)) * 65536 then cfgErr d else d.plain off v
    | _ => if hbmSize < (v / 2 ^ 16 % 2 ^ 28 + d.fld (ctxHbmBase set n)) * 65536 then cfgErr d else d.plain off v

/-- A write to the SCP block. -/
def Dev.writeSCP (d : Dev) (off v : Nat) : Dev :=
  let n := (off - 0x50000) / 0x100
  let o := off % 0x100
  if off = R.SCP_SCRUB then (if v % 65536 = 0 then d.rsvWrite off else d.plain off v)
  else if 144 ≤ n then d.plain off v
  else if o = 0 then d.writeScpCtrl n v
  else if o = 0x10 then d.writePwr n v
  else if 0x18 ≤ o ∧ o ≤ 0x50 ∧ o % 8 = 0 then d.writeSet n ((o - 0x18) / 0x20) ((o - 0x18) / 8 % 4) v
  else d.plain off v

end Sys2Proof.Machine
end

