-- ==== Sys2Proof/Machine/RegWrite.lean ====
section
/-! DEFINITION. Register writes: the block an offset lies in, tags, widths, reserved values and locks (R4, R7, R8, R296, R448, R449, R454). -/

namespace Sys2Proof.Machine

/-- A write to the MTX block. -/
def Dev.writeMTX (d : Dev) (off v : Nat) : Dev :=
  if off % 0x100 = 0 ∧ off < 0x69000 then d.writeCoreCtrl ((off - 0x60000) / 0x100) v else d.plain off v

/-- A write to the STR block (R293). -/
def Dev.writeSTR (d : Dev) (off v : Nat) : Dev :=
  if off = R.STR_CTRL then
    if F.STR_CTRL_READ_SHARE.ofNat v + F.STR_CTRL_WRITE_SHARE.ofNat v + F.STR_CTRL_REMOTE_SHARE.ofNat v ≠ 20 then d.rsvWrite off
    else
      let d := d.plain off v
      if d.bit F.STR_CTRL_CACHE_EN then d else d.cacheInv
  else if off = R.STR_CTX_CMD then d.ctxCmd v
  else if off = R.STR_CHAN_CMD then d.chanCmd 0xFFFF v
  else if off = R.STR_PUSH then d.strPush v
  else if off = 0x70018 then (if 16384 < (F.STR_CTX_QUOTA 0).ofNat v then d.rsvWrite off else d.plain off v)
  else d.plain off v

/-- A write to the DEV block (R301, R454). -/
def Dev.writeDEV (d : Dev) (off v : Nat) : Dev :=
  if R.DEV_WIN_CTL 0 ≤ off ∧ off ≤ R.DEV_WIN_CTL 63 ∧ off % 16 = 8 then d.writeWin ((off - R.DEV_WIN_CTL 0) / 16) v else d.plain off v

/-- A firmware write of a register. -/
def State.writeBlock (s : State) (off v : Nat) : State :=
  match off / 0x10000 with
  | 0 => s.on fun d => d.writeTCK off v
  | 1 => s.on fun d => if off = R.TTH_RELAY_CMD then d.relayCmd v else d.writeTTH off v
  | 2 => s.on fun d => d.writeLNK off v
  | 3 => s.on fun d => d.writeCDC off v
  | 4 => s.on fun d => d.writeKEL off v
  | 5 => s.on fun d => d.writeSCP off v
  | 6 => s.on fun d => d.writeMTX off v
  | 7 => s.on fun d => d.writeSTR off v
  | 8 => s.on fun d => d.writeETH off v
  | 9 => s.writeSEC off v
  | 10 => s.on fun d => d.writeGND off v
  | 11 => s.on fun d => d.writePWR off v
  | 12 => s.writeNVS off v
  | 13 => s.on fun d => d.writeTEL off v
  | _ => s.on fun d => d.writeDEV off v

/-- Whether a write of a register is performed: an aligned 8-byte access to an assigned offset, with the firmware tag, or a job's to
STR_CHAN_CMD (R296, R449). -/
def Dev.regOpen (d : Dev) (tag off width : Nat) : Bool :=
  width == 8 && off % 8 == 0 && (d.regAt off).isSome && (tag == 0xFFFF || off == R.STR_CHAN_CMD)

/-- A write to the register space; false when it is refused with CAUSE 1. -/
def State.regWrite (s : State) (tag off width v : Nat) (peer : Option (Nat × Nat) := none) : State × Bool :=
  if s.dev.regOpen tag off width = false then (s.on fun d => d.refuse (regBase + off) peer, false)
  else if tag = 0xFFFF then (s.writeBlock off (v % 2 ^ 64), true)
  else (s.on fun d => d.chanCmd tag (v % 2 ^ 64), true)

/-- REGISTER_WRITE: a write of `width` bytes to an offset of the register space. -/
def execRegisterWrite (t : Tag) (off : BitVec 24) (width : Nat) (v : Word) (s : State) : Out :=
  actS s fun s => (s.regWrite t.toNat off.toNat width v.toNat).1

end Sys2Proof.Machine
end

