-- ==== Sys2Proof/Machine/MemModel.lean ====
section
/-! DEFINITION. Requests at their homes, requests of other devices, far apertures, and the grant registers (R114, R219, R296 to R301, R303, R306,
R325, R327, R390). -/

namespace Sys2Proof.Machine

/-! ## Performing a request -/

/-- The homes of a request's first and last byte. -/
def Req.homes (ilv : Nat) (r : Req) : List (Region × Nat) := [homeOf ilv r.addr, homeOf ilv (r.addr + (r.op.len - 1))]

/-- The peer a request comes from, none for this device. -/
def Req.peer (r : Req) : Option (Nat × Nat) := if r.src < 4000 then none else some ((r.src - 4000) % 128, (r.src - 4000) / 128)

/-- The i-th waiting request, when it may be performed now: it has not left, the writes it must follow have been performed, and no earlier
request of its source waits at its home (R306, R309). -/
def Dev.performable (d : Dev) (i : Nat) : Option Req :=
  match d.home.reqs[i]? with
  | none => none
  | some r =>
    let early := (d.home.reqs.take i).any fun q => !q.away && q.src == r.src && (q.homes d.ilv).any (r.homes d.ilv).contains
    if r.away || early || !(d.released r) then none else some r

/-- The line a scalar cache keeps with a core's load: of HBM, or of another core's window while no double error lies in it (R129). -/
def Dev.keepLine (d : Dev) (r : Req) : List Byte :=
  let a := r.addr / 64 * 64
  if 288 ≤ r.src ∨ r.op.writes then []
  else match regionOf r.addr r.op.len with
    | .hbm => d.rd a 64
    | .scratch =>
      if (d.core ((a - scpBase) / 0x1000000)).badCw.any fun q => q.2 && q.1 * 8 / 64 == a % 0x1000000 / 64 then []
      else d.scpRead ((a - scpBase) / 0x1000000) (a % 0x1000000) 64
    | _ => []

/-- Answer a performed request with the bytes its home gave, or with an error. -/
def Dev.answer (d : Dev) (r : Req) (res : Option (List Byte)) : Dev :=
  let d := d.unwait r.id
  match res with
  | none => d.respond r 0 true
  | some bs =>
    let v := match r.op with
      | .load _ sx => Machine.extend sx bs
      | .atomic _ _ _ _ _ => Machine.extend false bs
      | _ => 0
    d.respond r v false (d.keepLine r) bs

/-- HBM_REQUEST: the i-th waiting request is performed at its keel home (R303, R307, R325). A stack under repair serves none (R322). -/
def execHbmRequest (i : Nat) (s : State) : Out :=
  act s fun d =>
    match d.performable i with
    | none => d
    | some r =>
      if regionOf r.addr 1 ≠ .hbm ∨ d.readWaits r.addr r.op.len then d
      else
        let (d, res) := if regionOf r.addr r.op.len = .hbm then d.memOp r.tag r.addr r.op r.peer else (d.refuse r.addr r.peer, none)
        d.answer r res

/-- A request to the register space (R296, R304): loads and stores of one register; an atomic answers with an error (R219). -/
def State.regReq (s : State) (r : Req) : State × Option (List Byte) :=
  let off := r.addr - regBase
  match r.op with
  | .store bs =>
    match s.regWrite r.tag off bs.length (leNat bs) r.peer with
    | (s, true) => (s, some [])
    | (s, false) => (s, none)
  | .load 8 _ =>
    if r.tag = 0xFFFF ∧ off % 8 = 0 then
      match s.dev.readReg off with
      | (d, some w) => (s.on fun _ => d, some (leBytes 8 w.toNat))
      | (d, none) => (s.on fun _ => d.refuse r.addr r.peer, none)
    else (s.on fun d => d.refuse r.addr r.peer, none)
  | _ => (s.on fun d => d.refuse r.addr r.peer, none)

/-- Whether a request is one that Table 1 lets atomics reach: HBM and scratchpad only (R219). -/
def Req.atomicElsewhere (r : Req) : Bool :=
  match r.op with
  | .atomic _ _ _ _ _ => regionOf r.addr 1 == .landing || regionOf r.addr 1 == .keel
  | _ => false

/-- The words that wait in a core's port, by the request they belong to (R114). -/
def Dev.portWords (d : Dev) (core : Nat) : List Nat := (d.core core).portBuf.filter fun i => d.home.reqs.any (·.id == i)

/-- Whether the port's buffer of 64 words has no room for a request that is not in it yet: the port then withholds mesh credit (R114). -/
def Dev.portFull (d : Dev) (core : Nat) (r : Req) (words : Nat) : Bool :=
  !(d.portWords core).contains r.id && decide (64 < (d.portWords core).length + words)

/-- Whether a request must wait at its home: at a core's port, or at a keel command region (R114, R322, R327). -/
def Dev.homeWaits (d : Dev) (r : Req) : Bool :=
  match r.op with
  | .store bs => d.writeWaits r.addr bs
  | _ => d.readWaits r.addr r.op.len

/-- A request that must wait does so in the buffer of a core's port, while that has room. -/
def Dev.homeWait (d : Dev) (r : Req) : Dev :=
  let core := (r.addr - scpBase) / 0x1000000
  let words := ceilDiv (r.addr % 128 + r.op.len) 128
  if regionOf r.addr r.op.len ≠ .scratch ∨ (d.portWords core).contains r.id ∨ d.portFull core r words then d
  else d.modCore core fun c => { c with portBuf := d.portWords core ++ List.replicate words r.id }

/-- NETWORK_PORT_REQUEST: the i-th waiting request is performed at a home other than HBM: a core's port, where tag and hole are checked and the local
DMA engine goes first (R114, R117, R118), the landing buffer, a keel command region or a register. A held FLAG.REL store to a peer leaves when it is
released. -/
def execNetworkPortRequest (i : Nat) (s : State) : Out :=
  actS s fun s =>
    match s.dev.performable i with
    | none => s
    | some r =>
      if 2 ^ 48 ≤ r.addr then s.on fun d => (d.unwait r.id).sendAway { r with addr := r.addr - 2 ^ 48 }
      else match regionOf r.addr 1 with
        | .hbm => s
        | .far => s
        | .regs =>
          match s.regReq r with
          | (s, res) => s.on fun d => d.answer r res
        | _ =>
          if r.atomicElsewhere then s.on fun d => d.answer r none
          else if s.dev.homeWaits r then s.on fun d => d.homeWait r
          else if regionOf r.addr 1 = .scratch ∧ s.dev.portFull ((r.addr - scpBase) / 0x1000000) r 1 then s
          else s.on fun d => match d.memOp r.tag r.addr r.op r.peer with
            | (d, res) => d.answer r res

/-! ## Other devices (R297 to R300) -/

/-- What another device asks, as a request of that device to a device offset. -/
def accReq (x y tag a : Nat) (q : Access) : Req :=
  let op : ReqOp := match q with
    | .load n => .load n false
    | .store bs => .store bs
    | .atomic aop wide fp v c => .atomic aop.val wide fp v.toNat c.toNat
  Req.of (peerSrc x y) tag a op

/-- A peer's request that passed its checks waits at its home. -/
def Dev.letIn (d : Dev) (r : Req) : Dev := d.issue { r with addr := d.slotNo * 2 ^ 44 + r.addr }

/-- Refuse a peer's request: the record names the requester, and an error goes back to it (R296). -/
def Dev.peerRefuse (d : Dev) (r : Req) (x y cause addr : Nat) (ev : Fld) : Dev := (d.winFault cause addr x y ev).respond r 0 true

/-- PEER_REQUEST: a request of the device at (x, y) of the board arrives, and is admitted by its job tag (R298). Far apertures serve only the
device they belong to (R299). -/
def execPeerRequest (x : BitVec 7) (y : BitVec 6) (t : Tag) (a : BitVec 44) (q : Access) (s : State) : Out :=
  act s fun d =>
    let r := accReq x.toNat y.toNat t.toNat a.toNat q
    if d.admitted t.toNat = false then d.peerRefuse r x.toNat y.toNat 6 a.toNat F.DEV_WIN_EVENT_UNMAPPED
    else if regionOf a.toNat 1 = .far then d.peerRefuse r x.toNat y.toNat 1 a.toNat F.DEV_WIN_EVENT_UNMAPPED
    else d.letIn r

/-- The right a window must grant. -/
def Dev.winRight (d : Dev) (k : Nat) (op : ReqOp) : Bool :=
  match op with
  | .load _ _ => d.bit (F.DEV_WIN_CTL_READ k)
  | .store _ => d.bit (F.DEV_WIN_CTL_WRITE k)
  | _ => d.bit (F.DEV_WIN_CTL_ATOMIC k)

/-- The cause of the first check of Table 2 that a far request fails; 0 when it passes. -/
def Dev.winCause (d : Dev) (k x y tag a : Nat) (op : ReqOp) : Nat :=
  if d.bit (F.DEV_WIN_CTL_VALID k) = false then 2
  else if x < d.fld (F.DEV_WIN_CTL_X0 k) ∨ d.fld (F.DEV_WIN_CTL_X1 k) < x ∨ y < d.fld (F.DEV_WIN_CTL_Y0 k) ∨ d.fld (F.DEV_WIN_CTL_Y1 k) < y then 3
  else if d.winRight k op = false then 4
  else if 2 ^ d.fld (F.DEV_WIN_CTL_SIZE_LOG2 k) < a + op.len then 5
  else if tag ≠ d.fld (F.DEV_WIN_CTL_JOB k) ∧ tag ≠ 0xFFFF then 6
  else if d.admitted tag = false then 6 else 0

/-- What a far request to a scratchpad meets at arrival under R117 and R118: the core, set, KIND and offset of the refusal. -/
def Dev.farPort (d : Dev) (tag a n : Nat) : Option (Nat × Nat × Nat × Nat) :=
  let core := (a - scpBase) / 0x1000000
  let off := (a - scpBase) % 0x1000000
  if regionOf a n ≠ .scratch then none
  else match d.portCheck core tag off n false with
    | some (k, set) => if k = 4 ∨ k = 5 then some (core, set, k, off) else none
    | none => none

/-- FAR_REQUEST: a request of the device at (x, y) arrives for window k at aperture offset a, and is checked in the order of Table 2 (R300). -/
def execFarRequest (x : BitVec 7) (y : BitVec 6) (t : Tag) (k : Fin 64) (a : BitVec 34) (q : Access) (s : State) : Out :=
  act s fun d =>
    let at_ := d.fld (F.DEV_WIN_BASE_BASE k.val) * 65536 + a.toNat
    let r := accReq x.toNat y.toNat t.toNat at_ q
    match d.winCause k.val x.toNat y.toNat t.toNat a.toNat r.op with
    | 0 => match d.farPort t.toNat at_ r.op.len with
      | some (core, set, kind, off) => ((d.portFault core set kind off).raise F.DEV_WIN_EVENT_REFUSED 0 clsContained).respond r 0 true
      | none => d.letIn r
    | 6 => d.peerRefuse r x.toNat y.toNat 6 at_ F.DEV_WIN_EVENT_REFUSED
    | c => d.peerRefuse r x.toNat y.toNat c a.toNat F.DEV_WIN_EVENT_REFUSED

/-- APERTURE_ACCESS: the i-th waiting request, to a far aperture of this device, is sent to its target or refused (R299). -/
def execApertureAccess (i : Nat) (s : State) : Out :=
  act s fun d =>
    match d.performable i with
    | none => d
    | some r =>
      if 2 ^ 48 ≤ r.addr ∨ regionOf r.addr 1 ≠ .far then d
      else
        let g := d.slotNo * 2 ^ 44 + r.addr
        let d := d.unwait r.id
        match d.leave g r.op.data with
        | (d, false) => d.respond r 0 true
        | (d, true) =>
          if r.src < 288 then { d with home := { d.home with reqs := d.home.reqs ++ [{ r with addr := g, away := true }] } } else d

/-! ## Windows and grants (R301, R390) -/

/-- A word with its top bit, VALID, set. -/
def validWord (v : Word) : Nat := (v ||| 0x8000000000000000).toNat

/-- WINDOW_WRITE: a write of DEV_WINk_CTL with VALID = 1 (R301). -/
def execWindowWrite (t : Tag) (k : Fin 64) (v : Word) (s : State) : Out :=
  act s fun d => d.fw t.toNat (R.DEV_WIN_CTL k.val) fun d => d.writeWin k.val (validWord v)

/-- GRANT_WRITE: a write of a grant register with VALID = 1 (R390). -/
def execGrantWrite (t : Tag) (g : GrantReg) (v : Word) (s : State) : Out :=
  act s fun d =>
    match g with
    | .jr i => d.fw t.toNat (R.KEL_JR i.val) fun d => d.writeJr i.val (validWord v)
    | .ctx n set => d.fw t.toNat (if set = 0 then R.SCP_CTX0 n.val else R.SCP_CTX1 n.val) fun d => d.writeSet n.val set.val 0 (validWord v)
    | .win k => d.fw t.toNat (R.DEV_WIN_CTL k.val) fun d => d.writeWin k.val (validWord v)
    | .mr i => d.fw t.toNat 0x80048 fun d => d.writeMr i.val (validWord v)

end Sys2Proof.Machine
end

