-- ==== Sys2Proof/Machine/ScalarFp.lean ====
section
/-! DEFINITION. S slot: FP32 arithmetic, conversion and compare (R212, R213). -/

namespace Sys2Proof.Machine

/-- FP32 operand b: the immediate's bit pattern or the low half of a register (R211, R213). -/
def sfB (c : CoreSt) (f : FmtSA) : Nat := if f.i then f.imm.toNat else (c.sreg f.b.toNat).toNat % 2 ^ 32

/-- FP32 operand a. -/
def sfA (c : CoreSt) (f : FmtSA) : Nat := (c.sreg f.a.toNat).toNat % 2 ^ 32

/-- An FP32 operation; bits [63:32] of the destination are written zero (R213). -/
def Dev.sFp (d : Dev) (n : Nat) (i : Instr) (f : FmtSA) (op : Nat → Nat → Nat) : Dev :=
  d.slotIssue n 0 i f.hd .normal (saRsv f (f.sub == 0)) fun d =>
    .go (d.modCore n fun c => c.later 4 0 (.s f.d.toNat (BitVec.ofNat 64 (op (sfA c f) (sfB c f) % 2 ^ 32))))

/-- SFADD (R212). -/
def execSfadd (n : CoreId) (f : FmtSA) (s : State) : Out := act s fun d => d.sFp n (.sfadd n f) f fp32Add
/-- SFSUB (R212). -/
def execSfsub (n : CoreId) (f : FmtSA) (s : State) : Out := act s fun d => d.sFp n (.sfsub n f) f fp32Sub
/-- SFMUL (R212). -/
def execSfmul (n : CoreId) (f : FmtSA) (s : State) : Out := act s fun d => d.sFp n (.sfmul n f) f fp32Mul

/-- SFMA: sa × b + sd with one rounding (R212). -/
def execSfma (n : CoreId) (f : FmtSA) (s : State) : Out :=
  act s fun d => d.slotIssue n 0 (.sfma n f) f.hd .normal (saRsv f (f.sub == 0)) fun d =>
    .go (d.modCore n fun c =>
      c.later 4 0 (.s f.d.toNat (BitVec.ofNat 64 (fp32Fma (sfA c f) (sfB c f) ((c.sreg f.d.toNat).toNat % 2 ^ 32)))))

/-- The conversions of SFCVT (R212, R213). -/
def sfcvtOp (sub : Nat) (a : Word) : Word :=
  match sub with
  | 0 => BitVec.ofNat 64 (toFP32 (.ofInt a.toInt))
  | 1 => BitVec.ofNat 64 (toFP32 (.ofInt a.toNat))
  | 2 => BitVec.ofInt 64 ((ofFP32 (a.toNat % 2 ^ 32)).toInt .even (-9223372036854775808) 9223372036854775807)
  | 3 => BitVec.ofNat 64 (fmtBF16.encode false .even (ofFP32 (a.toNat % 2 ^ 32)))
  | _ => BitVec.ofNat 64 (toFP32 (fmtBF16.decode (a.toNat % 2 ^ 16)))

/-- SFCVT has no operand b (R212). -/
def execSfcvt (n : CoreId) (f : FmtSA) (s : State) : Out :=
  act s fun d => d.slotIssue n 0 (.sfcvt n f) f.hd .normal (f.i || f.b != 0 || f.imm != 0 || decide (4 < f.sub.toNat)) fun d =>
    .go (d.modCore n fun c => c.later 4 0 (.s f.d.toNat (sfcvtOp f.sub.toNat (c.sreg f.a.toNat))))

/-- The comparisons of SFCMP; false for a NaN operand but for NE and UN (R213). -/
def sfcmpOp (sub a b : Nat) : Bool :=
  let x := ofFP32 a
  let y := ofFP32 b
  match sub with
  | 0 => x.eq y
  | 1 => !(x.eq y)
  | 2 => x.lt y
  | 3 => x.lt y || x.eq y
  | _ => x.isNan || y.isNan

/-- SFCMP (R212). -/
def execSfcmp (n : CoreId) (f : FmtSA) (s : State) : Out :=
  act s fun d => d.slotIssue n 0 (.sfcmp n f) f.hd .normal (saRsv f (decide (f.sub.toNat ≤ 4)) || decide (8 ≤ f.d.toNat)) fun d =>
    .go (d.modCore n fun c => c.later 1 0 (.p f.d.toNat (sfcmpOp f.sub.toNat (sfA c f) (sfB c f))))

end Sys2Proof.Machine
end

