-- ==== Sys2Proof/Machine/Service.lean ====
section
/-! DEFINITION. The service protocol (R369 to R373, R387): sessions, messages, and the request and response rings of an endpoint. -/

namespace Sys2Proof.Machine

/-- Types of Table 4. -/
def svcOpen : Nat := 1
def svcOpenAck : Nat := 2
def svcSubmit : Nat := 3
def svcTokens : Nat := 4
def svcAck : Nat := 5
def svcClose : Nat := 6
def svcKeepalive : Nat := 8

/-- Replace a session, or take it out. -/
def Dev.setSession (d : Dev) (q : Session) : Dev :=
  { d with eth := { d.eth with sessions := d.eth.sessions.map fun r => if r.id = q.id then q else r } }
def Dev.dropSession (d : Dev) (id : Nat) : Dev := { d with eth := { d.eth with sessions := d.eth.sessions.filter (·.id ≠ id) } }

/-- The nonce of a message: the direction's salt and its SEQ (R387). A key is kept with its salt behind it. -/
def svcNonce (key : List Byte) (seq : Nat) : List Byte := key.drop 32 ++ leBytes 8 seq

/-- Send a message of a session: numbered, sealed, and kept until it is acknowledged (R369, R370). -/
def Dev.svcSend (d : Dev) (q : Session) (typ flags : Nat) (payload : List Byte) : Dev :=
  let seq := q.tx + 1
  let h := svcHdr q.ver typ flags q.id seq q.rx payload.length 0
  let n := svcNonce q.keyOut seq
  let bs := h ++ Config.gcmEncrypt (q.keyOut.take 32) n h payload ++ Config.gcmTag (q.keyOut.take 32) n h payload
  (d.setSession { q with tx := seq, sent := q.sent ++ [⟨seq, bs, d.time, 0⟩] }).emit (.datagram q.ip q.port bs)

/-! ## Rings (R371) -/

/-- The device offset of an endpoint's request ring, 0, or response ring, 1. -/
def Dev.ringAt (d : Dev) (ep which : Nat) : Nat := d.fld (F.ETH_SVC_RING4K ep) * 4096 + which * 2 ^ 20

/-- The bytes of a ring behind its first line. HEAD and TAIL count bytes freely, and an entry lies at its count modulo this. -/
def ringArea : Nat := 2 ^ 20 - 64

/-- Bytes of an entry: its header and its padded payload. -/
def entryBytes (len : Nat) : Nat := 16 + ceilDiv len 64 * 64

/-- HEAD and TAIL of a ring, none when its line cannot be read. -/
def Dev.ringEnds (d : Dev) (a : Nat) : Dev × Option (Nat × Nat) :=
  match d.hbmRead a 16 with
  | (d, some bs) => (d, some (kNat bs 0 8, kNat bs 8 8))
  | (d, none) => (d, none)

/-- Read and write bytes of a ring from a count on. -/
def Dev.ringRead (d : Dev) (a pos n : Nat) : Dev × Option (List Byte) :=
  let p := pos % ringArea
  let k := min n (ringArea - p)
  match d.hbmRead (a + 64 + p) k with
  | (d, none) => (d, none)
  | (d, some x) => match d.hbmRead (a + 64) (n - k) with
    | (d, none) => (d, none)
    | (d, some y) => (d, some (x ++ y))
def Dev.ringWrite (d : Dev) (job a pos : Nat) (bs : List Byte) : Dev × Bool :=
  let p := pos % ringArea
  match d.memWrite job (a + 64 + p) (bs.take (ringArea - p)) with
  | (d, false) => (d, false)
  | (d, true) => if bs.length ≤ ringArea - p then (d, true) else d.memWrite job (a + 64) (bs.drop (ringArea - p))

/-- Whether a ring's line, or n bytes of it from a count on, lie in a stack under repair (R322). -/
def Dev.ringBusy (d : Dev) (a pos n : Nat) : Bool :=
  let p := pos % ringArea
  let k := min n (ringArea - p)
  d.repairing a 16 || d.repairing (a + 64 + p) k || d.repairing (a + 64) (n - k)

/-- Whether an entry of a request ring must wait to be written, and the next entry of a response ring to be read. -/
def Dev.putBusy (d : Dev) (ep len : Nat) : Bool := d.ringBusy (d.ringAt ep 0) (d.rdNat (d.ringAt ep 0 + 8) 8) (entryBytes len)
def Dev.getBusy (d : Dev) (ep : Nat) : Bool :=
  let a := d.ringAt ep 1
  let head := d.rdNat a 8
  d.ringBusy a head 16 || d.ringBusy a (head + 16) (min 8192 (d.rdNat (a + 64 + (head + 8) % ringArea) 4))

/-- Append an entry to an endpoint's request ring; the ring position behind it, or none when it does not fit or cannot be written. -/
def Dev.ringPut (d : Dev) (ep session req kind : Nat) (payload : List Byte) : Dev × Option Nat :=
  let a := d.ringAt ep 0
  let job := d.fld (F.ETH_SVC_JOB ep)
  match d.ringEnds a with
  | (d, none) => (d, none)
  | (d, some (head, tail)) =>
    let n := entryBytes payload.length
    if ringArea < tail - head + n then (d.raise F.ETH_EVENT_SVC_FULL 0 clsInfo, none)
    else
      let bs := leBytes 4 session ++ leBytes 4 req ++ leBytes 4 payload.length ++ leBytes 4 kind ++ payload
      match d.ringWrite job a tail (bs ++ zeros (n - bs.length)) with
      | (d, false) => (d, none)
      | (d, true) => match d.memWrite job (a + 8) (leBytes 8 (tail + n)) with
        | (d, true) => (d, some (tail + n))
        | (d, false) => (d, none)

/-- Flows of closed sessions return once the kernels have taken their CANCEL (R372). -/
def Dev.svcReap (d : Dev) : Dev :=
  d.eth.sessions.foldl (fun d q =>
    match q.closing with
    | none => d
    | some pos => if d.repairing (d.ringAt q.ep 0) 16 then d else match d.ringEnds (d.ringAt q.ep 0) with
      | (d, some (head, _)) => if pos ≤ head then (d.dropSession q.id).freeFlow else d
      | (d, none) => d) d

/-! ## OPEN (R372, R373, R387) -/

/-- Whether a message's header is sound: version, type, FLAGS, CODE, reserved bytes and LEN. -/
def svcSound (bs : List Byte) (typ flags trailer : Nat) : Bool :=
  kNat bs 2 1 == typ && decide (kNat bs 3 1 ≤ flags) && kNat bs 20 4 == 0 && kNat bs 24 8 == 0 && decide (kNat bs 16 4 ≤ 8192) &&
    bs.length == 32 + kNat bs 16 4 + trailer

/-- A session opens: a key pair of its own, the session keys, and OPEN_ACK signed by the identity key. -/
def State.svcNew (s : State) (ep ip port ver : Nat) (bs : List Byte) : State :=
  let (priv, d) := s.dev.drawBytes 56
  let pub := bs.drop 44
  let id := d.eth.nextSession
  let h := svcHdr ver svcOpenAck 0 id 1 1 174 0
  let body := leBytes 2 ver ++ zeros 2 ++ Config.x448Public priv
  let k := kdf (Config.x448 priv pub) "TGW-SVC" (bs ++ h ++ body) 72
  let sig := Config.ed448Sign s.identitySeed (Config.shake256 (bs ++ body) 64)
  let ack := h ++ body ++ sig
  let q : Session := ⟨id, ep, ip, port, pub, ver, 1, 1, k.take 32 ++ (k.drop 64).take 4, (k.drop 32).take 32 ++ (k.drop 68).take 4, ack,
    [⟨1, ack, d.time, 0⟩], d.time, none, none⟩
  let d := { d with eth := { d.eth with sessions := d.eth.sessions ++ [q], nextSession := id + 1 } }
  { s with dev := d.takeFlow.emit (.datagram ip port ack) }

/-- OPEN: a message arrives at an endpoint from a client's address and port. -/
def execOpen (ep : Fin 16) (ip : BitVec 128) (port : BitVec 16) (bytes : List Byte) (s : State) : Out :=
  actS s fun s =>
    let d := s.dev.svcReap
    let s := { s with dev := d }
    let lo := kNat bytes 32 2
    let hi := kNat bytes 34 2
    let ver := min hi svcMax
    if d.ethUp = false ∨ d.fld (F.ETH_SVC_UDP_PORT ep) = 0 ∨ s.lifecycle ≠ 1 ∨ svcSound bytes svcOpen 0 0 = false ∨ bytes.length ≠ 100 ∨
        kNat bytes 4 4 ≠ 0 ∨ kNat bytes 8 4 ≠ 1 then s
    else match d.eth.sessions.find? fun q => q.closing.isNone && q.ep == ep.val && q.ip == ip.toNat && q.port == port.toNat && q.pub == bytes.drop 44 with
      | some q => s.on fun d => d.emit (.datagram q.ip q.port q.ack)
      | none =>
        if ver < max lo svcMin then
          s.on fun d => (d.emit (.datagram ip.toNat port.toNat (svcError svcMax 0 1 1 2))).raise F.ETH_EVENT_VERSION 0 clsInfo
        else if d.fld F.ETH_STATUS_FLOWS_FREE = 0 then s.on fun d => d.emit (.datagram ip.toNat port.toNat (svcError ver 0 1 1 1))
        else s.svcNew ep ip.toNat port.toNat ver bytes

/-! ## Messages of a session (R369, R370) -/

/-- Take a message of an open session: its tag is verified, its ACK frees what it covers, and the next SEQ is accepted; a duplicate is answered
with an ACK, and a gap is not. `g` gives the accepted message's effect on the session's state: the session whose RX includes the message, and
its payload. -/
def Dev.svcTake (d : Dev) (ep typ flags : Nat) (bs : List Byte) (g : Dev → Session → List Byte → Dev) : Dev :=
  let d := d.svcReap
  match d.eth.sessions.find? fun q => q.closing.isNone && q.ep == ep && q.id == kNat bs 4 4 with
  | none => d
  | some q =>
    if d.ethUp = false ∨ svcSound bs typ flags 16 = false ∨ kNat bs 0 2 ≠ q.ver then d
    else
      let seq := kNat bs 8 4
      let h := bs.take 32
      let key := q.keyIn.take 32
      let n := svcNonce q.keyIn seq
      let plain := Config.gcmDecrypt key n h ((bs.drop 32).take (kNat bs 16 4))
      if Config.gcmTag key n h plain ≠ bs.drop (32 + kNat bs 16 4) then d.countErr F.ETH_ERR_COUNT_AUTH F.ETH_EVENT_COUNT_SAT 0
      else
        let q := { q with heard := d.time }
        let d := d.setSession q
        if seq = q.rx + 1 then
          let q := { q with rx := seq, sent := q.sent.filter fun m => decide (kNat bs 12 4 < m.seq) }
          g d q plain
        else if seq ≤ q.rx then d.svcSend q svcAck 0 []
        else d

/-- Accept a message and acknowledge it. -/
def Dev.svcAccept (d : Dev) (q : Session) : Dev := (d.setSession q).svcSend q svcAck 0 []

/-- SUBMIT (R371): written into the request ring and acknowledged; one that does not fit, or whose payload is not as Table 5 has it, is not
accepted, and one that the repair of a stack holds up is not accepted yet (R322). -/
def execSubmit (ep : Fin 16) (bytes : List Byte) (s : State) : Out :=
  act s fun d => d.svcTake ep svcSubmit 1 bytes fun d q p =>
    if kNat p 12 4 ≠ 0 ∨ 2044 < kNat p 8 4 ∨ kNat bytes 16 4 ≠ 16 + 4 * kNat p 8 4 ∨ d.putBusy ep p.length then d
    else match d.ringPut ep q.id (kNat p 0 4) 1 p with
      | (d, some _) => d.svcAccept { q with req := some (kNat p 0 4) }
      | (d, none) => d

/-- ACK (R370): it frees the messages it covers and is not acknowledged itself. -/
def execAck (ep : Fin 16) (bytes : List Byte) (s : State) : Out :=
  act s fun d => d.svcTake ep svcAck 0 bytes fun d q _ => d.setSession q

/-- KEEPALIVE (R370). -/
def execKeepalive (ep : Fin 16) (bytes : List Byte) (s : State) : Out :=
  act s fun d => d.svcTake ep svcKeepalive 0 bytes fun d q _ => d.svcAccept q

/-- CLOSE (R372): with a request queued or generating, a CANCEL goes to the request ring and the flow waits until it has been taken; the
session's keys are erased. -/
def execClose (ep : Fin 16) (bytes : List Byte) (s : State) : Out :=
  act s fun d => d.svcTake ep svcClose 0 bytes fun d q _ =>
    match q.req with
    | none => ((d.svcAccept q).dropSession q.id).freeFlow
    | some r => if d.putBusy ep 0 then d else match d.ringPut ep q.id r 2 [] with
      | (d, none) => d
      | (d, some pos) =>
        let d := d.svcAccept q
        d.setSession { q with keyIn := [], keyOut := [], ack := [], sent := [], closing := some pos }

/-- RESPONSE_ENTRY (R371, R372): the next entry of the response ring goes to its client as one TOKENS message, and HEAD advances; an entry
of a closed session, or of another kind, is discarded. FLAGS, which the entry does not hold, are free but for their reserved bits. -/
def execResponseEntry (ep : Fin 16) (s : State) : Out :=
  act s fun d =>
    let d := d.svcReap
    let a := d.ringAt ep 1
    if d.ethUp = false ∨ d.fld (F.ETH_SVC_UDP_PORT ep) = 0 ∨ d.getBusy ep then d
    else match d.ringEnds a with
      | (d, none) => d
      | (d, some (head, tail)) =>
        if head = tail then d
        else match d.ringRead a head 16 with
          | (d, none) => d
          | (d, some h) =>
            let len := kNat h 8 4
            match d.ringRead a (head + 16) (min len 8192) with
            | (d, none) => d
            | (d, some p) =>
              let d := (d.memWrite (d.fld (F.ETH_SVC_JOB ep)) a (leBytes 8 (head + entryBytes len))).1
              match d.eth.sessions.find? fun q => q.closing.isNone && q.ep == ep.val && q.id == kNat h 0 4 with
              | none => d
              | some q =>
                if kNat h 12 4 ≠ 3 ∨ 8192 < len then d
                else
                  let (w, d) := d.drawWord
                  let flags := w.toNat / 2 % 4 * 2
                  let q := if bitOf flags 1 then { q with req := none } else q
                  d.svcSend q svcTokens flags p

/-- SERVICE_RESEND (R370): a session's oldest unacknowledged message is sent again 2 ms after it was last sent; after 8 resends the session
closes with code 4. -/
def execServiceResend (session : BitVec 32) (s : State) : Out :=
  act s fun d =>
    match d.eth.sessions.find? fun q => q.closing.isNone && q.id == session.toNat with
    | none => d
    | some q => match q.sent with
      | [] => d
      | m :: ms =>
        let d := d.at_ (m.at_ + 2000000 * nsUnits)
        if 8 ≤ m.resends then d.sessionError q 4
        else (d.setSession { q with sent := { m with at_ := d.time, resends := m.resends + 1 } :: ms }).emit (.datagram q.ip q.port m.bytes)

/-- SESSION_IDLE (R370): nothing has been received for 30 s. -/
def execSessionIdle (session : BitVec 32) (s : State) : Out :=
  act s fun d =>
    match d.eth.sessions.find? fun q => q.closing.isNone && q.id == session.toNat with
    | none => d
    | some q => (d.at_ (q.heard + 30000000000 * nsUnits)).sessionError q 5

end Sys2Proof.Machine
end

