-- ==== Sys2Proof/Machine/Dispatch.lean ====
section
/-! DEFINITION. One arm per command: the meaning each has. -/

namespace Sys2Proof.Machine

/-- What a command does to everything but the queue. -/
def exec (i : Instr) (s : State) : Host.Outcome State Fault Refusal :=
  match i with
  | .supplyValid main slot => Sys2Proof.Machine.execSupplyValid main slot s
  | .auxStandby slot => Sys2Proof.Machine.execAuxStandby slot s
  | .diePorRelease slot => Sys2Proof.Machine.execDiePorRelease slot s
  | .bootRomStart => Sys2Proof.Machine.execBootRomStart s
  | .journalMount => Sys2Proof.Machine.execJournalMount s
  | .powerFailure main blown stage => Sys2Proof.Machine.execPowerFailure main blown stage s
  | .electricalTrip blown stage => Sys2Proof.Machine.execElectricalTrip blown stage s
  | .tripRecovery => Sys2Proof.Machine.execTripRecovery s
  | .thermalTrip x => Sys2Proof.Machine.execThermalTrip x s
  | .tripClr t v => Sys2Proof.Machine.execTripClr t v s
  | .throttleEval x => Sys2Proof.Machine.execThrottleEval x s
  | .busHold => Sys2Proof.Machine.execBusHold s
  | .busHoldEnd => Sys2Proof.Machine.execBusHoldEnd s
  | .ballastFill demand => Sys2Proof.Machine.execBallastFill demand s
  | .refreshDoubling k temp => Sys2Proof.Machine.execRefreshDoubling k temp s
  | .registerWrite t off width v => Sys2Proof.Machine.execRegisterWrite t off width v s
  | .elect t v => Sys2Proof.Machine.execElect t v s
  | .electionMessage p domain c => Sys2Proof.Machine.execElectionMessage p domain c s
  | .electionComplete => Sys2Proof.Machine.execElectionComplete s
  | .arm t v => Sys2Proof.Machine.execArm t v s
  | .disarm t v => Sys2Proof.Machine.execDisarm t v s
  | .domainStart t v => Sys2Proof.Machine.execDomainStart t v s
  | .domainStop t v => Sys2Proof.Machine.execDomainStop t v s
  | .tckPeriodWrite t v => Sys2Proof.Machine.execTckPeriodWrite t v s
  | .tickMarkerSend => Sys2Proof.Machine.execTickMarkerSend s
  | .tickMarker p m residence => Sys2Proof.Machine.execTickMarker p m residence s
  | .markerMissing => Sys2Proof.Machine.execMarkerMissing s
  | .tickBoundary demand => Sys2Proof.Machine.execTickBoundary demand s
  | .settleWindowOpen => Sys2Proof.Machine.execSettleWindowOpen s
  | .missOverrun => Sys2Proof.Machine.execMissOverrun s
  | .missNotice p domain tick sources => Sys2Proof.Machine.execMissNotice p domain tick sources s
  | .slipLimit => Sys2Proof.Machine.execSlipLimit s
  | .governedLengthening => Sys2Proof.Machine.execGovernedLengthening s
  | .delayProbe p => Sys2Proof.Machine.execDelayProbe p s
  | .probeReply p time turnaround => Sys2Proof.Machine.execProbeReply p time turnaround s
  | .probeReceived p time turnaround => Sys2Proof.Machine.execProbeReceived p time turnaround s
  | .ptpMessage seq m => Sys2Proof.Machine.execPtpMessage seq m s
  | .ptpLoss => Sys2Proof.Machine.execPtpLoss s
  | .tthEnable t v => Sys2Proof.Machine.execTthEnable t v s
  | .modeRequest t v => Sys2Proof.Machine.execModeRequest t v s
  | .spoolStaging dir => Sys2Proof.Machine.execSpoolStaging dir s
  | .stagingComplete dir => Sys2Proof.Machine.execStagingComplete dir s
  | .spoolHeaderIn dir header => Sys2Proof.Machine.execSpoolHeaderIn dir header s
  | .spoolLastByte dir bytes => Sys2Proof.Machine.execSpoolLastByte dir bytes s
  | .arrivalStart dir staging => Sys2Proof.Machine.execArrivalStart dir staging s
  | .forwardingComplete slot => Sys2Proof.Machine.execForwardingComplete slot s
  | .expansionComplete slot => Sys2Proof.Machine.execExpansionComplete slot s
  | .returnHop dir header blocks => Sys2Proof.Machine.execReturnHop dir header blocks s
  | .tailBlock slot b => Sys2Proof.Machine.execTailBlock slot b s
  | .tailTrailerIn dir back trailer => Sys2Proof.Machine.execTailTrailerIn dir back trailer s
  | .gradientWritesDone dir => Sys2Proof.Machine.execGradientWritesDone dir s
  | .relayLaunch t v => Sys2Proof.Machine.execRelayLaunch t v s
  | .relayAppend t v => Sys2Proof.Machine.execRelayAppend t v s
  | .relayRelease t v => Sys2Proof.Machine.execRelayRelease t v s
  | .relayHeaderIn dir header => Sys2Proof.Machine.execRelayHeaderIn dir header s
  | .relayVectorIn dir vec => Sys2Proof.Machine.execRelayVectorIn dir vec s
  | .relaySliceIn dir slice => Sys2Proof.Machine.execRelaySliceIn dir slice s
  | .relayEndMarker dir marker => Sys2Proof.Machine.execRelayEndMarker dir marker s
  | .telRipcordPull t v => Sys2Proof.Machine.execTelRipcordPull t v s
  | .ripcord p domain cause x y serial => Sys2Proof.Machine.execRipcord p domain cause x y serial s
  | .faultReport p domain x y cause => Sys2Proof.Machine.execFaultReport p domain x y cause s
  | .bridleRepair => Sys2Proof.Machine.execBridleRepair s
  | .snop n f => Sys2Proof.Machine.execSnop n f s
  | .sadd n f => Sys2Proof.Machine.execSadd n f s
  | .ssub n f => Sys2Proof.Machine.execSsub n f s
  | .sand n f => Sys2Proof.Machine.execSand n f s
  | .sor n f => Sys2Proof.Machine.execSor n f s
  | .sxor n f => Sys2Proof.Machine.execSxor n f s
  | .sshl n f => Sys2Proof.Machine.execSshl n f s
  | .sshr n f => Sys2Proof.Machine.execSshr n f s
  | .ssra n f => Sys2Proof.Machine.execSsra n f s
  | .smin n f => Sys2Proof.Machine.execSmin n f s
  | .smax n f => Sys2Proof.Machine.execSmax n f s
  | .sminu n f => Sys2Proof.Machine.execSminu n f s
  | .smaxu n f => Sys2Proof.Machine.execSmaxu n f s
  | .slui n f => Sys2Proof.Machine.execSlui n f s
  | .smul n f => Sys2Proof.Machine.execSmul n f s
  | .smulh n f => Sys2Proof.Machine.execSmulh n f s
  | .smulhu n f => Sys2Proof.Machine.execSmulhu n f s
  | .sdiv n f => Sys2Proof.Machine.execSdiv n f s
  | .sdivu n f => Sys2Proof.Machine.execSdivu n f s
  | .srem n f => Sys2Proof.Machine.execSrem n f s
  | .sremu n f => Sys2Proof.Machine.execSremu n f s
  | .scmp n f => Sys2Proof.Machine.execScmp n f s
  | .plog n f => Sys2Proof.Machine.execPlog n f s
  | .sfadd n f => Sys2Proof.Machine.execSfadd n f s
  | .sfsub n f => Sys2Proof.Machine.execSfsub n f s
  | .sfmul n f => Sys2Proof.Machine.execSfmul n f s
  | .sfma n f => Sys2Proof.Machine.execSfma n f s
  | .sfcvt n f => Sys2Proof.Machine.execSfcvt n f s
  | .sfcmp n f => Sys2Proof.Machine.execSfcmp n f s
  | .sld n f => Sys2Proof.Machine.execSld n f s
  | .sst n f => Sys2Proof.Machine.execSst n f s
  | .srds n f => Sys2Proof.Machine.execSrds n f s
  | .sbr n f => Sys2Proof.Machine.execSbr n f s
  | .scall n f => Sys2Proof.Machine.execScall n f s
  | .sret n f => Sys2Proof.Machine.execSret n f s
  | .sloop n f => Sys2Proof.Machine.execSloop n f s
  | .swait n f => Sys2Proof.Machine.execSwait n f s
  | .syncTick n f => Sys2Proof.Machine.execSyncTick n f s
  | .syncEng n f => Sys2Proof.Machine.execSyncEng n f s
  | .syncFrame n f => Sys2Proof.Machine.execSyncFrame n f s
  | .fencePush n f => Sys2Proof.Machine.execFencePush n f s
  | .flagRel n f => Sys2Proof.Machine.execFlagRel n f s
  | .flagAcq n f => Sys2Proof.Machine.execFlagAcq n f s
  | .flagAcqReread n => Sys2Proof.Machine.execFlagAcqReread n s
  | .atomAdd n f => Sys2Proof.Machine.execAtomAdd n f s
  | .atomMin n f => Sys2Proof.Machine.execAtomMin n f s
  | .atomMax n f => Sys2Proof.Machine.execAtomMax n f s
  | .atomMinu n f => Sys2Proof.Machine.execAtomMinu n f s
  | .atomMaxu n f => Sys2Proof.Machine.execAtomMaxu n f s
  | .atomSwap n f => Sys2Proof.Machine.execAtomSwap n f s
  | .atomCas n f => Sys2Proof.Machine.execAtomCas n f s
  | .endKernel n f => Sys2Proof.Machine.execEnd n f s
  | .endComplete n => Sys2Proof.Machine.execEndComplete n s
  | .asyncFault n => Sys2Proof.Machine.execAsyncFault n s
  | .scoreboardArrival n line => Sys2Proof.Machine.execScoreboardArrival n line s
  | .vnop n f => Sys2Proof.Machine.execVnop n f s
  | .vadd n f => Sys2Proof.Machine.execVadd n f s
  | .vsub n f => Sys2Proof.Machine.execVsub n f s
  | .vmul n f => Sys2Proof.Machine.execVmul n f s
  | .vfma n f => Sys2Proof.Machine.execVfma n f s
  | .vmin n f => Sys2Proof.Machine.execVmin n f s
  | .vmax n f => Sys2Proof.Machine.execVmax n f s
  | .vabs n f => Sys2Proof.Machine.execVabs n f s
  | .vneg n f => Sys2Proof.Machine.execVneg n f s
  | .vand n f => Sys2Proof.Machine.execVand n f s
  | .vor n f => Sys2Proof.Machine.execVor n f s
  | .vxor n f => Sys2Proof.Machine.execVxor n f s
  | .vshl n f => Sys2Proof.Machine.execVshl n f s
  | .vshr n f => Sys2Proof.Machine.execVshr n f s
  | .vsra n f => Sys2Proof.Machine.execVsra n f s
  | .vcmp n f => Sys2Proof.Machine.execVcmp n f s
  | .vsel n f => Sys2Proof.Machine.execVsel n f s
  | .vcvt n f => Sys2Proof.Machine.execVcvt n f s
  | .vred n f => Sys2Proof.Machine.execVred n f s
  | .vbcast n f => Sys2Proof.Machine.execVbcast n f s
  | .vext n f => Sys2Proof.Machine.execVext n f s
  | .vdiv n f => Sys2Proof.Machine.execVdiv n f s
  | .vsqrt n f => Sys2Proof.Machine.execVsqrt n f s
  | .vrcp n f => Sys2Proof.Machine.execVrcp n f s
  | .vrsqrt n f => Sys2Proof.Machine.execVrsqrt n f s
  | .vexp2 n f => Sys2Proof.Machine.execVexp2 n f s
  | .vexp n f => Sys2Proof.Machine.execVexp n f s
  | .vlog2 n f => Sys2Proof.Machine.execVlog2 n f s
  | .vlog n f => Sys2Proof.Machine.execVlog n f s
  | .vsin n f => Sys2Proof.Machine.execVsin n f s
  | .vcos n f => Sys2Proof.Machine.execVcos n f s
  | .vtanh n f => Sys2Proof.Machine.execVtanh n f s
  | .vsigm n f => Sys2Proof.Machine.execVsigm n f s
  | .verf n f => Sys2Proof.Machine.execVerf n f s
  | .vseed n f => Sys2Proof.Machine.execVseed n f s
  | .vld n f => Sys2Proof.Machine.execVld n f s
  | .vst n f => Sys2Proof.Machine.execVst n f s
  | .vldacc n f => Sys2Proof.Machine.execVldacc n f s
  | .vstacc n f => Sys2Proof.Machine.execVstacc n f s
  | .mnop n f => Sys2Proof.Machine.execMnop n f s
  | .mload n f => Sys2Proof.Machine.execMload n f s
  | .mstream n f => Sys2Proof.Machine.execMstream n f s
  | .mstreamT n f => Sys2Proof.Machine.execMstreamT n f s
  | .mstreamOs n f => Sys2Proof.Machine.execMstreamOs n f s
  | .mdist n f => Sys2Proof.Machine.execMdist n f s
  | .mdistT n f => Sys2Proof.Machine.execMdistT n f s
  | .mdrain n f => Sys2Proof.Machine.execMdrain n f s
  | .arrayInstructionBegin n half => Sys2Proof.Machine.execArrayInstructionBegin n half s
  | .resultRowWrite n half => Sys2Proof.Machine.execResultRowWrite n half s
  | .freezeCycle n half cause => Sys2Proof.Machine.execFreezeCycle n half cause s
  | .mdrainComplete n half => Sys2Proof.Machine.execMdrainComplete n half s
  | .dnop n f => Sys2Proof.Machine.execDnop n f s
  | .dcopy n f => Sys2Proof.Machine.execDcopy n f s
  | .dcopyComplete n => Sys2Proof.Machine.execDcopyComplete n s
  | .dmove n f => Sys2Proof.Machine.execDmove n f s
  | .dstrPush n f => Sys2Proof.Machine.execDstrPush n f s
  | .dstrArm n f => Sys2Proof.Machine.execDstrArm n f s
  | .dstrCancel n f => Sys2Proof.Machine.execDstrCancel n f s
  | .dwait n f => Sys2Proof.Machine.execDwait n f s
  | .dflagw n f => Sys2Proof.Machine.execDflagw n f s
  | .commandLaunch n => Sys2Proof.Machine.execCommandLaunch n s
  | .imageLoadComplete n peer => Sys2Proof.Machine.execImageLoadComplete n peer s
  | .networkPortRequest k => Sys2Proof.Machine.execNetworkPortRequest k s
  | .eccWriteback n bank => Sys2Proof.Machine.execEccWriteback n bank s
  | .scrubRead n bank => Sys2Proof.Machine.execScrubRead n bank s
  | .segPowerDown t n k => Sys2Proof.Machine.execSegPowerDown t n k s
  | .segWake t n k => Sys2Proof.Machine.execSegWake t n k s
  | .segWakeComplete n k => Sys2Proof.Machine.execSegWakeComplete n k s
  | .scInv t n v => Sys2Proof.Machine.execScInv t n v s
  | .splitWrite n v => Sys2Proof.Machine.execSplitWrite n v s
  | .build t v => Sys2Proof.Machine.execBuild t v s
  | .install t v => Sys2Proof.Machine.execInstall t v s
  | .retire t v => Sys2Proof.Machine.execRetire t v s
  | .buildInstall t v => Sys2Proof.Machine.execBuildInstall t v s
  | .tableCommandDone => Sys2Proof.Machine.execTableCommandDone s
  | .cdcSeed t v => Sys2Proof.Machine.execCdcSeed t v s
  | .blockExpand k => Sys2Proof.Machine.execBlockExpand k s
  | .tableFetch k packer cc => Sys2Proof.Machine.execTableFetch k packer cc s
  | .packBlock k => Sys2Proof.Machine.execPackBlock k s
  | .alloc t v => Sys2Proof.Machine.execAlloc t v s
  | .release t v => Sys2Proof.Machine.execRelease t v s
  | .kill t v => Sys2Proof.Machine.execKill t v s
  | .zeroingComplete ctx => Sys2Proof.Machine.execZeroingComplete ctx s
  | .killDone job => Sys2Proof.Machine.execKillDone job s
  | .create t v => Sys2Proof.Machine.execCreate t v s
  | .destroy t v => Sys2Proof.Machine.execDestroy t v s
  | .strPush t v => Sys2Proof.Machine.execStrPush t v s
  | .strArm t v => Sys2Proof.Machine.execStrArm t v s
  | .strCancel t v => Sys2Proof.Machine.execStrCancel t v s
  | .moverUnitStart m peer => Sys2Proof.Machine.execMoverUnitStart m peer s
  | .descriptorComplete k => Sys2Proof.Machine.execDescriptorComplete k s
  | .streamFillComplete k => Sys2Proof.Machine.execStreamFillComplete k s
  | .cancelledReturn => Sys2Proof.Machine.execCancelledReturn s
  | .peerRequest x y t a q => Sys2Proof.Machine.execPeerRequest x y t a q s
  | .farRequest x y t k a q => Sys2Proof.Machine.execFarRequest x y t k a q s
  | .apertureAccess k => Sys2Proof.Machine.execApertureAccess k s
  | .windowWrite t k v => Sys2Proof.Machine.execWindowWrite t k v s
  | .grantWrite t g v => Sys2Proof.Machine.execGrantWrite t g v s
  | .hbmRequest k => Sys2Proof.Machine.execHbmRequest k s
  | .patrolScrub k => Sys2Proof.Machine.execPatrolScrub k s
  | .commandSubmit t k line bytes => Sys2Proof.Machine.execCommandSubmit t k line bytes s
  | .commandSubmitIndirect t k addr => Sys2Proof.Machine.execCommandSubmitIndirect t k addr s
  | .fill k => Sys2Proof.Machine.execFill k s
  | .copy k => Sys2Proof.Machine.execCopy k s
  | .reduce k => Sys2Proof.Machine.execReduce k s
  | .gather k => Sys2Proof.Machine.execGather k s
  | .scatterAdd k => Sys2Proof.Machine.execScatterAdd k s
  | .hist k => Sys2Proof.Machine.execHist k s
  | .opt k => Sys2Proof.Machine.execOpt k s
  | .mtest k failing => Sys2Proof.Machine.execMtest k failing s
  | .repair k => Sys2Proof.Machine.execRepair k s
  | .commandPartEnd k => Sys2Proof.Machine.execCommandPartEnd k s
  | .ilvWrite t v => Sys2Proof.Machine.execIlvWrite t v s
  | .stackReady k soft => Sys2Proof.Machine.execStackReady k soft s
  | .portEnable t p v => Sys2Proof.Machine.execPortEnable t p v s
  | .trainingComplete p lane margin => Sys2Proof.Machine.execTrainingComplete p lane margin s
  | .negotiation p serial x y port valid lo hi => Sys2Proof.Machine.execNegotiation p serial x y port valid lo hi s
  | .linkKeyExchange p pub certs sig => Sys2Proof.Machine.execLinkKeyExchange p pub certs sig s
  | .trainingTimeout p => Sys2Proof.Machine.execTrainingTimeout p s
  | .coordWrite t v => Sys2Proof.Machine.execCoordWrite t v s
  | .frameSend p => Sys2Proof.Machine.execFrameSend p s
  | .frameReceived p decoded crc tag fec seq ack vl cells creditVl credit replay => Sys2Proof.Machine.execFrameReceived p decoded crc tag fec seq ack vl cells creditVl credit replay s
  | .replayLimit p => Sys2Proof.Machine.execReplayLimit p s
  | .linkLoss p => Sys2Proof.Machine.execLinkLoss p s
  | .ethLinkUp => Sys2Proof.Machine.execEthLinkUp s
  | .ethLinkDown => Sys2Proof.Machine.execEthLinkDown s
  | .ethFrameReceived f => Sys2Proof.Machine.execEthFrameReceived f s
  | .pfcReceived p xoff => Sys2Proof.Machine.execPfcReceived p xoff s
  | .arpRequest v6 target sender => Sys2Proof.Machine.execArpRequest v6 target sender s
  | .icmpEcho v6 target sender data => Sys2Proof.Machine.execIcmpEcho v6 target sender data s
  | .cnpReceived n => Sys2Proof.Machine.execCnpReceived n s
  | .rateRecovery n => Sys2Proof.Machine.execRateRecovery n s
  | .send n psn len => Sys2Proof.Machine.execSend n psn len s
  | .rdmaWrite n psn rkey addr bytes => Sys2Proof.Machine.execRdmaWrite n psn rkey addr bytes s
  | .rdmaRead n psn rkey addr len => Sys2Proof.Machine.execRdmaRead n psn rkey addr len s
  | .roceRetransmit n => Sys2Proof.Machine.execRoceRetransmit n s
  | .bootReq ip bytes => Sys2Proof.Machine.execBootReq ip bytes s
  | .chunk ip bytes => Sys2Proof.Machine.execChunk ip bytes s
  | .bootLoaderStart => Sys2Proof.Machine.execBootLoaderStart s
  | .depotTailWrite t v => Sys2Proof.Machine.execDepotTailWrite t v s
  | .depotRecordStart => Sys2Proof.Machine.execDepotRecordStart s
  | .depotChunkArrival k bytes => Sys2Proof.Machine.execDepotChunkArrival k bytes s
  | .depotWritesDone k => Sys2Proof.Machine.execDepotWritesDone k s
  | .openMsg ep ip port bytes => Sys2Proof.Machine.execOpen ep ip port bytes s
  | .submit ep bytes => Sys2Proof.Machine.execSubmit ep bytes s
  | .ack ep bytes => Sys2Proof.Machine.execAck ep bytes s
  | .close ep bytes => Sys2Proof.Machine.execClose ep bytes s
  | .keepalive ep bytes => Sys2Proof.Machine.execKeepalive ep bytes s
  | .responseEntry ep => Sys2Proof.Machine.execResponseEntry ep s
  | .serviceResend session => Sys2Proof.Machine.execServiceResend session s
  | .sessionIdle session => Sys2Proof.Machine.execSessionIdle session s
  | .svnAdv t v => Sys2Proof.Machine.execSvnAdv t v s
  | .keyImport t v => Sys2Proof.Machine.execKeyImport t v s
  | .keyDestroy t v => Sys2Proof.Machine.execKeyDestroy t v s
  | .measExtend t v => Sys2Proof.Machine.execMeasExtend t v s
  | .measReset t v => Sys2Proof.Machine.execMeasReset t v s
  | .attest t v => Sys2Proof.Machine.execAttest t v s
  | .zero t v => Sys2Proof.Machine.execZero t v s
  | .zeroComplete => Sys2Proof.Machine.execZeroComplete s
  | .lock t v => Sys2Proof.Machine.execLock t v s
  | .secCommandDone => Sys2Proof.Machine.execSecCommandDone s
  | .decommission t v => Sys2Proof.Machine.execDecommission t v s
  | .hello h lo hi => Sys2Proof.Machine.execHello h lo hi s
  | .renew h => Sys2Proof.Machine.execRenew h s
  | .reclaim h => Sys2Proof.Machine.execReclaim h s
  | .goodbye h => Sys2Proof.Machine.execGoodbye h s
  | .qpCreate h role peer psn ip => Sys2Proof.Machine.execQpCreate h role peer psn ip s
  | .qpDestroy h n => Sys2Proof.Machine.execQpDestroy h n s
  | .jobCreate h j => Sys2Proof.Machine.execJobCreate h j s
  | .jobStart h job => Sys2Proof.Machine.execJobStart h job s
  | .jobPause h job => Sys2Proof.Machine.execJobPause h job s
  | .jobResume h job => Sys2Proof.Machine.execJobResume h job s
  | .jobKill h job => Sys2Proof.Machine.execJobKill h job s
  | .regionSet h k base ctl => Sys2Proof.Machine.execRegionSet h k base ctl s
  | .traceSet h bits => Sys2Proof.Machine.execTraceSet h bits s
  | .traceInfo h => Sys2Proof.Machine.execTraceInfo h s
  | .mailboxAttest h nonce => Sys2Proof.Machine.execMailboxAttest h nonce s
  | .mailboxKeyImport h rec_ => Sys2Proof.Machine.execMailboxKeyImport h rec_ s
  | .updateBegin h len => Sys2Proof.Machine.execUpdateBegin h len s
  | .updateChunk h offset bytes => Sys2Proof.Machine.execUpdateChunk h offset bytes s
  | .updateCommit h => Sys2Proof.Machine.execUpdateCommit h s
  | .updateAbort h => Sys2Proof.Machine.execUpdateAbort h s
  | .componentSwap => Sys2Proof.Machine.execComponentSwap s
  | .inboxMessage x y m => Sys2Proof.Machine.execInboxMessage x y m s
  | .pauseRequest job => Sys2Proof.Machine.execPauseRequest job s
  | .componentCrash c cause => Sys2Proof.Machine.execComponentCrash c cause s
  | .componentRestart c digestOk => Sys2Proof.Machine.execComponentRestart c digestOk s
  | .coreRun t v => Sys2Proof.Machine.execCoreRun t v s
  | .leaseRenew t v => Sys2Proof.Machine.execLeaseRenew t v s
  | .leaseExpiry => Sys2Proof.Machine.execLeaseExpiry s
  | .holdStart t v => Sys2Proof.Machine.execHoldStart t v s
  | .holdExpiry => Sys2Proof.Machine.execHoldExpiry s
  | .wdogFeed t v => Sys2Proof.Machine.execWdogFeed t v s
  | .watchdogExpiry => Sys2Proof.Machine.execWatchdogExpiry s
  | .tracePoint t args full => Sys2Proof.Machine.execTracePoint t args full s
  | .nvsAppend t v => Sys2Proof.Machine.execNvsAppend t v s
  | .nvsRead t v => Sys2Proof.Machine.execNvsRead t v s
  | .nvsCommandDone failed => Sys2Proof.Machine.execNvsCommandDone failed s
  | .networkHeaderParity k => Sys2Proof.Machine.execNetworkHeaderParity k s
  | .networkDataParity at_ => Sys2Proof.Machine.execNetworkDataParity at_ s
  | .fatalClr t v => Sys2Proof.Machine.execFatalClr t v s
  | .evqPop t => Sys2Proof.Machine.execEvqPop t s
  | .mgmtByteRead a => Sys2Proof.Machine.execMgmtByteRead a s
  | .mgmtByteWrite a v => Sys2Proof.Machine.execMgmtByteWrite a v s
  | .kernelSramUncorrectable => Sys2Proof.Machine.execKernelSramUncorrectable s

end Sys2Proof.Machine
end

