-- ==== Sys2Proof/Machine/FreeRun.lean ====
section
/-! DEFINITION. What the engines of a free-running core do in a core cycle: each performs the instruction at the head of its queue (R199). -/

namespace Sys2Proof.Machine

/-- An engine takes up an instruction of its queue, with the scalar sources captured at its issue. -/
def CoreSt.engineBegin (c : CoreSt) (slot : Nat) (q : FreeOp) : CoreSt :=
  { c with perf := some slot, s := q.s, p := q.p, bundle := q.bundle, no := q.no }

/-- The engine has performed it, or waits with it: the sequencer's registers are as they were, and its results reach them at once. -/
def CoreSt.engineEnd (c before : CoreSt) (slot : Nat) : CoreSt :=
  let new := c.pend.filter fun q => !(before.pend.contains q)
  let base := { c with perf := none, s := before.s, p := before.p, bundle := before.bundle, no := before.no, pend := before.pend }
  let r := new.foldl (fun c q => c.land q.tgt) base
  if c.perf.isNone then r.setQueue slot (r.queue slot).tail else r

/-- An engine performs the head of its queue, when nothing makes it wait; a fault ends the kernel (R199, R201). -/
def State.engine (s : State) (n slot : Nat) : State :=
  let c := s.dev.core n
  match c.queue slot with
  | [] => s
  | q :: _ =>
    match exec q.instr (s.on fun d => d.modCore n fun c => c.engineBegin slot q) with
    | .next t => t.on fun d =>
      let d := d.modCore n fun x => x.engineEnd c slot
      if (d.split n) = false && d.running n && (c.fault 0).isNone && ((d.core n).fault 0).isSome then d.haltFault n else d
    | _ => s

/-- The engines whose queue holds an instruction: core and slot. -/
def Dev.engines (d : Dev) : List (Nat × Nat) :=
  d.cores.flatMap fun e => ([1, 2, 3].filter fun slot => !(e.2.queue slot).isEmpty).map fun slot => (e.1, slot)

/-- One core cycle without a command: time passes, and every free-running engine performs what it can (log 1). -/
def State.idle (s : State) : State :=
  let t := s.on fun d => { d with time := d.time + ccUnits }
  t.dev.engines.foldl (fun s e => s.engine e.1 e.2) t

end Sys2Proof.Machine
end

