-- ==== Sys2Proof/WellFormed.lean ====
section
/-! DEFINITION. Which terms of Instr an event of the block can be: the lengths and ranges that the tables of the spec give an operand and
that its type does not. exec is total on every term; no meaning rests on these checks. -/

namespace Sys2Proof

/-- A tick marker fits its bytes (Table 3 of the link chapter). -/
def Marker.wf (m : Marker) : Bool :=
  decide (m.domain < 2 ^ 16) && decide (m.tick < 2 ^ 16) && decide (m.period < 2 ^ 20) && decide (m.delay < 2 ^ 24)

/-- A candidate fits its bytes (R26; Table 3 of the link chapter). -/
def Candidate.wf (c : Candidate) : Bool :=
  decide (c.prio < 2 ^ 8) && decide (c.serial < 2 ^ 48) && decide (c.x < 128) && decide (c.y < 64)

/-- An access of a remote packet: at least one byte, at most the 32 data cells of R343. -/
def Access.wf : Access → Bool
  | .load n => decide (1 ≤ n) && decide (n ≤ 2048)
  | .store bytes => decide (1 ≤ bytes.length) && decide (bytes.length ≤ 2048)
  | .atomic _ _ _ _ _ => true

/-- Twelve stack temperatures and a sensor of one of the 144 cores (R434). -/
def Sensors.wf (x : Sensors) : Bool := decide (x.hbm.length = 12) && decide (x.core.toNat < 144)

/-- A firmware message names a 16-bit job and a 64-bit resume point (R405, R406). -/
def FwMsg.wf : FwMsg → Bool
  | .pause job => decide (job < 2 ^ 16)
  | .resume job point => decide (job < 2 ^ 16) && decide (point < 2 ^ 64)
  | .reached x y tick => decide (x < 128) && decide (y < 64) && decide (tick < 2 ^ 64)
  | .start tick => decide (tick < 2 ^ 64)
  | .armed x y => decide (x < 128) && decide (y < 64)
  | .other _ => true

/-- The checks, command by command: frame and packet lengths of R342, R343 and R358, spool, tail and relay lengths within a landing slot (R67),
line and command lengths of 64 bytes (R318, R327), message lengths of R369, R389, R395 to R411, Ed448 and X448 lengths (R375). -/
def Instr.wf (i : Instr) : Bool :=
  match i with
  | .supplyValid _ _ => true
  | .auxStandby _ => true
  | .diePorRelease _ => true
  | .bootRomStart => true
  | .journalMount => true
  | .powerFailure _ blown _ => decide (blown ≤ 255)
  | .electricalTrip blown _ => decide (blown ≤ 255)
  | .tripRecovery => true
  | .thermalTrip x => x.wf
  | .tripClr _ _ => true
  | .throttleEval x => x.wf
  | .busHold => true
  | .busHoldEnd => true
  | .ballastFill _ => true
  | .refreshDoubling _ _ => true
  | .registerWrite _ _ width _ => decide (1 ≤ width) && decide (width ≤ 64)
  | .elect _ _ => true
  | .electionMessage _ _ c => c.wf
  | .electionComplete => true
  | .arm _ _ => true
  | .disarm _ _ => true
  | .domainStart _ _ => true
  | .domainStop _ _ => true
  | .tckPeriodWrite _ _ => true
  | .tickMarkerSend => true
  | .tickMarker _ m _ => m.wf
  | .markerMissing => true
  | .tickBoundary _ => true
  | .settleWindowOpen => true
  | .missOverrun => true
  | .missNotice _ _ _ _ => true
  | .slipLimit => true
  | .governedLengthening => true
  | .delayProbe _ => true
  | .probeReply _ _ _ => true
  | .probeReceived _ _ _ => true
  | .ptpMessage _ _ => true
  | .ptpLoss => true
  | .tthEnable _ _ => true
  | .modeRequest _ _ => true
  | .spoolStaging _ => true
  | .stagingComplete _ => true
  | .spoolHeaderIn _ _ => true
  | .spoolLastByte _ bytes => decide (bytes.length < 0x2000000)
  | .arrivalStart _ _ => true
  | .forwardingComplete _ => true
  | .expansionComplete _ => true
  | .returnHop _ _ blocks => decide (blocks.length < 0x2000000)
  | .tailBlock _ _ => true
  | .tailTrailerIn _ _ _ => true
  | .gradientWritesDone _ => true
  | .relayLaunch _ _ => true
  | .relayAppend _ _ => true
  | .relayRelease _ _ => true
  | .relayHeaderIn _ _ => true
  | .relayVectorIn _ vec => decide (vec.length < 0x2000000)
  | .relaySliceIn _ slice => decide (16 ≤ slice.length) && decide (slice.length < 0x2000000)
  | .relayEndMarker _ _ => true
  | .telRipcordPull _ _ => true
  | .ripcord _ _ _ _ _ _ => true
  | .faultReport _ _ _ _ _ => true
  | .bridleRepair => true
  | .snop _ _ => true
  | .sadd _ _ => true
  | .ssub _ _ => true
  | .sand _ _ => true
  | .sor _ _ => true
  | .sxor _ _ => true
  | .sshl _ _ => true
  | .sshr _ _ => true
  | .ssra _ _ => true
  | .smin _ _ => true
  | .smax _ _ => true
  | .sminu _ _ => true
  | .smaxu _ _ => true
  | .slui _ _ => true
  | .smul _ _ => true
  | .smulh _ _ => true
  | .smulhu _ _ => true
  | .sdiv _ _ => true
  | .sdivu _ _ => true
  | .srem _ _ => true
  | .sremu _ _ => true
  | .scmp _ _ => true
  | .plog _ _ => true
  | .sfadd _ _ => true
  | .sfsub _ _ => true
  | .sfmul _ _ => true
  | .sfma _ _ => true
  | .sfcvt _ _ => true
  | .sfcmp _ _ => true
  | .sld _ _ => true
  | .sst _ _ => true
  | .srds _ _ => true
  | .sbr _ _ => true
  | .scall _ _ => true
  | .sret _ _ => true
  | .sloop _ _ => true
  | .swait _ _ => true
  | .syncTick _ _ => true
  | .syncEng _ _ => true
  | .syncFrame _ _ => true
  | .fencePush _ _ => true
  | .flagRel _ _ => true
  | .flagAcq _ _ => true
  | .flagAcqReread _ => true
  | .atomAdd _ _ => true
  | .atomMin _ _ => true
  | .atomMax _ _ => true
  | .atomMinu _ _ => true
  | .atomMaxu _ _ => true
  | .atomSwap _ _ => true
  | .atomCas _ _ => true
  | .endKernel _ _ => true
  | .endComplete _ => true
  | .asyncFault _ => true
  | .scoreboardArrival _ line => decide (line.length = 64)
  | .vnop _ _ => true
  | .vadd _ _ => true
  | .vsub _ _ => true
  | .vmul _ _ => true
  | .vfma _ _ => true
  | .vmin _ _ => true
  | .vmax _ _ => true
  | .vabs _ _ => true
  | .vneg _ _ => true
  | .vand _ _ => true
  | .vor _ _ => true
  | .vxor _ _ => true
  | .vshl _ _ => true
  | .vshr _ _ => true
  | .vsra _ _ => true
  | .vcmp _ _ => true
  | .vsel _ _ => true
  | .vcvt _ _ => true
  | .vred _ _ => true
  | .vbcast _ _ => true
  | .vext _ _ => true
  | .vdiv _ _ => true
  | .vsqrt _ _ => true
  | .vrcp _ _ => true
  | .vrsqrt _ _ => true
  | .vexp2 _ _ => true
  | .vexp _ _ => true
  | .vlog2 _ _ => true
  | .vlog _ _ => true
  | .vsin _ _ => true
  | .vcos _ _ => true
  | .vtanh _ _ => true
  | .vsigm _ _ => true
  | .verf _ _ => true
  | .vseed _ _ => true
  | .vld _ _ => true
  | .vst _ _ => true
  | .vldacc _ _ => true
  | .vstacc _ _ => true
  | .mnop _ _ => true
  | .mload _ _ => true
  | .mstream _ _ => true
  | .mstreamT _ _ => true
  | .mstreamOs _ _ => true
  | .mdist _ _ => true
  | .mdistT _ _ => true
  | .mdrain _ _ => true
  | .arrayInstructionBegin _ _ => true
  | .resultRowWrite _ _ => true
  | .freezeCycle _ _ _ => true
  | .mdrainComplete _ _ => true
  | .dnop _ _ => true
  | .dcopy _ _ => true
  | .dcopyComplete _ => true
  | .dmove _ _ => true
  | .dstrPush _ _ => true
  | .dstrArm _ _ => true
  | .dstrCancel _ _ => true
  | .dwait _ _ => true
  | .dflagw _ _ => true
  | .commandLaunch _ => true
  | .imageLoadComplete _ _ => true
  | .networkPortRequest _ => true
  | .eccWriteback _ _ => true
  | .scrubRead _ _ => true
  | .segPowerDown _ _ _ => true
  | .segWake _ _ _ => true
  | .segWakeComplete _ _ => true
  | .scInv _ _ _ => true
  | .splitWrite _ _ => true
  | .build _ _ => true
  | .install _ _ => true
  | .retire _ _ => true
  | .buildInstall _ _ => true
  | .tableCommandDone => true
  | .cdcSeed _ _ => true
  | .blockExpand _ => true
  | .tableFetch _ _ _ => true
  | .packBlock _ => true
  | .alloc _ _ => true
  | .release _ _ => true
  | .kill _ _ => true
  | .zeroingComplete _ => true
  | .killDone _ => true
  | .create _ _ => true
  | .destroy _ _ => true
  | .strPush _ _ => true
  | .strArm _ _ => true
  | .strCancel _ _ => true
  | .moverUnitStart _ _ => true
  | .descriptorComplete _ => true
  | .streamFillComplete _ => true
  | .cancelledReturn => true
  | .peerRequest _ _ _ _ q => q.wf
  | .farRequest _ _ _ _ _ q => q.wf
  | .apertureAccess _ => true
  | .windowWrite _ _ _ => true
  | .grantWrite _ _ _ => true
  | .hbmRequest _ => true
  | .patrolScrub _ => true
  | .commandSubmit _ _ _ bytes => decide (1 ≤ bytes.length) && decide (bytes.length ≤ 64)
  | .commandSubmitIndirect _ _ _ => true
  | .fill _ => true
  | .copy _ => true
  | .reduce _ => true
  | .gather _ => true
  | .scatterAdd _ => true
  | .hist _ => true
  | .opt _ => true
  | .mtest _ failing => decide (failing.length ≤ 0x6000000000 / 64)
  | .repair _ => true
  | .commandPartEnd _ => true
  | .ilvWrite _ _ => true
  | .stackReady _ _ => true
  | .portEnable _ _ _ => true
  | .trainingComplete _ _ _ => true
  | .negotiation _ _ _ _ _ _ _ _ => true
  | .linkKeyExchange _ pub _ sig => decide (pub.length = 56) && decide (sig.length = 114)
  | .trainingTimeout _ => true
  | .coordWrite _ _ => true
  | .frameSend _ => true
  | .frameReceived _ _ _ _ _ _ _ _ cells _ _ _ => decide (cells ≤ 160)
  | .replayLimit _ => true
  | .linkLoss _ => true
  | .ethLinkUp => true
  | .ethLinkDown => true
  | .ethFrameReceived f => decide (64 ≤ f.len)
  | .pfcReceived _ _ => true
  | .arpRequest _ _ _ => true
  | .icmpEcho _ _ _ _ => true
  | .cnpReceived _ => true
  | .rateRecovery _ => true
  | .send _ _ _ => true
  | .rdmaWrite _ _ _ _ _ => true
  | .rdmaRead _ _ _ _ _ => true
  | .roceRetransmit _ => true
  | .bootReq _ bytes => decide (16 ≤ bytes.length)
  | .chunk _ bytes => decide (16 ≤ bytes.length)
  | .bootLoaderStart => true
  | .depotTailWrite _ _ => true
  | .depotRecordStart => true
  | .depotChunkArrival _ _ => true
  | .depotWritesDone _ => true
  | .openMsg _ _ _ bytes => decide (32 ≤ bytes.length)
  | .submit _ bytes => decide (32 ≤ bytes.length)
  | .ack _ bytes => decide (32 ≤ bytes.length)
  | .close _ bytes => decide (32 ≤ bytes.length)
  | .keepalive _ bytes => decide (32 ≤ bytes.length)
  | .responseEntry _ => true
  | .serviceResend _ => true
  | .sessionIdle _ => true
  | .svnAdv _ _ => true
  | .keyImport _ _ => true
  | .keyDestroy _ _ => true
  | .measExtend _ _ => true
  | .measReset _ _ => true
  | .attest _ _ => true
  | .zero _ _ => true
  | .zeroComplete => true
  | .lock _ _ => true
  | .secCommandDone => true
  | .decommission _ _ => true
  | .hello _ _ _ => true
  | .renew _ => true
  | .reclaim _ => true
  | .goodbye _ => true
  | .qpCreate _ _ _ _ _ => true
  | .qpDestroy _ _ => true
  | .jobCreate _ j => decide (j.ctxs.length ≤ 2048)
  | .jobStart _ _ => true
  | .jobPause _ _ => true
  | .jobResume _ _ => true
  | .jobKill _ _ => true
  | .regionSet _ _ _ _ => true
  | .traceSet _ bits => decide (bits.length = 16)
  | .traceInfo _ => true
  | .mailboxAttest _ nonce => decide (nonce.length = 64)
  | .mailboxKeyImport _ rec_ => decide (rec_.length = 112)
  | .updateBegin _ _ => true
  | .updateChunk _ _ bytes => decide (bytes.length ≤ 3932160)
  | .updateCommit _ => true
  | .updateAbort _ => true
  | .componentSwap => true
  | .inboxMessage _ _ m => m.wf
  | .pauseRequest _ => true
  | .componentCrash _ _ => true
  | .componentRestart _ _ => true
  | .coreRun _ _ => true
  | .leaseRenew _ _ => true
  | .leaseExpiry => true
  | .holdStart _ _ => true
  | .holdExpiry => true
  | .wdogFeed _ _ => true
  | .watchdogExpiry => true
  | .tracePoint _ _ _ => true
  | .nvsAppend _ _ => true
  | .nvsRead _ _ => true
  | .nvsCommandDone _ => true
  | .networkHeaderParity _ => true
  | .networkDataParity _ => true
  | .fatalClr _ _ => true
  | .evqPop _ => true
  | .mgmtByteRead _ => true
  | .mgmtByteWrite _ _ => true
  | .kernelSramUncorrectable => true

/-- A command that an event of the block can be. -/
abbrev WellFormed (i : Instr) : Prop := i.wf = true

end Sys2Proof
end

