-- ==== Sys2Proof/Safety.lean ====
section
/-! DEFINITION. The terms in which statements speak of the block: when it runs, when a slot instruction issues, and which states are sound. -/

namespace Sys2Proof.Machine

/-- Memory in its canonical form: addresses rise, and nothing listed reads as an unlisted byte does. -/
abbrev Memory.wf (m : List Host.Cell) : Bool := Store.wf memDefault m

/-- A state whose memory and registers are in canonical form. -/
def State.Sound (s : State) : Prop := Memory.wf s.dev.mem = true ∧ Store.wf resetWord s.dev.regs = true

/-- Nothing keeps instruction i of a slot of core n (0 S, 1 V, 2 M, 3 D) from issuing and acting (R177, R181, R183, R189, R194, R201, R207, R208):
the core takes instructions and no FLAG.ACQ waits; its bundle has right parity and need not wait, or has begun to issue; the image's word for the slot
is an instruction of it; its predicate is true and its set not fenced; SET is used only in split mode; and no register it reads has wrong parity or
awaits data. -/
structure SlotIssues (d : Dev) (n slot : Nat) (i : Instr) (h : Head) (m : IssueMode) : Prop where
  noEngine : (d.core n).perf = none
  issuing : d.issuing n = true
  noAcq : (d.core n).acq = none
  bundle : (d.core n).bundleBad = false
  begins : (d.core n).begun = true ∨ d.mustWait n = false
  word : d.wordFate n slot = none
  acts : d.acts n h m = true
  set : h.set = true → d.split n = true
  clean : (d.core n).parityBad 0 (d.readAtIssue n slot) i = false
  pred : m = .free ∨ (d.core n).badRegs.contains (32 + h.p.toNat) = false
  score : (d.core n).scoreWaits i = false

/-- It issues, and is performed as it does: running free, that is so of the S slot alone (R199). -/
structure SlotReady (d : Dev) (n slot : Nat) (i : Instr) (h : Head) (m : IssueMode) : Prop where
  issues : SlotIssues d n slot i h m
  inStep : slot = 0 ∨ d.coreState n ≠ 3

/-- It issues into its free-running engine's queue, which has room (R199). -/
structure SlotQueues (d : Dev) (n slot : Nat) (i : Instr) (h : Head) : Prop where
  issues : SlotIssues d n slot i h .normal
  free : d.coreState n = 3
  room : ((d.core n).queue slot).length < 16

/-- The state after an S-slot instruction that changes its core by g and closes the bundle. -/
def State.afterS (s : State) (n : Nat) (g : CoreSt → CoreSt) : State := s.on fun d => (d.modCore n g).closeBundle n

/-- The state after a slot instruction of another slot that changes its core by g; its bundle has begun. -/
def State.afterVMD (s : State) (n : Nat) (g : CoreSt → CoreSt) : State := s.on fun d => d.modCore n fun c => { g c with begun := true }

/-- The firmware tag (R122). -/
def fwTag : Tag := 0xFFFF

end Sys2Proof.Machine
end

