-- ==== Sys2Proof/Certificates/Slice0/Obligations.lean ====
section
/-! DEFINITION. The statements about the block, and the terms they are put in. -/

namespace Sys2Proof.Claims

open Sys2Proof.Machine

/-! ## S slot: terms -/

/-- An SA instruction that gives operand b once (R207, R211). -/
def SaPlain (f : FmtSA) : Prop := (f.i = false → f.imm = 0) ∧ (f.i = true → f.b = 0)

/-- An integer instruction whose result is a value of its two operands, usable lat cycles after issue (R189, R212). -/
def GivesInt (mk : CoreId → FmtSA → Instr) (lat : Nat) (val : Word → Word → Word) : Prop :=
  ∀ (s : State) (n : CoreId) (f : FmtSA), s.live = true → SaPlain f → f.sub = 0 → SlotReady s.dev n 0 (mk n f) f.hd .normal →
    exec (mk n f) s = .next (s.afterS n fun c => c.later lat 0 (.s f.d.toNat (val (c.sreg f.a.toNat) (saB c f))))

/-- A divide or remainder: it waits for the one before it, and its result is usable 20 cycles after it starts (R189). -/
def GivesDiv (mk : CoreId → FmtSA → Instr) (val : Word → Word → Word) : Prop :=
  ∀ (s : State) (n : CoreId) (f : FmtSA), s.live = true → SaPlain f → f.sub = 0 → SlotReady s.dev n 0 (mk n f) f.hd .normal →
    exec (mk n f) s = .next (s.afterS n fun c =>
      let wait := c.divFree - c.cycle
      let c' := c.later (20 + wait) 0 (.s f.d.toNat (val (c.sreg f.a.toNat) (saB c f)))
      { c' with divFree := c.cycle + wait + 20, extra := max c.extra wait })

/-- An FP32 instruction: it reads bits [31:0] of its sources, and bits [63:32] of its result are 0, usable 4 cycles after issue (R213). -/
def GivesFp (mk : CoreId → FmtSA → Instr) (val : Nat → Nat → Nat) : Prop :=
  ∀ (s : State) (n : CoreId) (f : FmtSA), s.live = true → SaPlain f → f.sub = 0 → SlotReady s.dev n 0 (mk n f) f.hd .normal →
    exec (mk n f) s = .next (s.afterS n fun c => c.later 4 0 (.s f.d.toNat
      (BitVec.ofNat 64 (val ((c.sreg f.a.toNat).toNat % 2 ^ 32) (if f.i then f.imm.toNat else (c.sreg f.b.toNat).toNat % 2 ^ 32) % 2 ^ 32))))

/-- The comparisons of SCMP: SUB 0 EQ, 1 NE, 2 LT, 3 GE, 4 LTU, 5 GEU (R212). -/
def Compares (sub : Nat) (a b : Word) (r : Bool) : Prop :=
  (sub = 0 → (r = true ↔ a = b)) ∧ (sub = 1 → (r = true ↔ a ≠ b)) ∧ (sub = 2 → (r = true ↔ a.toInt < b.toInt)) ∧
  (sub = 3 → (r = true ↔ b.toInt ≤ a.toInt)) ∧ (sub = 4 → (r = true ↔ a.toNat < b.toNat)) ∧ (sub = 5 → (r = true ↔ b.toNat ≤ a.toNat))

/-- A branch may be taken: no taken branch is pending, no loop body ends here, and the target lies in the image (R186, R187, R216). -/
def MayBranch (c : CoreSt) (t : Nat) : Prop := c.branch = none ∧ (∀ l ∈ c.loops, c.bundle ≠ l.last ∧ c.bundle + 1 ≠ l.last) ∧ t < c.bundles

end Sys2Proof.Claims

open Sys2Proof Sys2Proof.Machine Sys2Proof.Claims

/-! ## S slot -/

/-- R212 and R213: the results of the integer instructions, each in exact arithmetic on its operands. -/
def Sys2Proof.Claims.ScalarIntegerResults : Prop :=
  GivesInt .sadd 1 (fun a b => BitVec.ofNat 64 (a.toNat + b.toNat)) ∧
  GivesInt .ssub 1 (fun a b => BitVec.ofInt 64 ((a.toNat : Int) - b.toNat)) ∧
  GivesInt .sand 1 (fun a b => a &&& b) ∧ GivesInt .sor 1 (fun a b => a ||| b) ∧ GivesInt .sxor 1 (fun a b => a ^^^ b) ∧
  GivesInt .sshl 1 (fun a b => BitVec.ofNat 64 (a.toNat * 2 ^ (b.toNat % 64))) ∧
  GivesInt .sshr 1 (fun a b => BitVec.ofNat 64 (a.toNat / 2 ^ (b.toNat % 64))) ∧
  GivesInt .ssra 1 (fun a b => BitVec.ofInt 64 (a.toInt / 2 ^ (b.toNat % 64))) ∧
  GivesInt .smin 1 (fun a b => BitVec.ofInt 64 (min a.toInt b.toInt)) ∧
  GivesInt .smax 1 (fun a b => BitVec.ofInt 64 (max a.toInt b.toInt)) ∧
  GivesInt .sminu 1 (fun a b => BitVec.ofNat 64 (min a.toNat b.toNat)) ∧
  GivesInt .smaxu 1 (fun a b => BitVec.ofNat 64 (max a.toNat b.toNat)) ∧
  GivesInt .smul 3 (fun a b => BitVec.ofNat 64 (a.toNat * b.toNat)) ∧
  GivesInt .smulh 3 (fun a b => BitVec.ofInt 64 (a.toInt * b.toInt / 2 ^ 64)) ∧
  GivesInt .smulhu 3 (fun a b => BitVec.ofNat 64 (a.toNat * b.toNat / 2 ^ 64)) ∧
  (∀ (s : State) (n : CoreId) (f : FmtSA), s.live = true → f.i = true → f.b = 0 → f.sub = 0 →
    SlotReady s.dev n 0 (.slui n f) f.hd .normal →
    exec (.slui n f) s = .next (s.afterS n fun c => c.later 1 0 (.s f.d.toNat (f.imm ++ (c.sreg f.a.toNat).setWidth 32))))

/-- R213: divides and remainders, with a zero divisor and with the one quotient that does not fit. -/
def Sys2Proof.Claims.ScalarDivideResults : Prop :=
  GivesDiv .sdiv (fun a b => if b = 0 then BitVec.ofInt 64 (-1) else BitVec.ofInt 64 (a.toInt.tdiv b.toInt)) ∧
  GivesDiv .sdivu (fun a b => if b = 0 then BitVec.allOnes 64 else BitVec.ofNat 64 (a.toNat / b.toNat)) ∧
  GivesDiv .srem (fun a b => if b = 0 then a else BitVec.ofInt 64 (a.toInt.tmod b.toInt)) ∧
  GivesDiv .sremu (fun a b => if b = 0 then a else BitVec.ofNat 64 (a.toNat % b.toNat))

/-- What the integer instructions of the S slot give, the divides among them. -/
def Obligations.ScalarArithmeticResults : Prop := Claims.ScalarIntegerResults ∧ Claims.ScalarDivideResults

/-- R212 and R213: compares, predicate logic, FP32 arithmetic and conversion, selectors, and SNOP. -/
def Obligations.ScalarOtherResults : Prop :=
  GivesFp .sfadd fp32Add ∧ GivesFp .sfsub fp32Sub ∧ GivesFp .sfmul fp32Mul ∧
  (∀ (s : State) (n : CoreId) (f : FmtSA), s.live = true → SaPlain f → f.sub = 0 →
    SlotReady s.dev n 0 (.sfma n f) f.hd .normal →
    exec (.sfma n f) s = .next (s.afterS n fun c => c.later 4 0 (.s f.d.toNat (BitVec.ofNat 64
      (fp32Fma ((c.sreg f.a.toNat).toNat % 2 ^ 32) (if f.i then f.imm.toNat else (c.sreg f.b.toNat).toNat % 2 ^ 32)
        ((c.sreg f.d.toNat).toNat % 2 ^ 32)))))) ∧
  (∀ (s : State) (n : CoreId) (f : FmtSA), s.live = true → f.i = false → f.b = 0 → f.imm = 0 → f.sub.toNat ≤ 4 →
    SlotReady s.dev n 0 (.sfcvt n f) f.hd .normal →
    exec (.sfcvt n f) s = .next (s.afterS n fun c => c.later 4 0 (.s f.d.toNat (sfcvtOp f.sub.toNat (c.sreg f.a.toNat))))) ∧
  (∀ (s : State) (n : CoreId) (f : FmtSA), s.live = true → SaPlain f → f.sub.toNat ≤ 4 → f.d.toNat < 8 →
    SlotReady s.dev n 0 (.sfcmp n f) f.hd .normal →
    exec (.sfcmp n f) s = .next (s.afterS n fun c => c.later 1 0 (.p f.d.toNat (sfcmpOp f.sub.toNat ((c.sreg f.a.toNat).toNat % 2 ^ 32)
      (if f.i then f.imm.toNat else (c.sreg f.b.toNat).toNat % 2 ^ 32))))) ∧
  (∀ (s : State) (n : CoreId) (f : FmtSA), s.live = true → SaPlain f → f.sub.toNat ≤ 5 → f.d.toNat < 8 →
    SlotReady s.dev n 0 (.scmp n f) f.hd .normal →
    ∃ r, Compares f.sub.toNat ((s.dev.core n).sreg f.a.toNat) (saB (s.dev.core n) f) r ∧
      exec (.scmp n f) s = .next (s.afterS n fun c => c.later 1 0 (.p f.d.toNat r))) ∧
  (∀ (s : State) (n : CoreId) (f : FmtSA), s.live = true → f.i = false → f.imm = 0 → f.sub.toNat ≤ 3 → f.d.toNat < 8 → f.a.toNat < 8 → f.b.toNat < 8 →
    SlotReady s.dev n 0 (.plog n f) f.hd .normal →
    exec (.plog n f) s = .next (s.afterS n fun c => c.later 1 0 (.p f.d.toNat
      (let a := c.preg f.a.toNat
       let b := c.preg f.b.toNat
       if f.sub = 0 then a && b else if f.sub = 1 then a || b else if f.sub = 2 then a ^^ b else a && !b)))) ∧
  (∀ (s : State) (n : CoreId) (f : FmtSA) (w : Word), s.live = true → f.i = true → f.a = 0 → f.b = 0 → f.sub = 0 →
    s.dev.selector n (b2n f.hd.set) f.imm.toNat = some w → SlotReady s.dev n 0 (.srds n f) f.hd .normal →
    exec (.srds n f) s = .next (s.afterS n fun c => c.later 1 0 (.s f.d.toNat w))) ∧
  (∀ (s : State) (n : CoreId) (f : FmtS0), s.live = true → f = ⟨⟨false, 0, false⟩, 0⟩ → SlotReady s.dev n 0 (.snop n f) f.hd .normal →
    exec (.snop n f) s = .next (s.on fun d => d.closeBundle n))

/-- R189 and R191: a result under way with nothing else under way reaches its register when its cycle has come, not before; s0 and p0 discard it
(R180). Where the manual is silent the model chooses: log 11. -/
def Obligations.ResultsReachRegisters : Prop :=
  ∀ (c : CoreSt) (lat prio r : Nat) (w : Word) (b : Bool) (k : Nat), c.pend = [] →
    ({ c.later lat prio (.s r w) with cycle := c.cycle + k }.settle.sreg r = if r = 0 then 0 else if lat ≤ k then w else c.sreg r) ∧
    ({ c.later lat prio (.p r b) with cycle := c.cycle + k }.settle.preg r = if r = 0 then true else if lat ≤ k then b else c.preg r) ∧
    (∀ q, q ≠ r → { c.later lat prio (.s r w) with cycle := c.cycle + k }.settle.sreg q = c.sreg q)

/-- R186 to R188, R192, R193, R198, R216, R217: branches, loops, waits, synchronising instructions and END. Where the manual is silent the model chooses: log 11. -/
def Obligations.ControlResults : Prop :=
  (∀ (s : State) (n : CoreId) (f : FmtSB), s.live = true → f.rsv = 0 → f.hd.set = false → MayBranch (s.dev.core n) f.t.toNat →
    SlotReady s.dev n 0 (.sbr n f) f.hd .branch → exec (.sbr n f) s = .next (s.afterS n fun c => { c with branch := some (3, f.t.toNat) })) ∧
  (∀ (s : State) (n : CoreId) (f : FmtSB), s.live = true → f.rsv = 0 → f.hd.set = false → MayBranch (s.dev.core n) f.t.toNat →
    SlotReady s.dev n 0 (.scall n f) f.hd .branch →
    exec (.scall n f) s = .next (s.afterS n fun c =>
      { c.later 1 0 (.s 31 (BitVec.ofNat 64 (c.bundle + 3))) with branch := some (3, f.t.toNat) })) ∧
  (∀ (s : State) (n : CoreId) (f : FmtS0), s.live = true → f.rsv = 0 → f.hd.set = false →
    MayBranch (s.dev.core n) (((s.dev.core n).sreg 31).toNat % 2048) → SlotReady s.dev n 0 (.sret n f) f.hd .branch →
    exec (.sret n f) s = .next (s.afterS n fun c => { c with branch := some (3, (c.sreg 31).toNat % 2048) })) ∧
  (∀ (s : State) (n : CoreId) (f : FmtSL), s.live = true → f.rsv = 0 → f.hd.set = false → f.reg = false → f.n = 0 → f.cnt ≠ 0 →
    (s.dev.core n).branch = none → (s.dev.core n).loops.length < 4 → SlotReady s.dev n 0 (.sloop n f) f.hd .free →
    exec (.sloop n f) s = .next (s.afterS n fun c =>
      { c with loops := ⟨c.bundle + 1, c.bundle + 1 + f.l.toNat, f.cnt.toNat, false⟩ :: c.loops })) ∧
  (∀ (s : State) (n : CoreId) (f : FmtSL), s.live = true → f.rsv = 0 → f.hd.set = false → f.reg = true → f.cnt = 0 →
    (s.dev.core n).branch = none → (s.dev.core n).loops.length < 4 → SlotReady s.dev n 0 (.sloop n f) f.hd .free →
    exec (.sloop n f) s = .next (s.afterS n fun c =>
      let k := (c.sreg f.n.toNat).toNat % 2 ^ 32
      { c with loops := ⟨c.bundle + 1, c.bundle + 1 + f.l.toNat, if k = 0 then 1 else k, k == 0⟩ :: c.loops })) ∧
  (∀ (s : State) (n : CoreId) (f : FmtSW), s.live = true → f.rsv = 0 → f.hd.set = false → f.reg = false → f.n = 0 → f.cnt ≠ 0 →
    SlotReady s.dev n 0 (.swait n f) f.hd .free → exec (.swait n f) s = .next (s.afterS n fun c => { c with planned := f.cnt.toNat })) ∧
  (∀ (s : State) (n : CoreId) (f : FmtSW), s.live = true → f.rsv = 0 → f.hd.set = false → f.reg = true → f.cnt = 0 →
    SlotReady s.dev n 0 (.swait n f) f.hd .free →
    exec (.swait n f) s = .next (s.afterS n fun c => { c with planned := (c.sreg f.n.toNat).toNat % 65536 })) ∧
  (∀ (s : State) (n : CoreId) (f : FmtSY), s.live = true → f.rsv = 0 → f.mask = 0 → f.hd.set = false → s.dev.coreState n ≠ 3 →
    SlotReady s.dev n 0 (.syncTick n f) f.hd .free →
    exec (.syncTick n f) s = .next (s.afterS n fun c =>
      if c.tickSeen ≤ s.dev.fld F.TCK_SCHED_INDEX then { c with tickSeen := c.tickSeen + 1, align := true } else { c with tickWait := true })) ∧
  (∀ (s : State) (n : CoreId) (f : FmtSY), s.live = true → f.rsv = 0 → f.hd.set = false →
    (let c := s.dev.core n
     (f.mask.getLsbD 0 = true → c.queuedBefore 1 c.no = false) ∧
     (f.mask.getLsbD 1 = true → c.queuedBefore 2 c.no = false ∧ c.arrayBefore c.no = false) ∧
     (f.mask.getLsbD 2 = true → c.queuedBefore 3 c.no = false ∧ c.copiesBefore c.no = false)) →
    SlotReady s.dev n 0 (.syncEng n f) f.hd .free →
    exec (.syncEng n f) s = .next (if f.mask.getLsbD 0 then s.afterS n fun c => { c with extra := max c.extra (c.vDue - (c.cycle + 1)) }
      else s.on fun d => d.closeBundle n)) ∧
  (∀ (s : State) (n : CoreId) (f : FmtSY), s.live = true → f.rsv = 0 → f.mask = 0 → f.hd.set = false →
    SlotReady s.dev n 0 (.syncFrame n f) f.hd .free → exec (.syncFrame n f) s = .next (s.afterS n fun c => { c with align := true })) ∧
  (∀ (s : State) (n : CoreId) (f : FmtS0), s.live = true → f.rsv = 0 →
    s.dev.writesOut n (s.dev.slotSet n f.hd) (s.dev.core n).no = false →
    SlotReady s.dev n 0 (.fencePush n f) f.hd .normal → exec (.fencePush n f) s = .next (s.on fun d => d.closeBundle n)) ∧
  (∀ (s : State) (n : CoreId) (f : FmtS0), s.live = true → f.rsv = 0 → f.hd.set = false → (s.dev.core n).branch = none →
    SlotReady s.dev n 0 (.endKernel n f) f.hd .free → exec (.endKernel n f) s = .next (s.afterS n fun c => { c with ended := true }))


namespace Sys2Proof.Claims

/-! ## Memory accesses of a core: terms -/

/-- No codeword of n bytes at a physical offset holds an error (R123). -/
def Clean (d : Dev) (core p n : Nat) : Prop := ∀ q ∈ (d.core core).badCw, ¬ (p / 8 ≤ q.1 ∧ q.1 * 8 < p + n)

/-- n bytes at local offset a of a set, aligned to al, lie at physical offset p, in powered segments, under no zeroing and in codewords without errors
(R120, R123, R125, R185, R290). -/
def LocalAt (d : Dev) (core set a n al p : Nat) : Prop :=
  a % al = 0 ∧ a + n ≤ 4096 * d.fld (ctxBound4k set core) ∧ p = 4096 * d.fld (ctxBase4k set core) + a ∧ d.zeroing core p n = false ∧
    d.segsReady core p n = true ∧ Clean d core p n

/-- An SM instruction that uses no field it does not have (R207, R210, R214, R218). -/
def SmPlain (f : FmtSM) : Prop := f.space ≠ 3 ∧ f.upd ≠ 3 ∧ f.sx = false ∧ f.cond = 0

/-- An atomic that uses no reserved code (R210, R219). -/
def SxPlain (aop : Nat) (f : FmtSX) : Prop := f.space ≠ 3 ∧ f.upd ≠ 3 ∧ (f.fp = true → f.w64 = false ∧ aop ≤ 2)

/-- Bytes of an atomic (R219). -/
def sxBytes (f : FmtSX) : Nat := if f.w64 then 8 else 4

/-- The device in the cycle of the scalar engine's next frame slot: the matrix engine's feeders have read what they fetched before it (R110, R112). -/
def inSlot (d : Dev) (n : CoreId) : Dev := d.feed n ((d.core n).cycle + frameWait 2 (d.core n).cycle)

/-- A scalar access of k bytes goes to physical offset p of the own scratchpad, whose bank no FLAG.REL of the set holds and whose codewords are without
errors, with the debug option off (R111, R123, R306). -/
structure HereAt (d : Dev) (n : CoreId) (set space a k p : Nat) (read : Bool) : Prop where
  place : d.place n set space a k read = .here p
  bank : d.bankHeld n set p = false
  noSlotFault : d.bit (F.SCP_CORE_CTRL_SLOT_FAULT n) = false
  clean : Clean d n p k
  cleanThen : Clean (inSlot d n) n p k

/-- An access goes to another place of the board's own device. -/
def ThereAt (d : Dev) (n : CoreId) (set space a k g : Nat) (read : Bool) : Prop :=
  d.place n set space a k read = .there g ∧ g < 2 ^ 48 ∧ g / 2 ^ 44 = d.slotNo

/-- The request of a set of core n: its job, and the kernel and bundle that issue it (R191, R202, R294). -/
def coreReq (d : Dev) (n : CoreId) (set g : Nat) (op : ReqOp) (reg : Option Nat) (acq : Bool) : Req :=
  { Req.of (coreSrc n set) (d.fld (ctxJob set n)) g op with
    reg := reg, acq := acq, kern := (d.core n).kern, bundle := (d.core n).bundle, no := (d.core n).no }

/-- An atomic to the own scratchpad: the bytes hold the new value, and the old one reaches the register 8 + 2 × d cycles after the frame slot (R219). -/
def AtomLocal (mk : CoreId → FmtSX → Instr) (aop : Nat) : Prop :=
  ∀ (s : State) (n : CoreId) (f : FmtSX) (p : Nat), s.live = true → SxPlain aop f →
    HereAt s.dev n (s.dev.slotSet n f.hd) f.space.toNat (sxEa (s.dev.core n) f).toNat (sxBytes f) p true →
    SlotReady s.dev n 0 (mk n f) f.hd .normal →
    exec (mk n f) s = .next (s.on fun d =>
      let k := sxBytes f
      let w := frameWait 2 (d.core n).cycle
      let old := (inSlot d n).scpRead n p k
      let new := atomicNew aop f.w64 f.fp (leNat old) ((d.core n).sreg f.v.toNat).toNat ((d.core n).sreg f.c.toNat).toNat
      let d := (inSlot d n).modCore n fun c => (c.later (w + 8 + 2 * farthest 2 p k) 0 (.s f.d.toNat (extend false old))).stall w
      (((d.wrote n 0 (mk n f)).modCore n fun c => c.repaired p k).scpWrite n p (leBytes k new)).closeBundle n)

/-- An atomic to any other address is one request to its home, whose answer the register awaits unless it is s0; the core's own copy of the line goes
(R191, R219, R306). -/
def AtomAway (mk : CoreId → FmtSX → Instr) (aop : Nat) : Prop :=
  ∀ (s : State) (n : CoreId) (f : FmtSX) (g : Nat), s.live = true → SxPlain aop f →
    ThereAt s.dev n (s.dev.slotSet n f.hd) f.space.toNat (sxEa (s.dev.core n) f).toNat (sxBytes f) g true →
    SlotReady s.dev n 0 (mk n f) f.hd .normal →
    exec (mk n f) s = .next (s.on fun d =>
      let c := d.core n
      let op := .atomic aop f.w64 f.fp (c.sreg f.v.toNat).toNat (c.sreg f.c.toNat).toNat
      let r := coreReq d n (d.slotSet n f.hd) g op (if f.d = 0 then none else some f.d.toNat) false
      ((((d.issue r).scored n d.home.nextId f.d.toNat).scAtomic n g).wrote n 0 (mk n f)).closeBundle n)

end Sys2Proof.Claims

/-! ## Scalar memory -/

/-- R116, R120, R121, R184, R185, R290: where an access of n bytes goes: space 0 local, 1 HBM, 2 absolute. Where the manual is silent the model chooses: log 33. -/
def Obligations.AccessPlaces : Prop :=
  ∀ (d : Dev) (core set a n : Nat) (read : Bool),
    let own := d.slotNo * 2 ^ 44 + scpWin core
    (∀ space, a % n ≠ 0 → d.place core set space a n read = .isa 4) ∧
    (a % n = 0 → 4096 * d.fld (ctxBound4k set core) < a + n → d.place core set 0 a n read = .scp 1) ∧
    (∀ p, LocalAt d core set a n n p → d.place core set 0 a n read = .here p) ∧
    (a % n = 0 → a + n ≤ 4096 * d.fld (ctxBound4k set core) → d.zeroing core (4096 * d.fld (ctxBase4k set core) + a) n = true →
      d.place core set 0 a n true = .isa 6) ∧
    (a % n = 0 → 65536 * d.fld (ctxHbmBound set core) < a + n → d.place core set 1 a n read = .scp 2) ∧
    (a % n = 0 → a + n ≤ 65536 * d.fld (ctxHbmBound set core) →
      d.place core set 1 a n read = .there (d.slotNo * 2 ^ 44 + 65536 * d.fld (ctxHbmBase set core) + a)) ∧
    (a % n = 0 → own ≤ a → a + n ≤ own + 0x1000000 → own + 0x600000 < a + n → d.place core set 2 a n read = .scp 4) ∧
    (a % n = 0 → own ≤ a → a + n ≤ own + 0x600000 → d.zeroing core (a - own) n = false → d.segsReady core (a - own) n = true →
      d.place core set 2 a n read = .here (a - own)) ∧
    (a % n = 0 → (a < own ∨ own + 0x1000000 < a + n) → d.place core set 2 a n read = .there a)

/-- R113, R123, R214, R218: loads, stores and flags of the own scratchpad; and a store changes no byte but its own, and nothing but memory where no
codeword it touches holds an error. -/
def Obligations.ScalarLocalAccesses : Prop :=
  (∀ (s : State) (n : CoreId) (f : FmtSM) (p : Nat), s.live = true → f.space ≠ 3 → f.upd ≠ 3 → f.cond = 0 →
    HereAt s.dev n (s.dev.slotSet n f.hd) f.space.toNat (smEa (s.dev.core n) f).toNat (2 ^ f.w.toNat) p true →
    SlotReady s.dev n 0 (.sld n f) f.hd .normal →
    exec (.sld n f) s = .next (s.on fun d =>
      let k := 2 ^ f.w.toNat
      let w := frameWait 2 (d.core n).cycle
      (((inSlot d n).modCore n fun c =>
        (c.later (w + 8 + 2 * farthest 2 p k) 0 (.s f.d.toNat (extend f.sx ((inSlot d n).scpRead n p k)))).stall w).wrote n 0 (.sld n f)).closeBundle n)) ∧
  (∀ (s : State) (n : CoreId) (f : FmtSM) (p : Nat), s.live = true → SmPlain f →
    HereAt s.dev n (s.dev.slotSet n f.hd) f.space.toNat (smEa (s.dev.core n) f).toNat (2 ^ f.w.toNat) p false →
    SlotReady s.dev n 0 (.sst n f) f.hd .normal →
    exec (.sst n f) s = .next (s.on fun d =>
      let bs := leBytes (2 ^ f.w.toNat) ((d.core n).sreg f.d.toNat).toNat
      ((((inSlot d n).scpWrite n p bs).modCore n fun c => c.stall (frameWait 2 (d.core n).cycle)).wrote n 0 (.sst n f)).closeBundle n)) ∧
  (∀ (s : State) (n : CoreId) (f : FmtSM) (p : Nat), s.live = true → SmPlain f → 2 ≤ f.w.toNat →
    HereAt s.dev n (s.dev.slotSet n f.hd) f.space.toNat (smEa (s.dev.core n) f).toNat (2 ^ f.w.toNat) p false →
    (let c := s.dev.core n
     s.dev.relNeeds n (s.dev.slotSet n f.hd) c.no = ([], []) ∧ c.enginesPast (s.dev.split n) (s.dev.slotSet n f.hd) c.no = true) →
    SlotReady s.dev n 0 (.flagRel n f) f.hd .normal →
    exec (.flagRel n f) s = .next (s.on fun d =>
      let bs := leBytes (2 ^ f.w.toNat) ((d.core n).sreg f.d.toNat).toNat
      (((inSlot d n).scpWrite n p bs).wrote n 0 (.flagRel n f)).closeBundle n)) ∧
  (∀ (s : State) (n : CoreId) (f : FmtSM) (p : Nat), s.live = true → f.space ≠ 3 → f.upd ≠ 3 → f.cond = 0 → 2 ≤ f.w.toNat →
    HereAt s.dev n (s.dev.slotSet n f.hd) f.space.toNat (smEa (s.dev.core n) f).toNat (2 ^ f.w.toNat) p true →
    SlotReady s.dev n 0 (.flagAcq n f) f.hd .normal →
    ∃ q : Acq, q.reg = f.d.toNat ∧ q.set = s.dev.slotSet n f.hd ∧ exec (.flagAcq n f) s = .next (s.on fun d =>
      let k := 2 ^ f.w.toNat
      let lat := frameWait 2 (d.core n).cycle + 8 + 2 * farthest 2 p k
      let v := extend f.sx ((inSlot d n).scpRead n p k)
      ((((inSlot d n).modCore n fun c => c.stall lat).acqDone n q v).wrote n 0 (.flagAcq n f)).closeBundle n)) ∧
  (∀ (d : Dev) (n : Nat) (q : Acq) (v : Word), q.reg ≠ 0 →
    ((d.acqDone n q v).core n).sreg q.reg = v ∧ ((d.acqDone n q v).core n).acq = none ∧ ((d.acqDone n q v).core n).sc = []) ∧
  (∀ (d : Dev) (n p : Nat) (bs : List Byte),
    (∀ a, (d.scpWrite n p bs).mb a =
      if scpWin n + p ≤ a ∧ a < scpWin n + p + bs.length then bs.getD (a - (scpWin n + p)) 0 else d.mb a) ∧
    (Clean d n p bs.length → d.scpWrite n p bs = { d with mem := (d.scpWrite n p bs).mem }))

/-- R121, R129, R191, R218: every other access on the board's own device leaves as a request to its home; a load whose line the scalar cache holds
needs none. -/
def Obligations.ScalarRemoteAccesses : Prop :=
  (∀ (d : Dev) (r : Req), r.addr < 2 ^ 48 → r.addr / 2 ^ 44 = d.slotNo →
    d.issue r = { d with home := { d.home with
      nextId := d.home.nextId + 1, reqs := d.home.reqs ++ [{ r with id := d.home.nextId, addr := r.addr % 2 ^ 44 }] } }) ∧
  (∀ (s : State) (n : CoreId) (f : FmtSM) (g : Nat), s.live = true → f.space ≠ 3 → f.upd ≠ 3 → f.cond = 0 →
    ThereAt s.dev n (s.dev.slotSet n f.hd) f.space.toNat (smEa (s.dev.core n) f).toNat (2 ^ f.w.toNat) g true →
    SlotReady s.dev n 0 (.sld n f) f.hd .normal →
    (s.dev.core n).scHit g (2 ^ f.w.toNat) = none → (s.dev.core n).scBad.contains (g / 64) = false →
    exec (.sld n f) s = .next (s.on fun d =>
      let r := coreReq d n (d.slotSet n f.hd) g (.load (2 ^ f.w.toNat) f.sx) (some f.d.toNat) false
      (((d.issue r).scored n d.home.nextId f.d.toNat).wrote n 0 (.sld n f)).closeBundle n)) ∧
  (∀ (s : State) (n : CoreId) (f : FmtSM) (g : Nat) (bs : List Byte), s.live = true → f.space ≠ 3 → f.upd ≠ 3 → f.cond = 0 →
    ThereAt s.dev n (s.dev.slotSet n f.hd) f.space.toNat (smEa (s.dev.core n) f).toNat (2 ^ f.w.toNat) g true →
    SlotReady s.dev n 0 (.sld n f) f.hd .normal → (s.dev.core n).scHit g (2 ^ f.w.toNat) = some bs →
    exec (.sld n f) s = .next (s.on fun d =>
      ((d.modCore n fun c => c.later 3 0 (.s f.d.toNat (extend f.sx bs))).wrote n 0 (.sld n f)).closeBundle n)) ∧
  (∀ (s : State) (n : CoreId) (f : FmtSM) (g : Nat), s.live = true → SmPlain f →
    ThereAt s.dev n (s.dev.slotSet n f.hd) f.space.toNat (smEa (s.dev.core n) f).toNat (2 ^ f.w.toNat) g false →
    SlotReady s.dev n 0 (.sst n f) f.hd .normal →
    exec (.sst n f) s = .next (s.on fun d =>
      let bs := leBytes (2 ^ f.w.toNat) ((d.core n).sreg f.d.toNat).toNat
      let r := coreReq d n (d.slotSet n f.hd) g (.store bs) none false
      (((d.issue r).scWritten n g bs).wrote n 0 (.sst n f)).closeBundle n)) ∧
  (∀ (s : State) (n : CoreId) (f : FmtSM) (g : Nat), s.live = true → SmPlain f → 2 ≤ f.w.toNat →
    ThereAt s.dev n (s.dev.slotSet n f.hd) f.space.toNat (smEa (s.dev.core n) f).toNat (2 ^ f.w.toNat) g false →
    SlotReady s.dev n 0 (.flagRel n f) f.hd .normal →
    exec (.flagRel n f) s = .next (s.on fun d =>
      let set := d.slotSet n f.hd
      let bs := leBytes (2 ^ f.w.toNat) ((d.core n).sreg f.d.toNat).toNat
      let follows := d.relNeeds n set (d.core n).no
      let r := { coreReq d n set g (.store bs) none false with need := follows.1, needDesc := follows.2, rel := true }
      (((d.issue r).scWritten n g bs).wrote n 0 (.flagRel n f)).closeBundle n)) ∧
  (∀ (s : State) (n : CoreId) (f : FmtSM) (g : Nat), s.live = true → f.space ≠ 3 → f.upd ≠ 3 → 2 ≤ f.w.toNat →
    ThereAt s.dev n (s.dev.slotSet n f.hd) f.space.toNat (smEa (s.dev.core n) f).toNat (2 ^ f.w.toNat) g true →
    SlotReady s.dev n 0 (.flagAcq n f) f.hd .normal →
    ∃ q : Acq, q.reg = f.d.toNat ∧ q.cond = f.cond.toNat ∧ q.addr = (smEa (s.dev.core n) f).toNat ∧ q.req = some s.dev.home.nextId ∧
      exec (.flagAcq n f) s = .next (s.on fun d =>
        let r := coreReq d n (d.slotSet n f.hd) g (.load (2 ^ f.w.toNat) f.sx) (some f.d.toNat) true
        (((d.issue r).modCore n fun c => { c with acq := some q }).wrote n 0 (.flagAcq n f)).closeBundle n))

/-- R219: the seven atomics, in the own scratchpad and elsewhere. -/
def Sys2Proof.Claims.Atomics : Prop :=
  (AtomLocal .atomAdd 0 ∧ AtomLocal .atomMin 1 ∧ AtomLocal .atomMax 2 ∧ AtomLocal .atomMinu 3 ∧ AtomLocal .atomMaxu 4 ∧ AtomLocal .atomSwap 5 ∧
    AtomLocal .atomCas 6) ∧
  (AtomAway .atomAdd 0 ∧ AtomAway .atomMin 1 ∧ AtomAway .atomMax 2 ∧ AtomAway .atomMinu 3 ∧ AtomAway .atomMaxu 4 ∧ AtomAway .atomSwap 5 ∧
    AtomAway .atomCas 6)

/-- R219: what each AOP stores: a sum, a minimum or maximum signed or not, the operand, or the operand where the old value equals the other. -/
def Sys2Proof.Claims.AtomicValues : Prop :=
  ∀ (old sv sc : BitVec 64),
    atomicNew 0 true false old.toNat sv.toNat sc.toNat = (old + sv).toNat ∧
    atomicNew 1 true false old.toNat sv.toNat sc.toNat = (if sv.toInt < old.toInt then sv else old).toNat ∧
    atomicNew 2 true false old.toNat sv.toNat sc.toNat = (if old.toInt < sv.toInt then sv else old).toNat ∧
    atomicNew 3 true false old.toNat sv.toNat sc.toNat = min old.toNat sv.toNat ∧
    atomicNew 4 true false old.toNat sv.toNat sc.toNat = max old.toNat sv.toNat ∧
    atomicNew 5 true false old.toNat sv.toNat sc.toNat = sv.toNat ∧
    atomicNew 6 true false old.toNat sv.toNat sc.toNat = (if old = sc then sv else old).toNat

/-- What the atomic instructions do, and the values they leave in memory. -/
def Obligations.AtomicResults : Prop := Claims.Atomics ∧ Claims.AtomicValues

namespace Sys2Proof.Claims

/-! ## V slot: terms -/

/-- A core whose lanes an instruction of some beats occupies after its wait, and the results of its beats, 64 lanes each, beat b usable at issue
+ wait + lat + b (R189, R190, R222). -/
def lanesTake (c : CoreSt) (lat d beats : Nat) (r : List (BitVec 32)) : CoreSt :=
  let wait := c.laneFree - c.cycle
  ({ c with laneFree := c.cycle + wait + beats, laneAt := c.cycle }.stall wait).laterBeats (wait + lat) d beats 0 r

/-- A lane-wise instruction in every lane format of `fmts`: element by element g of the format, a, b and c (R222, R223). -/
def GivesLanes (mk : CoreId → FmtVA → Instr) (fmts : List Nat) (useB useC useSub : Bool) (lat : Nat) (g : FmtVA → Nat → Nat → Nat → Nat) : Prop :=
  ∀ (s : State) (n : CoreId) (f : FmtVA), s.live = true → vaRsv f fmts true useB useC useSub = false → (useSub = true → f.sub.toNat ≤ 5) →
    SlotReady s.dev n 1 (mk n f) f.hd .normal →
    exec (mk n f) s = .next (s.afterVMD n fun c => lanesTake c lat f.d.toNat (f.beats.toNat + 1)
      (((c.vreg f.a.toNat).zip ((vaB c f).zip (c.vreg f.c.toNat))).map fun x => laneMap f.fmt.toNat (g f) x.1 x.2.1 x.2.2))

/-- A sign-bit operation on a float element: a NaN gives the canonical NaN (R160). -/
def signOnly (fmt : Nat) (g : Nat → Nat) (a : Nat) : Nat :=
  let v := elemDecode fmt a
  if v.isNan then elemEncode fmt false .even v else g a

/-- The two's-complement value of a 32-bit element. -/
def i32 (a : Nat) : Int := (BitVec.ofNat 32 a).toInt

/-- A 32-bit element of an integer, modulo 2^32. -/
def to32 (i : Int) : Nat := (BitVec.ofInt 32 i).toNat

/-- An element operation: INT32 (format 10) by `int`, a float format with one rounding to nearest even by `flt` (R165, R221). -/
def lane2 (int : Int → Int → Int) (flt : Fval → Fval → Fval) (f : FmtVA) (a b _ : Nat) : Nat :=
  if f.fmt = 10 then to32 (int (i32 a) (i32 b))
  else elemEncode f.fmt.toNat false .even (flt (elemDecode f.fmt.toNat a) (elemDecode f.fmt.toNat b))

/-- A vector access waits for its frame slot: before its bundle's scalar slot, or after it when the frame's vector slots have passed (R110 to R112). -/
def vSlot (d : Dev) (n : CoreId) (prio : Nat) (i : Instr) (q : VLate) : Dev :=
  let e := (d.modCore n fun c => c.stall q.wait).wrote n prio i
  if 6 ≤ (d.core n).cycle % 8 then e.modCore n fun c => { c with late := c.late ++ [q] } else e.performLate n q

end Sys2Proof.Claims

/-! ## V slot -/

/-- R165, R166, R222: lane-wise arithmetic. INT32 wraps modulo 2^32 and compares as signed. -/
def Sys2Proof.Claims.VectorArithmetic : Prop :=
  GivesLanes .vadd [7, 8, 9, 10] true false false 4 (lane2 (· + ·) Fval.add) ∧
  GivesLanes .vsub [7, 8, 9, 10] true false false 4 (lane2 (· - ·) fun x y => x.add y.neg) ∧
  GivesLanes .vmul [7, 8, 9, 10] true false false 4 (lane2 (· * ·) Fval.mul) ∧
  GivesLanes .vmin [7, 8, 9, 10] true false false 4 (lane2 min Fval.minNum) ∧
  GivesLanes .vmax [7, 8, 9, 10] true false false 4 (lane2 max Fval.maxNum) ∧
  GivesLanes .vfma [7, 8, 9, 10] true true false 4 (fun f a b c => if f.fmt = 10 then to32 (i32 a * i32 b + i32 c)
    else elemEncode f.fmt.toNat false .even ((elemDecode f.fmt.toNat a).fma (elemDecode f.fmt.toNat b) (elemDecode f.fmt.toNat c))) ∧
  GivesLanes .vdiv [7, 8, 9] true false false 12 (fun f a b _ =>
    elemEncode f.fmt.toNat false .even ((elemDecode f.fmt.toNat a).div (elemDecode f.fmt.toNat b))) ∧
  GivesLanes .vsqrt [7, 8, 9] false false false 12 (fun f a _ _ => elemEncode f.fmt.toNat false .even (elemDecode f.fmt.toNat a).sqrt)

/-- R222: bitwise operations, shifts, sign operations, compares and selection by lane. -/
def Sys2Proof.Claims.VectorLogic : Prop :=
  GivesLanes .vand [7, 8, 9, 10] true false false 4 (fun _ a b _ => a &&& b) ∧
  GivesLanes .vor [7, 8, 9, 10] true false false 4 (fun _ a b _ => a ||| b) ∧
  GivesLanes .vxor [7, 8, 9, 10] true false false 4 (fun _ a b _ => a ^^^ b) ∧
  GivesLanes .vshl [10] true false false 4 (fun _ a b _ => a * 2 ^ (b % 32) % 2 ^ 32) ∧
  GivesLanes .vshr [10] true false false 4 (fun _ a b _ => a / 2 ^ (b % 32)) ∧
  GivesLanes .vsra [10] true false false 4 (fun _ a b _ => to32 (i32 a / 2 ^ (b % 32))) ∧
  GivesLanes .vsel [7, 8, 9, 10] true true false 4 (fun _ a b c => if c = 0 then b else a) ∧
  GivesLanes .vabs [7, 8, 9, 10] false false false 4 (fun f a _ _ =>
    if f.fmt = 10 then to32 (i32 a).natAbs else signOnly f.fmt.toNat (fun x => if f.fmt = 9 then x % 2 ^ 31 else x % 2 ^ 15) a) ∧
  GivesLanes .vneg [7, 8, 9, 10] false false false 4 (fun f a _ _ =>
    if f.fmt = 10 then to32 (-i32 a) else signOnly f.fmt.toNat (fun x => if f.fmt = 9 then x ^^^ 2 ^ 31 else x ^^^ 2 ^ 15) a) ∧
  GivesLanes .vcmp [7, 8, 9, 10] true false true 4 (fun f a b _ =>
    let x := elemDecode f.fmt.toNat a
    let y := elemDecode f.fmt.toNat b
    let r := if f.sub = 0 then x.eq y else if f.sub = 1 then !(x.eq y) else if f.sub = 2 then x.lt y else if f.sub = 3 then x.lt y || x.eq y
      else if f.sub = 4 then y.lt x else y.lt x || x.eq y
    if r then (if f.fmt = 9 ∨ f.fmt = 10 then 2 ^ 32 - 1 else 2 ^ 16 - 1) else 0)

/-- What the lane-wise vector instructions give. -/
def Obligations.VectorLaneResults : Prop := Claims.VectorArithmetic ∧ Claims.VectorLogic

/-- R167, R222: every transcendental acts on each lane for 12 cycles. Where the manual is silent the model chooses: log 9. -/
def Obligations.VectorTranscendentals : Prop :=
  let gives (mk : CoreId → FmtVA → Instr) (t : Tfun) : Prop :=
    GivesLanes mk [7, 8, 9] false false false 12 fun f a _ _ => transcendLane t f.fmt.toNat a
  gives .vrcp .rcp ∧ gives .vrsqrt .rsqrt ∧ gives .vexp2 .exp2 ∧ gives .vexp .exp ∧ gives .vlog2 .log2 ∧ gives .vlog .log ∧ gives .vsin .sin ∧
  gives .vcos .cos ∧ gives .vtanh .tanh ∧ gives .vsigm .sigm ∧ gives .verf .erf

/-- R172, R224 to R226: conversion, reduction, broadcast, extraction and seeding. Where the manual is silent the model chooses: log 14. -/
def Obligations.VectorMoves : Prop :=
  (∀ (s : State) (n : CoreId) (f : FmtVA), s.live = true → vcvtRsv f = false → SlotReady s.dev n 1 (.vcvt n f) f.hd .normal →
    elemBits f.fmt.toNat ≤ elemBits f.fmt2.toNat → isMX f.fmt.toNat = false →
    exec (.vcvt n f) s = .next (s.afterVMD n fun c => lanesTake (c.vcvt f).1 4 f.d.toNat (f.beats.toNat + 1) (c.vcvt f).2)) ∧
  (∀ (s : State) (n : CoreId) (f : FmtVA), s.live = true → vcvtRsv f = false → SlotReady s.dev n 1 (.vcvt n f) f.hd .normal →
    elemBits f.fmt2.toNat < elemBits f.fmt.toNat ∨ isMX f.fmt.toNat = true →
    exec (.vcvt n f) s = .next (s.afterVMD n fun c =>
      let c' := (c.vcvt f).1
      let wait := c'.laneFree - c'.cycle
      let beats := if isMX f.fmt2.toNat || isMX f.fmt.toNat then 8
        else ceilDiv ((f.beats.toNat + 1) * elemBits f.fmt2.toNat) (elemBits f.fmt.toNat)
      ({ c' with laneFree := c'.cycle + wait + (f.beats.toNat + 1), laneAt := c'.cycle }.stall wait).laterAll (wait + 4 + f.beats.toNat) f.d.toNat beats 0
        (c.vcvt f).2)) ∧
  (∀ (s : State) (n : CoreId) (f : FmtVA), s.live = true → vaRsv f [7, 8, 9, 10] true false false true = false → f.sub.toNat ≤ 2 →
    SlotReady s.dev n 1 (.vred n f) f.hd .normal →
    exec (.vred n f) s = .next (s.afterVMD n fun c => lanesTake c 4 f.d.toNat (f.beats.toNat + 1)
      (redBeats f.fmt.toNat f.sub.toNat (f.beats.toNat + 1) (c.vreg f.a.toNat)))) ∧
  (∀ (s : State) (n : CoreId) (f : FmtVA), s.live = true → vaRsv f [7, 8, 9, 10] true false false false = false → f.a.toNat < 32 →
    SlotReady s.dev n 1 (.vbcast n f) f.hd .normal →
    exec (.vbcast n f) s = .next (s.afterVMD n fun c => lanesTake c 4 f.d.toNat (f.beats.toNat + 1)
      (List.replicate (64 * (f.beats.toNat + 1))
        (let w := (c.sreg f.a.toNat).setWidth 32
         if f.fmt = 7 ∨ f.fmt = 8 then (w.setWidth 16 ++ w.setWidth 16 : BitVec 32) else w)))) ∧
  (∀ (s : State) (n : CoreId) (f : FmtVA), s.live = true → vaRsv { f with lane := 0 } [7, 8, 9, 10] true false false false = false →
    f.beats = 0 → f.d.toNat < 32 → (f.fmt = 9 ∨ f.fmt = 10 → f.lane.toNat < 512) → SlotReady s.dev n 1 (.vext n f) f.hd .normal →
    exec (.vext n f) s = .next (s.afterVMD n fun c =>
      let wait := c.laneFree - c.cycle
      let bits := if f.fmt = 9 ∨ f.fmt = 10 then 32 else 16
      ({ c with laneFree := c.cycle + wait + 1, laneAt := c.cycle }.stall wait).later (wait + 4 + f.lane.toNat * bits / 2048) 1
        (.s f.d.toNat (BitVec.ofNat 64 (lanesNat (c.vreg f.a.toNat) / 2 ^ (bits * f.lane.toNat) % 2 ^ bits))))) ∧
  (∀ (s : State) (n : CoreId) (a : BitVec 6) (h : Head), s.live = true → a.toNat < 32 → (s.dev.core n).drainsWait = false →
    SlotReady s.dev n 1 (.vseed n ⟨h, 0, 0, a, 0, 0, 0, 0, false, false, false, 0, 0⟩) h .normal →
    ∃ d : Dev, exec (.vseed n ⟨h, 0, 0, a, 0, 0, 0, 0, false, false, false, 0, 0⟩) s = .next (s.on fun _ => d) ∧ d.regs = s.dev.regs ∧ d.mem = s.dev.mem ∧
      (d.core n).begun = true ∧ (d.core n).extra = max (s.dev.core n).extra ((s.dev.core n).laneFree - (s.dev.core n).cycle) ∧
      ∀ i, i < 64 ∨ (128 ≤ i ∧ i < 256) → (d.core n).gen i = genSeed (((s.dev.core n).sreg a.toNat).toNat % 2 ^ 24) i) ∧
  (∀ (s : State) (n : CoreId), s.live = true → SlotReady s.dev n 1 (.vnop n ⟨⟨false, 0, false⟩, 0⟩) ⟨false, 0, false⟩ .normal →
    exec (.vnop n ⟨⟨false, 0, false⟩, 0⟩) s = .next (s.afterVMD n id))

/-- R109 to R113, R128, R143, R227: vector loads and stores, performed in their frame slot, and the accumulator accesses. -/
def Obligations.VectorMemory : Prop :=
  (∀ (s : State) (n : CoreId) (f : FmtVM) (p : Nat), s.live = true → f.rsv = 0 → f.upd ≠ 3 → s.dev.bit (F.SCP_CORE_CTRL_SLOT_FAULT n) = false →
    LocalAt s.dev n (s.dev.slotSet n f.hd) (vmEa (s.dev.core n) f) (256 * (f.beats.toNat + 1)) 128 p → SlotReady s.dev n 1 (.vld n f) f.hd .normal →
    exec (.vld n f) s = .next (s.on fun d => (vSlot d n 1 (.vld n f)
      ⟨some f.v.toNat, [], p, 256 * (f.beats.toNat + 1), vmEa (d.core n) f, d.slotSet n f.hd, frameWait 1 (d.core n).cycle⟩).afterSlot n 1)) ∧
  (∀ (s : State) (n : CoreId) (f : FmtVM) (p : Nat), s.live = true → f.rsv = 0 → f.upd ≠ 3 → s.dev.bit (F.SCP_CORE_CTRL_SLOT_FAULT n) = false →
    LocalAt s.dev n (s.dev.slotSet n f.hd) (vmEa (s.dev.core n) f) (256 * (f.beats.toNat + 1)) 128 p →
    SlotReady s.dev n 1 (.vst n f) f.hd .normal →
    exec (.vst n f) s = .next (s.on fun d =>
      let k := 256 * (f.beats.toNat + 1)
      (vSlot d n 1 (.vst n f) ⟨none, leBytes k (lanesNat (((d.core n).vreg f.v.toNat).take (k / 4))), p, k, vmEa (d.core n) f, d.slotSet n f.hd,
        frameWait 1 (d.core n).cycle⟩).afterSlot n 1)) ∧
  (∀ (d : Dev) (n : Nat) (q : VLate),
    let fed := d.feed n ((d.core n).cycle + q.wait)
    (∀ r, q.reg = some r → Clean fed n q.phys q.len →
      d.performLate n q = fed.modCore n fun c => c.laterAll (q.wait + 8 + 2 * farthest 1 q.phys q.len) r (q.len / 256) 0
        (natLanes (q.len / 4) (leNat (fed.scpRead n q.phys q.len)))) ∧
    (q.reg = none → d.performLate n q = fed.scpWrite n q.phys q.bytes)) ∧
  (∀ (s : State) (n : CoreId) (f : FmtVC), s.live = true → vcRsv (s.dev.split n) f = false →
    let sp := s.dev.split n
    let h := b2n f.hd.set
    let k := vcRows sp f
    let j := vcRow (s.dev.core n) f
    s.dev.rowsWait n f = false → s.dev.accZeroing n h = false → (∀ i < k, (s.dev.core n).accBad sp h ((j + i) % 2048) = []) →
    SlotReady s.dev n 1 (.vldacc n f) f.hd .normal →
    exec (.vldacc n f) s = .next (s.afterVMD n fun c =>
      let w := c.accWait sp h 8192 j k (c.laneFree - c.cycle) - k
      (List.range k).foldl (fun c i =>
        if sp then c.laterAll (w + 6 + i) f.v.toNat 1 i (c.accGet true h (j + i))
        else c.laterAll (w + 6 + i) f.v.toNat 2 (2 * i) (c.accGet false h (j + i)))
        ({ c with laneFree := c.cycle + w + k, laneAt := c.cycle }.stall w))) ∧
  (∀ (s : State) (n : CoreId) (f : FmtVC), s.live = true → vcRsv (s.dev.split n) f = false → SlotReady s.dev n 1 (.vstacc n f) f.hd .normal →
    let sp := s.dev.split n
    let h := b2n f.hd.set
    let k := vcRows sp f
    let j := vcRow (s.dev.core n) f
    exec (.vstacc n f) s = .next (s.afterVMD n fun c =>
      let w := c.accWait sp h 8192 j k (c.laneFree - c.cycle) - k
      let m := if sp then 64 else 128
      (List.range k).foldl (fun c i => c.accPut sp h (j + i) (((c.vreg f.v.toNat).drop (m * i)).take m))
        ({ c with laneFree := c.cycle + w + k, laneAt := c.cycle }.stall w))) ∧
  (∀ (c : CoreSt) (sp : Bool) (h fuel j k w : Nat), (∀ b t, c.accTaken sp b t = false) → k ≤ fuel → c.accWait sp h fuel j k w = w + k)


namespace Sys2Proof.Claims

/-! ## M and D slots: terms -/

/-- An array instruction joins its unit with the registers it reads at issue, and its base register is written back (R136, R177, R184, R229). -/
def Accepted (s : State) (n : CoreId) (i : Instr) (half : Bool) (o : ArrOp) : Prop :=
  exec i s = .next (s.on fun d =>
    (((d.modCore n fun c => c.setUnit (b2n half) ((c.unit (b2n half)).accept (d.split n) o)).wrote n 2 i).afterSlot n 2))

/-- A stream of rows: MSTREAM, MSTREAM.T and, with a form, MDIST and MDIST.T (R228, R229). -/
def AcceptsStream (mk : CoreId → FmtMS → Instr) (op form : Nat) (disp : FmtMS → Int) : Prop :=
  ∀ (s : State) (n : CoreId) (f : FmtMS), s.live = true → f.fmt.toNat ≤ 8 → f.upd ≠ 3 → f.stride ≠ 0 →
    SlotReady s.dev n 2 (mk n f) f.hd .normal →
    let c := s.dev.core n
    let a := (effAddr (c.sreg f.b.toNat) (c.sreg f.x.toNat) f.sh.toNat f.upd.toNat (disp f)).toNat
    let m := (c.sreg f.m.toNat).toNat % 65536
    a % 128 = 0 → 0 < m → (c.unit (b2n f.hd.set)).aq.length < 2 →
    Accepted s n (mk n f) f.hd.set ⟨op, f.hd.set, c.cycle, f.acc, a, 0, f.fmt.toNat, f.fmt.toNat, false, 128, 128, m,
      (c.sreg f.r.toNat).toNat % 2048, f.stride.toNat, form, c.bundle, c.no⟩

/-- The MDIST whose other fields are those of an MSTREAM, with displacement p and a form (R228). -/
def distOf (f : FmtMS) (form : BitVec 3) : FmtMD := ⟨f.hd, f.acc, f.b, f.x, f.sh, f.upd, f.fmt, f.m, f.r, f.stride, form, f.disp.setWidth 12⟩

/-- An array unit's queue of two has room. -/
def UnitRoom (s : State) (n : CoreId) (half : Bool) : Prop := ((s.dev.core n).unit (b2n half)).aq.length < 2

/-- What an array unit plans for an instruction it accepts: it waits behind those before it, begins 32 cycles after its acceptance or later, with the
array free, and the array is free again once it leaves; nothing that is in the cells, in the drain or under way changes (R136, R137, R139). -/
def AcceptPlans (u : ArrUnit) (sp : Bool) (o : ArrOp) : Prop :=
  let v := u.accept sp o
  ∃ r : ArrRun, v.aq = u.aq ++ [r] ∧ r.op.op = o.op ∧ r.op.addr = o.addr ∧ r.op.count = o.count ∧ r.op.row0 = o.row0 ∧ r.op.acc = o.acc ∧
    r.next = 0 ∧ r.freeze = 0 ∧ r.rows = [] ∧ o.accept + 32 ≤ r.t ∧ u.free ≤ r.t ∧ v.free = r.leaves ∧
    v.tile = u.tile ∧ v.sums = u.sums ∧ v.ld = u.ld ∧ v.run = u.run ∧ v.dq = u.dq ∧ v.dFree = u.dFree

end Sys2Proof.Claims

/-! ## M slot -/

/-- R136, R137, R177, R228, R229: what the array and the drain-out unit accept, from registers read at issue, and when it begins. -/
def Sys2Proof.Claims.MatrixAcceptance : Prop :=
  AcceptsStream .mstream 2 8 (fun f => f.disp.toInt) ∧ AcceptsStream .mstreamT 3 8 (fun f => f.disp.toInt) ∧
  (∀ form : BitVec 3, form.toNat ≤ 4 →
    AcceptsStream (fun n f => .mdist n (distOf f form)) 5 form.toNat (fun f => (f.disp.setWidth 12).toInt) ∧
    AcceptsStream (fun n f => .mdistT n (distOf f form)) 6 form.toNat (fun f => (f.disp.setWidth 12).toInt)) ∧
  (∀ (s : State) (n : CoreId) (f : FmtML), s.live = true → f.fmt.toNat ≤ 8 → f.upd ≠ 3 → SlotReady s.dev n 2 (.mload n f) f.hd .normal →
    let c := s.dev.core n
    let a := (effAddr (c.sreg f.b.toNat) (c.sreg f.x.toNat) f.sh.toNat f.upd.toNat f.disp.toInt).toNat
    a % 128 = 0 → UnitRoom s n f.hd.set →
    Accepted s n (.mload n f) f.hd.set ⟨1, f.hd.set, c.cycle, false, a, 0, f.fmt.toNat, f.fmt.toNat, f.k2, f.klen.toNat + 1, f.nlen.toNat + 1, 1, 0, 0, 0,
      c.bundle, c.no⟩) ∧
  (∀ (s : State) (n : CoreId) (f : FmtMO), s.live = true → f.fmta.toNat ≤ 8 → f.fmtb.toNat ≤ 8 → f.stride ≠ 0 → f.rsv = 0 →
    SlotReady s.dev n 2 (.mstreamOs n f) f.hd .normal →
    let c := s.dev.core n
    (c.sreg f.a.toNat).toNat % 128 = 0 → (c.sreg f.b.toNat).toNat % 128 = 0 → 0 < (c.sreg f.k.toNat).toNat % 65536 → UnitRoom s n f.hd.set →
    Accepted s n (.mstreamOs n f) f.hd.set ⟨4, f.hd.set, c.cycle, f.acc, (c.sreg f.a.toNat).toNat, (c.sreg f.b.toNat).toNat, f.fmta.toNat, f.fmtb.toNat,
      false, 128, 128, (c.sreg f.k.toNat).toNat % 65536, (c.sreg f.r.toNat).toNat % 2048, f.stride.toNat, 8, c.bundle, c.no⟩) ∧
  (∀ (u : ArrUnit) (sp : Bool) (o : ArrOp), AcceptPlans u sp o) ∧
  (∀ (s : State) (n : CoreId) (f : FmtMR), s.live = true → f.ofmt.toNat ≤ 9 → f.stride ≠ 0 → SlotReady s.dev n 2 (.mdrain n f) f.hd .normal →
    let c := s.dev.core n
    let a := (c.sreg f.b.toNat + BitVec.ofInt 64 f.disp.toInt).toNat
    let k := (c.sreg f.n.toNat).toNat % 4096
    a % 128 = 0 → 0 < k → (c.unit (b2n f.hd.set)).dq.length < 3 →
    exec (.mdrain n f) s = .next (s.afterVMD n fun c => c.setUnit (b2n f.hd.set) { c.unit (b2n f.hd.set) with
      dq := (c.unit (b2n f.hd.set)).dq ++
        [⟨f.hd.set, c.cycle, a, (c.sreg f.r.toNat).toNat % 2048, k, f.ofmt.toNat, f.sat, f.sr, f.stride.toNat, c.bundle, c.no⟩] })) ∧
  (∀ (s : State) (n : CoreId) (f : FmtS0), s.live = true → f = ⟨⟨false, 0, false⟩, 0⟩ → SlotReady s.dev n 2 (.mnop n f) f.hd .normal →
    exec (.mnop n f) s = .next (s.afterVMD n id))

/-- R133, R137, R140 to R147: the array's events: an instruction begins, an MLOAD fills the stationary registers, a result row is written, a freeze
cycle is counted, a drain ends. -/
def Sys2Proof.Claims.MatrixEvents : Prop :=
  (∀ (s : State) (n : CoreId) (half : Bool) (r0 r : ArrRun) (q0 q : List ArrRun), s.live = true →
    let h := b2n half
    let d := s.dev.feed n r0.t
    ((s.dev.core n).unit h).aq = r0 :: q0 → ((d.core n).unit h).aq = r :: q → ((d.core n).unit h).taking = false →
    let out := d.modCore n fun c => c.setUnit h { c.unit h with aq := q }
    exec (.arrayInstructionBegin n half) s = .next (s.on fun _ =>
      if r.op.admitted (out.split n) ((d.core n).unit h).tile then out.beginRun n h r else out.arrayFault n h r.op 1 0 r.t r.op.addr)) ∧
  (∀ (d : Dev) (n h : Nat) (r : ArrRun),
    let u := ((d.beginRun n h r).core n).unit h
    let v := (d.core n).unit h
    (r.op.op = 1 → u.ld = some r ∧ u.run = v.run) ∧
    (r.op.op = 4 → u.run = v.run ++ [r] ∧ u.ld = v.ld) ∧
    (r.op.op ≠ 1 → r.op.op ≠ 4 → u.run = v.run ++ [{ r with cells := v.cellsFor (d.cols n) r.op }] ∧ u.ld = v.ld)) ∧
  (∀ (d : Dev) (n h cyc : Nat) (r : ArrRun),
    let v := (d.core n).unit h
    v.ld = some r → r.bad = none → r.waits = [] → r.leaves ≤ cyc → v.par.contains 2 = false →
    let u := ((d.endLoad n h cyc).core n).unit h
    u.ld = none ∧ u.tile = some (r.loaded (d.cols n)) ∧ u.run = v.run ∧ u.aq = v.aq ∧ (d.endLoad n h cyc).mem = d.mem ∧ (d.endLoad n h cyc).regs = d.regs) ∧
  (∀ (s : State) (n : CoreId) (half : Bool) (r : ArrRun) (rest : List ArrRun), s.live = true →
    let h := b2n half
    let d := s.dev.toResult n h 8
    let u := (d.core n).unit h
    let j := (r.op.row0 + r.next) % 2048
    u.run = r :: rest → (d.core n).freezeDue (r.due r.next) = false → u.drainDue r.op.no j = false → u.parityHit r.op = false →
    (r.op.acc = true → (d.core n).accBad (d.split n) h j = []) →
    exec (.resultRowWrite n half) s = .next (s.on fun _ => d.writeRow n h r rest)) ∧
  (∀ (d : Dev) (n h : Nat) (r : ArrRun) (rest : List ArrRun), r.op.op ≠ 4 → d.bit (F.MTX_CORE_CTRL_GATE_EN n) = false →
    d.writeRow n h r rest = d.modCore n fun c =>
      let sp := d.split n
      let j := (r.op.row0 + r.next) % 2048
      let c := c.accPut sp h j (r.rowOut (d.cols n) (r.streamSums (d.cols n) r.next) (c.accGet sp h j))
      let c := { c with accLast := Store.put (fun _ => 0) c.accLast (accBuf sp h j) (r.due r.next) }
      c.setUnit h { c.unit h with run := if r.next + 1 < r.op.resultRows then { r with next := r.next + 1 } :: rest else rest }) ∧
  (∀ (s : State) (n : CoreId) (half : Bool) (r : ArrRun) (i k : Nat) (ws : List (Nat × Nat)), s.live = true →
    s.dev.bit (F.MTX_CORE_CTRL_FREEZE_FAULT n) = false →
    (((s.dev.core n).unit (b2n half)).inArray.find? fun r => !r.waits.isEmpty) = some r → r.waits = (i, k) :: ws →
    ∃ t : Dev, exec (.freezeCycle n half .feeder) s = .next (s.on fun _ => t) ∧ t.fld (F.MTX_EVENT_FREEZE n) = 1 ∧ t.mem = s.dev.mem ∧
      { r with freeze := r.freeze + 1, waits := if k ≤ 1 then ws else (i, k - 1) :: ws, froze := true } ∈
        ((t.core n).unit (b2n half)).inArray) ∧
  (∀ (s : State) (n : CoreId) (half : Bool) (r : ArrRun) (rest : List ArrRun), s.live = true →
    s.dev.bit (F.MTX_CORE_CTRL_FREEZE_FAULT n) = false →
    let u := (s.dev.core n).unit (b2n half)
    u.run = r :: rest → u.drainDue r.op.no ((r.op.row0 + r.next) % 2048) = true → 16 < (u.run.map fun x => x.op.resultRows - x.next).sum →
    ∃ t : Dev, exec (.freezeCycle n half .drain) s = .next (s.on fun _ => t) ∧ t.fld (F.MTX_EVENT_FREEZE n) = 1 ∧
      t.fld (F.MTX_EVENT_DRAIN_FREEZE n) = 1 ∧ t.mem = s.dev.mem) ∧
  (∀ (s : State) (n : CoreId) (half : Bool), s.live = true → s.dev.bit (F.MTX_CORE_CTRL_FREEZE_FAULT n) = false →
    (s.dev.bit F.PWR_STATUS_HOLD = true ∨ s.dev.nowCc % 16 < s.dev.fld F.PWR_THROTTLE_LEVEL) →
    (s.dev.nowCc < (s.dev.core n).frozen.1 ∨ (s.dev.core n).frozen.2 ≤ s.dev.nowCc) →
    ∃ t : Dev, exec (.freezeCycle n half .power) s = .next (s.on fun _ => t) ∧ t.fld (F.MTX_EVENT_FREEZE n) = 1 ∧ t.mem = s.dev.mem) ∧
  (∀ (s : State) (n : CoreId) (half : Bool) (q : DrainOp) (rest : List DrainOp), s.live = true →
    let h := b2n half
    let u := (s.dev.core n).unit h
    u.dq = q :: rest → q.count ≤ 2048 → (∀ i < q.count, u.rowDue q.no ((q.row0 + i) % 2048) = false) →
    exec (.mdrainComplete n half) s = .next (s.on fun d =>
      let ts := (d.core n).readCycles (d.split n) h q q.count 0 (q.start u.dFree)
      let last := ts.getLastD (q.start u.dFree)
      ((d.modCore n fun c => c.setUnit h { c.unit h with dq := rest, dFree := last + 1 }).feed n (last + 4)).drainRows n h q ts 0 []))

/-- What the matrix instructions start, and what their later events do. Where the manual is silent the model chooses: log 15, 41, 42, 43, 167. -/
def Obligations.MatrixWork : Prop := Claims.MatrixAcceptance ∧ Claims.MatrixEvents

/-! ## D slot -/

/-- R235 to R240: copies, moves, channel operations and waits as they issue. -/
def Sys2Proof.Claims.DmaResults : Prop :=
  (∀ (s : State) (n : CoreId) (f : FmtDC), s.live = true → f.rsv = 0 → SlotReady s.dev n 3 (.dcopy n f) f.hd .normal →
    let c := s.dev.core n
    let set := s.dev.slotSet n f.hd
    let dst := (c.sreg f.d.toNat).toNat
    let src := (c.sreg f.s.toNat).toNat
    let k := (c.sreg f.n.toNat).toNat % 2 ^ 32
    let base := 4096 * s.dev.fld (ctxBase4k set n)
    let bound := 4096 * s.dev.fld (ctxBound4k set n)
    let start := max (slot6After c.cycle) c.copyFree
    src % 128 = 0 → dst % 128 = 0 → src + 128 * k ≤ bound → dst + 128 * k ≤ bound → 0 < k → c.copies.length < 5 →
    exec (.dcopy n f) s = .next (s.afterVMD n fun c =>
      { c with copies := c.copies ++ [⟨base + dst, base + src, k, set, c.bundle, start, c.no⟩], copyFree := start + 16 * ceilDiv k 16 })) ∧
  (∀ (s : State) (n : CoreId) (f : FmtDM) (a b : Nat), s.live = true → f.rsv = 0 → f.dspace ≠ 3 → f.sspace ≠ 3 →
    SlotReady s.dev n 3 (.dmove n f) f.hd .normal →
    let c := s.dev.core n
    let set := s.dev.slotSet n f.hd
    let dst := (c.sreg f.d.toNat).toNat
    let src := (c.sreg f.s.toNat).toNat
    let k := (c.sreg f.n.toNat).toNat % 2 ^ 32
    let ctx := s.dev.fld (ctxId set n)
    src % 64 = 0 → dst % 64 = 0 → k % 64 = 0 → 0 < k → s.dev.moveSide n set f.sspace.toNat src k = .ok a →
    s.dev.moveSide n set f.dspace.toNat dst k = .ok b → s.dev.descRoom ctx = true →
    ∃ q : Desc, q.kind = 1 ∧ q.ctx = ctx ∧ q.src = a ∧ q.dst = b ∧ q.len = k ∧ q.dc = some f.dc.toNat ∧ q.core = n.val ∧ q.set = set ∧ q.moved = 0 ∧
      exec (.dmove n f) s = .next (s.on fun d => (d.addDesc q).afterSlot n 3)) ∧
  (∀ (d : Dev) (q : Desc), (d.addDesc q).str.descs = d.str.descs ++ [{ q with id := d.str.nextDesc }]) ∧
  (∀ (s : State) (n : CoreId) (f : FmtDS) (i : Nat) (d : Dev), s.live = true → f.rsv = 0 → s.dev.regChan n f.hd f.h = some i →
    let a := s.dev.issuer n (s.dev.slotSet n f.hd)
    (SlotReady s.dev n 3 (.dstrPush n f) f.hd .normal → s.dev.chanPush i a (some f.dc.toNat) = .done d →
      exec (.dstrPush n f) s = .next (s.on fun _ => d.afterSlot n 3)) ∧
    (SlotReady s.dev n 3 (.dstrArm n f) f.hd .normal → f.dc = 0 → s.dev.chanArm i a = .done d →
      exec (.dstrArm n f) s = .next (s.on fun _ => d.afterSlot n 3)) ∧
    (SlotReady s.dev n 3 (.dstrCancel n f) f.hd .normal → f.dc = 0 → s.dev.chanCancel i = .done d →
      exec (.dstrCancel n f) s = .next (s.on fun _ => d.afterSlot n 3))) ∧
  (∀ (s : State) (n : CoreId) (f : FmtDW), s.live = true → f.rsv = 0 → (f.i = true → f.a = 0) → (f.i = false → f.imm = 0) →
    SlotReady s.dev n 3 (.dwait n f) f.hd .normal →
    let c := s.dev.core n
    0 ≤ (c.dcOf (s.dev.slotSet n f.hd) f.dc.toNat - (if f.i then f.imm else (c.sreg f.a.toNat).setWidth 32)).toInt →
    exec (.dwait n f) s = .next (s.afterVMD n id)) ∧
  (∀ (s : State) (n : CoreId) (f : FmtDF) (i : Nat), s.live = true → f.rsv = 0 → f.flag.toNat < 3 → SlotReady s.dev n 3 (.dflagw n f) f.hd .normal →
    s.dev.regChan n f.hd f.h = some i → s.dev.chanFlag i f.flag.toNat f.slot.toNat = some f.val →
    exec (.dflagw n f) s = .next (s.afterVMD n id)) ∧
  (∀ (s : State) (n : CoreId) (f : FmtS0), s.live = true → f = ⟨⟨false, 0, false⟩, 0⟩ → SlotReady s.dev n 3 (.dnop n f) f.hd .normal →
    exec (.dnop n f) s = .next (s.afterVMD n id))

/-- R235, R236: a copy whose ranges do not overlap leaves at its destination what its source held, and every other byte as it was. -/
def Sys2Proof.Claims.CopiesMoveBytes : Prop :=
  ∀ (s : State) (n : CoreId) (q : Copy) (rest : List Copy), s.live = true → (s.dev.core n).copies = q :: rest →
    (q.dst + 128 * q.words ≤ q.src ∨ q.src + 128 * q.words ≤ q.dst) →
    (∀ i < q.words, s.dev.segsReady n (q.src + 128 * i) 128 = true ∧ s.dev.segsReady n (q.dst + 128 * i) 128 = true ∧
      s.dev.zeroing n (q.src + 128 * i) 128 = false) →
    (s.dev.core n).badCw = [] →
    ∃ t : Dev, exec (.dcopyComplete n) s = .next (s.on fun _ => t) ∧ (t.core n).copies = rest ∧ t.regs = s.dev.regs ∧
      ∀ a, t.mb a = if scpWin n + q.dst ≤ a ∧ a < scpWin n + q.dst + 128 * q.words then s.dev.mb (a - q.dst + q.src) else s.dev.mb a

/-- R199: running free, an instruction of the V, M or D slot enters its engine's queue of 16, its scalar sources captured, and every engine performs
the head of its queue once nothing makes it wait. -/
def Sys2Proof.Claims.FreeRunningEngines : Prop :=
  (∀ (s : State) (n : CoreId) (f : FmtVA), s.live = true → vaRsv f [7, 8, 9, 10] true true false false = false →
    SlotQueues s.dev n 1 (.vadd n f) f.hd → exec (.vadd n f) s = .next (s.on fun d => (d.modCore n fun c => c.enqueue 1 (.vadd n f)).afterSlot n 1)) ∧
  (∀ (s : State) (n : CoreId) (f : FmtVM), s.live = true → f.rsv = 0 → f.upd ≠ 3 → SlotQueues s.dev n 1 (.vst n f) f.hd →
    exec (.vst n f) s = .next (s.on fun d => (d.modCore n fun c => c.enqueue 1 (.vst n f)).afterSlot n 1)) ∧
  (∀ (s : State) (n : CoreId) (f : FmtMS), s.live = true → msRsv f = false → SlotQueues s.dev n 2 (.mstream n f) f.hd →
    exec (.mstream n f) s = .next (s.on fun d => (d.modCore n fun c => c.enqueue 2 (.mstream n f)).afterSlot n 2)) ∧
  (∀ (s : State) (n : CoreId) (f : FmtDC), s.live = true → f.rsv = 0 → SlotQueues s.dev n 3 (.dcopy n f) f.hd →
    exec (.dcopy n f) s = .next (s.on fun d => (d.modCore n fun c => c.enqueue 3 (.dcopy n f)).afterSlot n 3)) ∧
  (∀ (c : CoreSt) (slot : Nat) (i : Instr), (c.enqueue slot i).queue slot = c.queue slot ++ [⟨i, c.s, c.p, c.bundle, c.no⟩]) ∧
  (∀ (s : State) (n : CoreId) (f : FmtDC) (q : FreeOp) (rest : List FreeOp), s.live = true →
    let c := s.dev.core n
    let set := s.dev.slotSet n f.hd
    let at_ := c.engineBegin 3 q
    let dst := (at_.sreg f.d.toNat).toNat
    let src := (at_.sreg f.s.toNat).toNat
    let k := (at_.sreg f.n.toNat).toNat % 2 ^ 32
    let bound := 4096 * s.dev.fld (ctxBound4k set n)
    c.queue 3 = q :: rest → q.instr = .dcopy n f → f.rsv = 0 → c.faults = [] → src % 128 = 0 → dst % 128 = 0 → src + 128 * k ≤ bound →
    dst + 128 * k ≤ bound → 0 < k → c.copies.length < 5 →
    let t := (s.engine n 3).dev.core n
    t.queue 3 = rest ∧ t.copies.length = c.copies.length + 1 ∧ t.perf = none ∧ t.s = c.s ∧ t.bundle = c.bundle)

/-- What the D-slot instructions do, what a copy moves, and how the engines of a core run free. Where the manual is silent the model chooses: log 17, 35, 192. -/
def Obligations.DmaWork : Prop := Claims.DmaResults ∧ Claims.CopiesMoveBytes ∧ Claims.FreeRunningEngines

namespace Sys2Proof.Claims

/-! ## Terms of the statements that follow -/

/-- A command changes the device alone, and leaves it as P says. -/
def Gives (i : Instr) (s : State) (P : Dev → Prop) : Prop := ∃ t : Dev, exec i s = .next { s with dev := t } ∧ P t

/-- The first k bytes of a list stand at an offset of memory, and every other byte is as it was. -/
def Stored (d t : Dev) (a : Nat) (bs : List Byte) : Prop :=
  ∀ q, t.mb q = if a ≤ q ∧ q < a + bs.length then bs.getD (q - a) 0 else d.mb q

/-- A cleared one-bit flag of a mask. -/
def without (m k : Nat) : Nat := if m / 2 ^ k % 2 = 1 then m - 2 ^ k else m

/-- No error keeps HBM lines from being served (R314, R319, R324). -/
def LinesServe (d : Dev) (a n : Nat) : Prop := ∀ l ∈ linesOf a n,
  d.stackReady (d.stackOf (64 * l)) = true ∧ d.lineErrs l = [] ∧ Store.get (fun _ => 0) d.keel.linkBad (d.stackOf (64 * l)) = 0

/-- A request is taken from its home, and a core's S slot is sent the answer v. -/
def Answered (d t : Dev) (r : Req) (v : Word) : Prop :=
  t.home.reqs = d.home.reqs.filter (·.id ≠ r.id) ∧
  (r.src < 288 → ∃ line, t.home.resps = d.home.resps ++ [⟨r.id, r.src, r.reg, r.acq, v, false, r.addr, line, r.kern, r.bundle, r.stale⟩])

/-- Every GiB of a range may be granted to a job (R390). -/
def Grantable (d : Dev) (gibs : List Nat) (job : Nat) : Prop :=
  job ≠ 0xFFFF ∧ ∀ g ∈ gibs, g < 384 ∧ (d.bit (F.SEC_GIB_CLEAN g) = true ∨ d.fld (F.SEC_GIB_OWNER g) = job)

/-- They then belong to the job, and are clean no longer. -/
def Granted (t : Dev) (gibs : List Nat) (job : Nat) : Prop := ∀ g ∈ gibs, t.fld (F.SEC_GIB_OWNER g) = job ∧ t.fld (F.SEC_GIB_CLEAN g) = 0

end Sys2Proof.Claims

/-! ## Commands of a core -/

/-- R191, R198, R201, R202, R218: the end of a kernel with its completion store, an answer that carries an error, one that carries a value, and a
flag that is read again. -/
def Obligations.CoreCompletions : Prop :=
  (∀ (s : State) (n : CoreId) (l : Launch), s.live = true → s.dev.kernelDone n = true → s.dev.split n = false → (s.dev.core n).running = [(0, l)] →
    l.doneAddr ≠ 0 → l.doneAddr < 2 ^ 48 → l.doneAddr / 2 ^ 44 = s.dev.slotNo →
    let bad := ((s.dev.core n).fault 0).isSome
    let follows := s.dev.relNeeds n 0 (s.dev.core n).no
    Gives (.endComplete n) s fun t =>
      t.home.reqs = s.dev.home.reqs ++ [{ coreReq s.dev n 0 (l.doneAddr % 2 ^ 44)
        (.store (leBytes 8 (l.doneValue % 2 ^ 63 + if bad then 2 ^ 63 else 0))) none false with
        id := s.dev.home.nextId, need := follows.1, needDesc := follows.2, rel := true }] ∧
      t.coreState n = (if bad then 4 else s.dev.idleState n) ∧ (t.core n).running = [] ∧ (t.core n).ended = false ∧ t.mem = s.dev.mem) ∧
  (∀ (s : State) (n : CoreId) (r : Resp), s.live = true → s.dev.home.resps.find? (fun r => ofCore n r.src && r.err) = some r →
    s.dev.split n = false → s.dev.running n = true → (s.dev.core n).open_ r.kern = true → (s.dev.core n).fault (r.src % 2) = none →
    Gives (.asyncFault n) s fun t =>
      (∃ more, t.home.resps = s.dev.home.resps.erase r ++ more) ∧ t.coreState n = 4 ∧ (t.core n).ended = true ∧
      ∃ f : FaultRec, (t.core n).fault (r.src % 2) = some f ∧ f.source = 3 ∧ f.kind = 6 ∧ f.async = true ∧ f.bundle = r.bundle ∧ f.addr = r.addr) ∧
  (∀ (s : State) (n : CoreId) (line : List Byte) (r : Resp) (q : Nat), s.live = true →
    s.dev.home.resps.find? (fun r => ofCore n r.src && !r.err) = some r → (s.dev.core n).kern = r.kern → r.acq = false → r.reg = some q →
    Gives (.scoreboardArrival n line) s fun t =>
      t.home.resps = s.dev.home.resps.erase r ∧ t.mem = s.dev.mem ∧ t.regs = s.dev.regs ∧
      (∀ m, (t.core n).sreg m = if m = q ∧ q ≠ 0 then r.value else (s.dev.core n).sreg m) ∧
      (t.core n).score = (s.dev.core n).score.filter (·.req ≠ r.id)) ∧
  (∀ (s : State) (n : CoreId) (line : List Byte) (r : Req) (q : Nat), s.live = true →
    s.dev.home.resps.find? (fun r => ofCore n r.src && !r.err) = none → s.dev.home.reqs.find? (fun r => ofCore n r.src && r.away) = some r →
    (s.dev.core n).kern = r.kern → r.acq = false → r.reg = some q →
    Gives (.scoreboardArrival n line) s fun t =>
      t.home.reqs = s.dev.home.reqs.filter (·.id ≠ r.id) ∧ t.mem = s.dev.mem ∧ t.regs = s.dev.regs ∧
      (∀ m, (t.core n).sreg m = if m = q ∧ q ≠ 0 then lineValue r line else (s.dev.core n).sreg m)) ∧
  (∀ (s : State) (n : CoreId) (q : Acq) (p : Nat), s.live = true → (s.dev.core n).acq = some q → q.req = none →
    let k := if q.wide then 8 else 4
    let d := s.dev.stallFor n 32
    d.place n q.set q.space q.addr k true = .here p → Clean (inSlot d n) n p k →
    exec (.flagAcqReread n) s = .next (s.on fun _ =>
      ((inSlot d n).stallFor n (frameWait 2 (d.core n).cycle + 8 + 2 * farthest 2 p k)).acqValue n q (extend q.sx ((inSlot d n).scpRead n p k)))) ∧
  (∀ (s : State) (n : CoreId) (q : Acq) (g : Nat), s.live = true → (s.dev.core n).acq = some q → q.req = none →
    let k := if q.wide then 8 else 4
    let d := s.dev.stallFor n 32
    d.place n q.set q.space q.addr k true = .there g →
    exec (.flagAcqReread n) s = .next (s.on fun _ =>
      (d.issue (coreReq d n q.set g (.load k q.sx) (some q.reg) true)).modCore n fun c => { c with acq := some { q with req := some d.home.nextId } })) ∧
  (∀ (d : Dev) (n : Nat) (q : Acq) (v : Word),
    let w := if q.wide then v else BitVec.ofNat 64 (v.toNat % 2 ^ 32)
    let ok := if q.cond = 0 then true else if q.cond = 1 then w == q.old else if q.cond = 2 then decide (q.old.toNat ≤ w.toNat) else w != q.old
    (ok = true → d.acqValue n q v = d.acqDone n q v) ∧
    (ok = false → d.acqValue n q v = d.modCore n fun c => { c with acq := some { q with req := none } }))

/-- R194 to R197: outside split mode an image loads into the idle half of the buffer, and the next command launches once it has: the core runs from
bundle 0, and its first eight argument registers hold the record's. Where the manual is silent the model chooses: log 18, 59. -/
def Obligations.Launches : Prop :=
  (∀ (s : State) (n : CoreId) (i : Nat) (l : Launch) (d d' : Dev) (peer : Option (List Byte)) (bs : List Byte), s.live = true →
    (s.dev.core n).loaded = false → s.dev.nextCommand n 0 = (d, some (i, l, false)) → l.resident = false → d.imageWaits l = false →
    d.brdRead (d.fld (ctxJob 0 n)) l.image (32 * l.bundles) peer = (d', some bs) →
    Gives (.imageLoadComplete n peer) s fun t =>
      (t.core n).loaded = true ∧ Store.get (fun _ => (0, 0, [])) (t.core n).images (d'.core n).idle = (l.image, l.bundles, bs) ∧
      (t.core n).active = (d'.core n).active ∧ t.mem = d'.mem ∧ t.regs = d'.regs) ∧
  (∀ (s : State) (n : CoreId) (i : Nat) (l : Launch) (d : Dev), s.live = true → s.dev.mayLaunch n = true → s.dev.split n = false →
    s.dev.nextCommand n 0 = (d, some (i, l, false)) → d.split n = false → d.bit (ctxValid 0 n) = true → l.merged = false →
    (l.resident = true ∨ ((d.core n).loaded = true ∧ (Store.get (fun _ => (0, 0, [])) (d.core n).images (d.core n).idle).2.2 ≠ [])) →
    Gives (.commandLaunch n) s fun t =>
      t.coreState n = (if d.bit (F.SCP_CORE_CTRL_FREE_RUN n) then 3 else 2) ∧ (t.core n).running = [(0, l)] ∧ (t.core n).bundle = 0 ∧
      (t.core n).bundles = l.bundles ∧ (t.core n).active = (d.core n).idle ∧ (t.core n).cycle % 8 = 0 ∧ (d.core n).cycle ≤ (t.core n).cycle ∧
      (∀ j < 8, (t.core n).sreg (1 + j) = l.args.getD j 0) ∧ (t.chan i).launch = (d.chan i).launch + 1 ∧ t.mem = d.mem)

/-- R123 to R126, R129, R155: the scratchpad's own work and the writes of a core's control registers. Where the manual is silent the model chooses: log 61, 166, 170. -/
def Obligations.ScratchpadWork : Prop :=
  (∀ (s : State) (n : CoreId) (bank : Fin 32) (w : Nat), s.live = true → (s.dev.core n).fixing.find? (fun w => w / 16 % 32 == bank.val) = some w →
    exec (.eccWriteback n bank) s = .next (s.on fun d => d.modCore n fun c =>
      { c with fixing := c.fixing.filter (· ≠ w), badCw := c.badCw.filter fun q => q.1 ≠ w || q.2 })) ∧
  (∀ (s : State) (n : CoreId) (bank : Fin 32), s.live = true → s.dev.bit (F.SCP_CORE_CTRL_SCRUB_EN n) = true →
    let r := Store.get (fun _ => 0) (s.dev.core n).scrubRow bank.val
    let a := Store.get (fun _ => 0) (s.dev.core n).scrubRow 32
    bitOf (s.dev.fld (F.SCP_PWR_SEG_READY n)) (r / 256) = true → Clean s.dev n ((r * 32 + bank.val) * 128) 128 →
    (s.dev.core n).accBad false 0 a = [] →
    exec (.scrubRead n bank) s = .next (s.on fun d =>
      (if bank.val = 0 then d.modCore n fun c => { c with scrubRow := Store.put (fun _ => 0) c.scrubRow 32 ((a + 1) % 2048) } else d).modCore n fun c =>
        { c with scrubRow := Store.put (fun _ => 0) c.scrubRow bank.val ((r + 1) % 1536) })) ∧
  (∀ (s : State) (n : CoreId) (k : Fin 6), s.live = true → (s.dev.core n).waking.any (·.1 == k.val) = false →
    let off := s.dev.fld (F.SCP_PWR_SEG_OFF n)
    let ready := s.dev.fld (F.SCP_PWR_SEG_READY n)
    (bitOf off k.val = false → Gives (.segPowerDown fwTag n k) s fun t =>
      t.fld (F.SCP_PWR_SEG_OFF n) = off + 2 ^ k.val ∧ t.fld (F.SCP_PWR_SEG_READY n) = without ready k.val ∧ t.mem = s.dev.mem ∧
      t.cores = s.dev.cores) ∧
    (bitOf off k.val = true → Gives (.segWake fwTag n k) s fun t =>
      t.fld (F.SCP_PWR_SEG_OFF n) = off - 2 ^ k.val ∧ t.fld (F.SCP_PWR_SEG_READY n) = ready ∧ t.fld (F.SCP_CORE_STATUS_WAKING n) = 1 ∧
      (t.core n).waking = (s.dev.core n).waking ++ [(k.val, s.dev.nowCc + 4096, none)] ∧ t.mem = s.dev.mem)) ∧
  (∀ (s : State) (n : CoreId) (k : Fin 6) (cyc : Nat) (held : Option Bool), s.live = true →
    (s.dev.core n).waking.find? (·.1 == k.val) = some (k.val, cyc, held) → held ≠ some true →
    Gives (.segWakeComplete n k) s fun t =>
      bitOf (t.fld (F.SCP_PWR_SEG_READY n)) k.val = true ∧ (∀ w ∈ (t.core n).waking, w.1 ≠ k.val) ∧
      ∀ a, t.mb a = if scpWin n + k.val * 0x100000 ≤ a ∧ a < scpWin n + k.val * 0x100000 + 0x100000 then 0 else s.dev.mb a) ∧
  (∀ (s : State) (n : CoreId) (v : Word), s.live = true → s.dev.enHeld = false →
    Gives (.scInv fwTag n v) s fun t =>
      (t.core n).sc = [] ∧ (t.core n).scBad = [] ∧ t.bit (F.SCP_CORE_CTRL_CORE_EN n) = v.getLsbD 0 ∧
      t.bit (F.SCP_CORE_CTRL_SCRUB_EN n) = v.getLsbD 3 ∧ t.bit (F.SCP_CORE_CTRL_SLOT_FAULT n) = v.getLsbD 4 ∧ t.mem = s.dev.mem) ∧
  (∀ (s : State) (n : CoreId) (v : Word), s.live = true → s.dev.running n = false → s.dev.bit (ctxValid 1 n) = true →
    Gives (.splitWrite n v) s fun t =>
      t.split n = v.getLsbD 0 ∧ t.bit (F.MTX_CORE_CTRL_GATE_EN n) = v.getLsbD 2 ∧ t.bit (F.MTX_CORE_CTRL_FREEZE_FAULT n) = v.getLsbD 3 ∧
      t.mem = s.dev.mem)

/-! ## Requests -/

/-- R303, R304, R307, R325: a request at its HBM home: a load reads, a store writes its bytes alone, an atomic writes what R219 gives. -/
def Sys2Proof.Claims.HbmRequests : Prop :=
  ∀ (s : State) (i : Nat) (r : Req), s.live = true → s.dev.performable i = some r → 0 < r.op.len → r.addr + r.op.len ≤ hbmSize →
    s.dev.repairing r.addr r.op.len = false → LinesServe s.dev r.addr r.op.len →
    let old := s.dev.rd r.addr r.op.len
    (∀ k sx, r.op = .load k sx → Gives (.hbmRequest i) s fun t => t.mem = s.dev.mem ∧ Answered s.dev t r (extend sx old)) ∧
    (∀ bs, r.op = .store bs → Gives (.hbmRequest i) s fun t => Stored s.dev t r.addr bs ∧ Answered s.dev t r 0) ∧
    (∀ aop w fp sv sc, r.op = .atomic aop w fp sv sc → Gives (.hbmRequest i) s fun t =>
      Stored s.dev t r.addr (leBytes (if w then 8 else 4) (atomicNew aop w fp (leNat old) sv sc)) ∧ Answered s.dev t r (extend false old))

/-- R114, R117, R118, R296: a request at another core's port that its tag, the hole and the segments admit, and a load of a register. -/
def Sys2Proof.Claims.PortRequests : Prop :=
  (∀ (s : State) (i : Nat) (r : Req) (n : CoreId) (off : Nat), s.live = true → s.dev.performable i = some r → 0 < r.op.len →
    r.addr = scpWin n + off → off + r.op.len ≤ 0x600000 → s.dev.portCheck n r.tag off r.op.len true = none → (s.dev.core n).badCw = [] →
    s.dev.portBusy r.addr r.op.len = false → s.dev.portFull n r 1 = false →
    let old := s.dev.rd r.addr r.op.len
    (∀ k sx, r.op = .load k sx → Gives (.networkPortRequest i) s fun t => t.mem = s.dev.mem ∧ Answered s.dev t r (extend sx old)) ∧
    (∀ bs, r.op = .store bs → Gives (.networkPortRequest i) s fun t => Stored s.dev t r.addr bs ∧ Answered s.dev t r 0) ∧
    (∀ aop w fp sv sc, r.op = .atomic aop w fp sv sc → Gives (.networkPortRequest i) s fun t =>
      Stored s.dev t r.addr (leBytes (if w then 8 else 4) (atomicNew aop w fp (leNat old) sv sc)) ∧ Answered s.dev t r (extend false old))) ∧
  (∀ (s : State) (i : Nat) (r : Req) (off : Nat) (sx : Bool) (d : Dev) (w : Word), s.live = true → s.dev.performable i = some r → r.tag = 0xFFFF →
    r.addr = regBase + off → off < 0x1000000 → off % 8 = 0 → r.op = .load 8 sx → s.dev.readReg off = (d, some w) →
    Gives (.networkPortRequest i) s fun t => Answered d t r (extend sx (leBytes 8 w.toNat)) ∧ t.mem = d.mem ∧ t.regs = d.regs)

/-- What requests do at the stacks and over the ports. Where the manual is silent the model chooses: log 139, 164, 165. -/
def Obligations.HomeRequests : Prop := Claims.HbmRequests ∧ Claims.PortRequests

/-- R298 to R300: requests of other devices that pass their checks wait at their home; a request of this device to a far aperture leaves for the
device the aperture names. -/
def Obligations.RemoteRequests : Prop :=
  (∀ (s : State) (x : BitVec 7) (y : BitVec 6) (t : Tag) (a : BitVec 44) (q : Access), s.live = true →
    (t = fwTag ∨ s.dev.jobs.contains t.toNat = true) → regionOf a.toNat 1 ≠ .far →
    Gives (.peerRequest x y t a q) s fun d =>
      d.home.reqs = s.dev.home.reqs ++ [{ accReq x.toNat y.toNat t.toNat a.toNat q with id := s.dev.home.nextId }] ∧
      d.mem = s.dev.mem ∧ d.regs = s.dev.regs) ∧
  (∀ (s : State) (x : BitVec 7) (y : BitVec 6) (t : Tag) (k : Fin 64) (a : BitVec 34) (q : Access), s.live = true →
    let at_ := s.dev.fld (F.DEV_WIN_BASE_BASE k.val) * 65536 + a.toNat
    let op := (accReq x.toNat y.toNat t.toNat at_ q).op
    at_ < 2 ^ 44 → s.dev.bit (F.DEV_WIN_CTL_VALID k.val) = true →
    s.dev.fld (F.DEV_WIN_CTL_X0 k.val) ≤ x.toNat → x.toNat ≤ s.dev.fld (F.DEV_WIN_CTL_X1 k.val) →
    s.dev.fld (F.DEV_WIN_CTL_Y0 k.val) ≤ y.toNat → y.toNat ≤ s.dev.fld (F.DEV_WIN_CTL_Y1 k.val) → s.dev.winRight k.val op = true →
    a.toNat + op.len ≤ 2 ^ s.dev.fld (F.DEV_WIN_CTL_SIZE_LOG2 k.val) → (t.toNat = s.dev.fld (F.DEV_WIN_CTL_JOB k.val) ∨ t = fwTag) →
    (t = fwTag ∨ s.dev.jobs.contains t.toNat = true) → s.dev.farPort t.toNat at_ op.len = none →
    Gives (.farRequest x y t k a q) s fun d =>
      d.home.reqs = s.dev.home.reqs ++ [{ accReq x.toNat y.toNat t.toNat at_ q with id := s.dev.home.nextId }] ∧
      d.mem = s.dev.mem ∧ d.regs = s.dev.regs) ∧
  (∀ (s : State) (i : Nat) (r : Req) (p : Nat), s.live = true → s.dev.performable i = some r → r.addr < 2 ^ 44 → r.src < 288 →
    farBase ≤ r.addr → r.addr < farBase + 0x10000000000 →
    let j := (r.addr - farBase) / 2 ^ 34
    let x := s.dev.fld (F.DEV_APER_X j)
    let y := s.dev.fld (F.DEV_APER_Y j)
    s.dev.bit (F.DEV_APER_VALID j) = true → s.dev.inRegion x y = true → s.dev.routePort x y = some p →
    Gives (.apertureAccess i) s fun t =>
      t.home.reqs = s.dev.home.reqs.filter (·.id ≠ r.id) ++ [{ r with addr := s.dev.slotNo * 2 ^ 44 + r.addr, away := true }] ∧
      (t.port p).lanes = (s.dev.port p).lanes ++ [⟨1, 8, r.op.data, 0, 64 + (r.op.data.length + 63) / 64 * 64,
        some (some (s.dev.fld (F.DEV_APER_WIN j)), (r.addr - farBase) % 2 ^ 34)⟩] ∧ t.mem = s.dev.mem)

/-- R301, R331, R364, R390: a write with VALID = 1 of a grant register over GiB that are clean or the job's own: the register holds what was
written, and the GiB are the job's. -/
def Obligations.Grants : Prop :=
  (∀ (s : State) (k : Fin 64) (v : Word), s.live = true →
    let v' := v ||| 0x8000000000000000
    let base := s.dev.fld (F.DEV_WIN_BASE_BASE k.val) * 65536
    let size := 2 ^ (F.DEV_WIN_CTL_SIZE_LOG2 k.val).of v'
    let job := (F.DEV_WIN_CTL_JOB k.val).of v'
    16 ≤ (F.DEV_WIN_CTL_SIZE_LOG2 k.val).of v' → (F.DEV_WIN_CTL_SIZE_LOG2 k.val).of v' ≤ 34 → base + size ≤ hbmSize →
    Grantable s.dev (gibsOf base size) job → ∀ i, (i = Instr.windowWrite fwTag k v ∨ i = Instr.grantWrite fwTag (.win k) v) →
    Gives i s fun t => t.bit (F.DEV_WIN_CTL_VALID k.val) = true ∧ t.fld (F.DEV_WIN_CTL_JOB k.val) = job ∧
      t.fld (F.DEV_WIN_CTL_SIZE_LOG2 k.val) = (F.DEV_WIN_CTL_SIZE_LOG2 k.val).of v' ∧ Granted t (gibsOf base size) job ∧ t.mem = s.dev.mem) ∧
  (∀ (s : State) (i : Fin 16) (v : Word), s.live = true →
    let first := (F.KEL_JR_FIRST_GIB i.val).of v
    let last := (F.KEL_JR_LAST_GIB i.val).of v
    let gibs := (List.range (last + 1 - first)).map (first + ·)
    first < 384 → last < 384 → Grantable s.dev gibs ((F.KEL_JR_JOB i.val).of v) →
    Gives (.grantWrite fwTag (.jr i) v) s fun t => t.bit (F.KEL_JR_VALID i.val) = true ∧ t.fld (F.KEL_JR_JOB i.val) = (F.KEL_JR_JOB i.val).of v ∧
      t.fld (F.KEL_JR_FIRST_GIB i.val) = first ∧ t.fld (F.KEL_JR_LAST_GIB i.val) = last ∧ Granted t gibs ((F.KEL_JR_JOB i.val).of v)) ∧
  (∀ (s : State) (n : CoreId) (set : Fin 2) (v : Word), s.live = true → s.dev.running n = false → s.dev.setZeroing n set.val = false →
    let gibs := gibsOf (s.dev.setHbm n set.val).1 (s.dev.setHbm n set.val).2
    Grantable s.dev gibs ((ctxJob set.val n).of v) →
    Gives (.grantWrite fwTag (.ctx n set) v) s fun t => t.bit (ctxValid set.val n) = true ∧ t.fld (ctxJob set.val n) = (ctxJob set.val n).of v ∧
      t.fld (ctxId set.val n) = (ctxId set.val n).of v ∧ Granted t gibs ((ctxJob set.val n).of v) ∧
      (let r := if set.val = 0 then R.SCP_CTX0 n.val else R.SCP_CTX1 n.val
       t.reg r ≠ s.dev.reg r → (t.core n).sc = [])) ∧
  (∀ (s : State) (i : Fin 256) (v : Word), s.live = true →
    let v' := v ||| 0x8000000000000000
    let base := s.dev.fld (F.ETH_MR_BASE_BASE i.val) * 64
    let size := 2 ^ (F.ETH_MR_CTL_SIZE_LOG2 i.val).of v'
    12 ≤ (F.ETH_MR_CTL_SIZE_LOG2 i.val).of v' → (F.ETH_MR_CTL_SIZE_LOG2 i.val).of v' ≤ 34 → base + size ≤ hbmSize →
    Grantable s.dev (gibsOf base size) ((F.ETH_MR_CTL_JOB i.val).of v') →
    Gives (.grantWrite fwTag (.mr i) v) s fun t => t.bit (F.ETH_MR_CTL_VALID i.val) = true ∧
      t.fld (F.ETH_MR_CTL_JOB i.val) = (F.ETH_MR_CTL_JOB i.val).of v' ∧ Granted t (gibsOf base size) ((F.ETH_MR_CTL_JOB i.val).of v'))


namespace Sys2Proof.Claims

/-- The state a command answers. -/
def GivesS (i : Instr) (s : State) (P : State → Prop) : Prop := ∃ t : State, exec i s = .next t ∧ t.pending = s.pending ∧ P t

/-- Everything volatile is gone: memory, registers and cores read as after reset. -/
def Blank (t : Dev) : Prop := t.mem = [] ∧ t.regs = [] ∧ t.cores = []

/-- No version advance and no APPEND is under way. -/
def Settled (s : State) : Prop := s.dev.sec.op = none ∧ s.dev.nvs.op = none

end Sys2Proof.Claims

/-! ## Register writes -/

/-- R7, R8, R296, R449: every REGISTER_WRITE completes. Firmware's aligned 8-byte write of an assigned offset has its block's effect; in the DEV block
a register without behaviour of its own has its RW bits replaced and the W1C bits written 1 cleared. A job's write of STR_CHAN_CMD is its channel
command. Every other write changes nothing there, and the refusal is recorded with CAUSE 1. -/
def Obligations.RegisterWrites : Prop :=
  (∀ (s : State) (off : BitVec 24) (v : Word) (r : RegRow) (k : Nat), s.live = true → off.toNat % 8 = 0 → s.dev.regAt off.toNat = some (r, k) →
    (off.toNat / 0x10000 = 0xE ∧ (off.toNat < R.DEV_WIN_CTL 0 ∨ R.DEV_WIN_CTL 63 < off.toNat ∨ off.toNat % 16 = 0)) →
    Gives (.registerWrite fwTag off 8 v) s fun t =>
      (∀ j < 64, (t.reg k).getLsbD j = (if r.w1c.testBit j && v.getLsbD j then false
        else if r.rw.testBit j then v.getLsbD j else (s.dev.reg k).getLsbD j)) ∧
      (∀ q, q ≠ k → t.reg q = s.dev.reg q) ∧ t.mem = s.dev.mem ∧ t.cores = s.dev.cores) ∧
  (∀ (s : State) (off : BitVec 24) (v : Word), s.live = true → off.toNat % 8 = 0 → (s.dev.regAt off.toNat).isSome = true →
    exec (.registerWrite fwTag off 8 v) s = .next (s.writeBlock off.toNat v.toNat)) ∧
  (∀ (s : State) (t : Tag) (off : BitVec 24) (v : Word), s.live = true → t ≠ fwTag → off.toNat = R.STR_CHAN_CMD →
    exec (.registerWrite t off 8 v) s = .next (s.on fun d => d.chanCmd t.toNat v.toNat)) ∧
  (∀ (s : State) (t : Tag) (off : BitVec 24) (width : Nat) (v : Word), s.live = true →
    ((t ≠ fwTag ∧ off.toNat ≠ R.STR_CHAN_CMD) ∨ width ≠ 8 ∨ off.toNat % 8 ≠ 0 ∨ s.dev.regAt off.toNat = none) →
    Gives (.registerWrite t off width v) s fun d =>
      d.fld F.DEV_WIN_FAULT_CAUSE = 1 ∧ d.fld F.DEV_WIN_FAULT_ADDR = regBase + off.toNat ∧ d.bit F.DEV_WIN_EVENT_UNMAPPED = true ∧
      d.mem = s.dev.mem ∧ d.cores = s.dev.cores)

/-! ## Supplies and start -/

/-- R414, R415, R425, R433, R464: what each change of a supply leaves. What is volatile is lost; what is persistent stays, but that an APPEND on
its way may have reached its first copy or both. Where the manual is silent the model chooses: log 5, 128, 155. -/
def Obligations.SupplyChanges : Prop :=
  (∀ (s : State) (slot : Fin 16), s.dev.pwr.v48 = false → GivesS (.supplyValid true slot) s fun t =>
    t.dev.pwr.v48 = true ∧ t.dev.pwr.v33 = s.dev.pwr.v33 ∧ t.dev.pwr.die = false ∧ Blank t.dev ∧ t.persist = s.persist) ∧
  (∀ (s : State) (slot : Fin 16), s.dev.pwr.v33 = false → GivesS (.supplyValid false slot) s fun t =>
    t.dev.pwr.v33 = true ∧ t.dev.pwr.v48 = s.dev.pwr.v48 ∧ t.dev.pwr.die = false ∧ t.dev.mgmt.slot = slot.val ∧ Blank t.dev ∧
    t.persist = s.persist) ∧
  (∀ (s : State) (slot : Fin 16), s.dev.pwr.v48 = false → s.dev.pwr.v33 = false → GivesS (.auxStandby slot) s fun t =>
    t.dev.pwr.v33 = true ∧ t.dev.pwr.v48 = false ∧ t.dev.mgmt.slot = slot.val ∧ t.live = false ∧ t.persist = s.persist) ∧
  (∀ (s : State) (main : Bool) (blown : Nat) (stage : Fin 4), Settled s → GivesS (.powerFailure main blown stage) s fun t =>
    (if main then t.dev.pwr.v48 = false else t.dev.pwr.v33 = false) ∧ t.live = false ∧ Blank t.dev ∧ t.persist = s.persist) ∧
  (∀ (s : State) (main : Bool) (blown : Nat) (o : NvsOp), s.dev.sec.op = none → s.dev.nvs.op = some o → o.op = 1 →
    (∀ c < 2, ((s.log o.cls c).blocks.getLast?.getD []).length < blockRecs o.cls) →
    GivesS (.powerFailure main blown 0) s (fun t => t.persist = s.persist) ∧
    GivesS (.powerFailure main blown 2) s (fun t => o.entry ∈ (t.log o.cls 0).recs ∧ t.log o.cls 1 = s.log o.cls 1) ∧
    GivesS (.powerFailure main blown 3) s (fun t => o.entry ∈ (t.log o.cls 0).recs ∧ o.entry ∈ (t.log o.cls 1).recs)) ∧
  (∀ (s : State) (blown : Nat) (stage : Fin 4), Settled s → s.dev.pwr.v48 = true → s.dev.pwr.on = true → GivesS (.electricalTrip blown stage) s fun t =>
    t.dev.pwr.on = false ∧ t.dev.pwr.tripped = true ∧ t.live = false ∧ Blank t.dev ∧ t.persist = s.persist ∧
    (s.dev.pwr.v33 = true → t.dev.mgmt.alert.testBit 3 = true)) ∧
  (∀ (s : State), s.dev.pwr.tripped = true → GivesS .tripRecovery s fun t =>
    t.dev.pwr.on = true ∧ t.dev.pwr.tripped = false ∧ t.dev.pwr.v48 = true ∧ t.dev.pwr.die = false ∧ Blank t.dev ∧ t.persist = s.persist)

/-- R415, R416, R427, R453, R461: the fuses and the slot are sensed as the die leaves power-on reset, and the boot ROM starts the Ethernet port with the
MAC of a valid identity record. -/
def Sys2Proof.Claims.StartUp : Prop :=
  (∀ (s : State) (slot : Fin 16), s.dev.pwr.v48 = true → s.dev.pwr.v33 = true → s.dev.pwr.on = true → s.dev.pwr.die = false →
    Gives (.diePorRelease slot) s fun t =>
      t.pwr.die = true ∧ t.fld F.DEV_STATUS_SLOT = slot.val ∧ t.fld F.SEC_STATUS_LIFECYCLE = s.lifecycle % 4 ∧
      (∀ k < 8, t.fld (F.SEC_SVN_SVN k) = s.svn k % 256) ∧ t.mem = s.dev.mem) ∧
  (∀ (s : State) (mac : Nat), s.live = true → s.dev.pwr.booted = false → s.identity = some mac →
    Gives .bootRomStart s fun t =>
      t.pwr.booted = true ∧ t.fld F.ETH_MAC_MAC = mac % 2 ^ 48 ∧ t.bit F.NVS_STATUS_ID_VALID = true ∧ t.fld F.ETH_STATUS_LINK = 1 ∧
      t.fld F.PWR_STATUS_STATE = (if s.dev.pwr.refClk then 2 else s.dev.fld F.PWR_STATUS_STATE) ∧ t.mem = s.dev.mem) ∧
  (∀ (s : State), s.live = true → s.dev.pwr.booted = false → s.identity = none →
    Gives .bootRomStart s fun t =>
      t.pwr.booted = true ∧ t.fld F.ETH_CTRL_ENABLE = 0 ∧ t.bit F.NVS_EVENT_ID_LOST = true ∧ t.mgmt.alert.testBit 0 = true)

/-- R381, R397 to R399: a load that is asked for, brought, accepted and started. -/
def Sys2Proof.Claims.FirmwareLoads : Prop :=
  (∀ (s : State) (ip : BitVec 128) (bytes : List Byte), s.live = true → s.dev.ethUp = true → s.dev.fld F.GND_STATUS_STATE = 0 →
    s.dev.eth.load = none → bytes.length = 80 → kNat bytes 0 2 = 0x0100 → kNat bytes 2 1 = 1 → kNat bytes 8 4 = 64 →
    kNat bytes 16 2 ≤ 0x0100 → 0x0100 ≤ kNat bytes 18 2 → kNat bytes 23 1 = 0 → kNat bytes 52 28 = 0 → kNat bytes 48 4 ≤ imageMax →
    Gives (.bootReq ip bytes) s fun t =>
      t.eth.load = some ⟨ip.toNat, kNat bytes 20 3, kNat bytes 48 4, []⟩ ∧ t.fld F.ETH_IP4_ADDR = kNat bytes 28 4 ∧ t.mem = s.dev.mem ∧
      (∃ q : Qp, t.qp 0x10 = some q ∧ q.role = 0 ∧ q.peer = kNat bytes 20 3 ∧ q.ip = ip.toNat ∧ q.psnIn = (kNat bytes 24 3 + 1) % 2 ^ 24) ∧
      ∃ m, t.eth.out = s.dev.eth.out ++ [.send 0x10 m] ∧ kNat m 2 1 = 2) ∧
  (∀ (s : State) (ip : BitVec 128) (bytes : List Byte) (l : Load), s.live = true → s.dev.ethUp = true → s.dev.fld F.GND_STATUS_STATE = 0 →
    s.dev.eth.load = some l → l.ip = ip.toNat → l.len ≠ 0 → kNat bytes 0 2 = 0x0100 → kNat bytes 2 1 = 3 → kNat bytes 8 4 + 16 = bytes.length →
    24 ≤ bytes.length → bytes.length ≤ 65560 → kNat bytes 20 4 = 0 → kNat bytes 16 4 = l.got.length →
    l.got.length + (bytes.length - 24) ≤ l.len →
    let got := l.got ++ bytes.drop 24
    (kNat bytes 3 1 = 0 → exec (.chunk ip bytes) s = .next (s.on fun d => { d with eth := { d.eth with load := some { l with got := got } } })) ∧
    (kNat bytes 3 1 = 1 → Gives (.chunk ip bytes) s fun t =>
      if s.imageStatus l.len got = 0 then
        t.eth.load = none ∧ t.gnd.image = got ∧ t.fld F.GND_STATUS_STATE = 1 ∧ t.fld F.SEC_STATUS_BOOT = 1 ∧
        t.fld (F.SEC_SVN_RUN_RUN (imageK got)) = imageSvn got
      else t.fld F.GND_STATUS_STATE = 0 ∧ t.fld F.SEC_STATUS_BOOT = 2 ∧ t.bit F.SEC_EVENT_IMAGE_REJECT = true)) ∧
  (∀ (s : State), s.live = true → s.dev.fld F.GND_STATUS_STATE = 1 →
    GivesS .bootLoaderStart s fun t =>
      t.dev.fld F.GND_STATUS_STATE = 3 ∧ t.dev.bit F.SEC_STATUS_LOCKED = true ∧ t.dev.fld F.GND_CTRL_CORE_RUN = 0x3F ∧
      (∀ c < 8, t.dev.fld (F.GND_COMP_STATE c) = 2) ∧ (∀ k < 12, t.dev.fld (F.KEL_STATUS_STATE k) = 1) ∧
      t.dev.gnd.image = s.dev.gnd.image ∧ t.persist = s.persist)

/-- What the steps of start-up do, up to firmware that runs. Where the manual is silent the model chooses: log 106, 107, 109, 110, 111, 182. -/
def Obligations.StartUpToFirmware : Prop := Claims.StartUp ∧ Claims.FirmwareLoads

/-! ## The power governor -/

/-- R420 to R425: target, demand and ballast; a hold of the bus; throttling and trips. Where the manual is silent the model chooses: log 125, 126, 127, 129, 184. -/
def Obligations.PowerGovernor : Prop :=
  (∀ (s : State) (demand : BitVec 16), s.live = true →
    let d := s.dev
    let rate := d.fld F.PWR_CTRL_SLEW * d.fld F.PWR_IN_VIN
    let held := max (demand.toNat * wattUnits) (d.pwr.d - rate * (d.time - d.pwr.at_))
    let target := min (d.fld F.PWR_LIMIT_LIMIT_W) (max (d.powerE rate * (16 - d.fld F.PWR_THROTTLE_LEVEL) / 16) held / wattUnits)
    Gives (.ballastFill demand) s fun t =>
      t.fld F.PWR_TARGET_TARGET_W = target ∧ t.fld F.PWR_TARGET_DEMAND_W = demand.toNat ∧
      t.fld F.PWR_TARGET_BALLAST_W = (if d.bit F.PWR_CTRL_GOV_EN then target - demand.toNat else 0) ∧ t.mem = d.mem ∧ t.cores = d.cores) ∧
  (∀ (s : State), s.live = true → s.dev.bit F.PWR_STATUS_HOLD = false →
    Gives .busHold s fun t => t.bit F.PWR_STATUS_HOLD = true ∧ t.bit F.PWR_EVENT_BUS_HOLD = true ∧
      t.fld F.PWR_ERR_COUNT_HOLDS = min (s.dev.fld F.PWR_ERR_COUNT_HOLDS + 1) (2 ^ 32 - 1) ∧ t.mem = s.dev.mem) ∧
  (∀ (s : State), s.live = true → exec .busHoldEnd s = .next (s.on fun d => d.setFld F.PWR_STATUS_HOLD 0)) ∧
  (∀ (s : State) (x : Sensors), s.live = true → s.dev.evalDue = true →
    let d := s.dev
    let cause := b2n (decide (d.fld F.PWR_LIMIT_LIMIT_W < x.avg100.toNat)) + 2 * b2n (decide (d.fld F.PWR_LIMIT_PEAK_W < x.avg10.toNat)) +
      4 * b2n (decide (d.fld F.PWR_THERM_DIE_C ≤ x.die.toNat)) + 8 * b2n (decide (d.fld F.PWR_THERM_HBM_C ≤ hbmMax x))
    let k := d.fld F.PWR_THROTTLE_LEVEL
    GivesS (.throttleEval x) s fun t =>
      t.dev.fld F.PWR_THROTTLE_CAUSE = cause ∧ t.dev.fld F.PWR_TEMP_DIE_MAX = x.die.toNat ∧ t.dev.fld F.PWR_IN_PIN = x.pin.toNat ∧
      t.dev.fld F.PWR_THROTTLE_LEVEL = (if cause ≠ 0 then min (k + 1) 7
        else if d.pwr.causeAt + 144000000 ≤ d.time then k - 1 else k) ∧ t.dev.mem = d.mem ∧ t.dev.cores = d.cores) ∧
  (∀ (s : State) (x : Sensors), s.live = true → s.dev.tckRunning = true → s.dev.pwr.evalAt ≠ some s.dev.time → exec (.throttleEval x) s = .next s) ∧
  (∀ (s : State) (x : Sensors), s.live = true → (105 ≤ x.die.toNat ∨ 100 ≤ hbmMax x) →
    GivesS (.thermalTrip x) s fun t => t.dev.fld F.PWR_STATUS_STATE = 4 ∧ t.dev.bit F.PWR_EVENT_THERM_TRIP = true ∧
      t.dev.fld F.TEL_FATAL_CAUSE = 3 ∧ (∀ n < 144, t.dev.bit (F.SCP_CORE_CTRL_CORE_EN n) = false) ∧ t.dev.mgmt.alert.testBit 1 = true) ∧
  (∀ (s : State) (v : Word), s.live = true → s.dev.fld F.PWR_STATUS_STATE = 4 → 1 ≤ F.PWR_CTRL_SLEW.of v → F.PWR_CTRL_SLEW.of v ≤ 40 →
    s.dev.fld F.PWR_TEMP_DIE_MAX < s.dev.fld F.PWR_THERM_DIE_C → s.dev.fld F.PWR_TEMP_HBM_MAX < s.dev.fld F.PWR_THERM_HBM_C →
    Gives (.tripClr fwTag v) s fun t => t.fld F.PWR_STATUS_STATE = (if s.dev.fld F.GND_STATUS_STATE < 3 then 2 else 3) ∧
      t.fld F.PWR_CTRL_SLEW = F.PWR_CTRL_SLEW.of v ∧ t.mem = s.dev.mem)

/-! ## The persistent store -/

/-- R428 to R431, R435: the journal is mounted; an APPEND and a READ are accepted and end. Where the manual is silent the model chooses: log 130, 131, 132, 133, 183. -/
def Obligations.PersistentStore : Prop :=
  (∀ (s : State), s.live = true → s.dev.bit F.NVS_STATUS_MOUNTED = false →
    GivesS .journalMount s fun t => t.dev.bit F.NVS_STATUS_MOUNTED = true ∧ t.dev.mem = s.dev.mem ∧ t.persist.fuseA = s.persist.fuseA ∧
      t.persist.fuseB = s.persist.fuseB ∧
      ∀ c, 1 ≤ c → c ≤ 5 → t.dev.fld (F.NVS_CLASS_SEQ (c - 1)) = Store.get (fun _ => 0) s.persist.seqs c % 2 ^ 32) ∧
  (∀ (s : State) (v : Word), s.live = true → s.dev.bit F.NVS_CMD_STATUS_BUSY = false →
    let cls := F.NVS_CMD_CLASS.of v
    let key := F.NVS_CMD_KEY.of v
    let len := F.NVS_CMD_LEN.of v
    let addr := s.dev.fld F.NVS_ARG_ADDR * 64
    1 ≤ cls → cls ≤ 5 → addr + len ≤ hbmSize →
    (key < recKeys cls → len + 21 ≤ recSize cls → LinesServe s.dev addr len → s.dev.repairing addr len = false →
      (s.live_ cls).length + (if (s.live_ cls).any (·.key == key) then 0 else 1) ≤ (copyBlocks cls - 1) * blockRecs cls →
      recPeriod cls ≤ s.dev.nvsCredit cls →
      GivesS (.nvsAppend fwTag v) s fun t =>
        let seq := Store.get (fun _ => 0) s.persist.seqs cls + 1
        t.dev.nvs.op = some ⟨1, cls, ⟨key, seq, s.dev.rd addr len, true⟩, len, addr, 0⟩ ∧ t.dev.bit F.NVS_CMD_STATUS_BUSY = true ∧
        Store.get (fun _ => 0) t.persist.seqs cls = seq ∧ t.persist.logs = s.persist.logs ∧ t.dev.mem = s.dev.mem) ∧
    GivesS (.nvsRead fwTag v) s fun t =>
      t.dev.nvs.op = some ⟨2, cls, ⟨0, 0, [], true⟩, len, addr, 0⟩ ∧ t.dev.bit F.NVS_CMD_STATUS_BUSY = true ∧ t.persist = s.persist ∧
      t.dev.mem = s.dev.mem) ∧
  (∀ (s : State) (o : NvsOp), s.live = true → s.dev.nvs.op = some o → o.op = 1 →
    (∀ c < 2, ((s.log o.cls c).blocks.getLast?.getD []).length < blockRecs o.cls) →
    GivesS (.nvsCommandDone 0) s fun t =>
      t.dev.nvs.op = none ∧ t.dev.bit F.NVS_CMD_STATUS_BUSY = false ∧ t.dev.fld F.NVS_CMD_STATUS_RESULT = 0 ∧
      o.entry ∈ (t.log o.cls 0).recs ∧ o.entry ∈ (t.log o.cls 1).recs ∧ t.persist.spares = s.persist.spares) ∧
  (∀ (s : State) (o : NvsOp), s.live = true → s.dev.nvs.op = some o → o.op = 2 → o.addr + o.len ≤ hbmSize → LinesServe s.dev o.addr o.len →
    let live := s.live_ o.cls
    let n := min live.length (o.len / recSize o.cls)
    (∀ r ∈ live, r.body.length + 21 ≤ recSize o.cls) → s.dev.repairing o.addr (n * recSize o.cls) = false →
    Gives (.nvsCommandDone 0) s fun t =>
      t.nvs.op = none ∧ t.bit F.NVS_CMD_STATUS_BUSY = false ∧ t.fld F.NVS_CMD_STATUS_RESULT = (if n < live.length then 5 else 0) ∧
      t.fld F.NVS_CMD_STATUS_COUNT = n % 2 ^ 32 ∧ Stored s.dev t o.addr ((live.take n).map (Rec.bytes o.cls)).flatten)


namespace Sys2Proof.Claims

/-- A device-fatal error has been taken: its cause reads, the ripcord has been pulled, no core may run, no job is kept, and the management bus
shows it (R439). -/
def Fatal (t : Dev) (cause : Nat) : Prop :=
  t.fld F.TEL_FATAL_CAUSE = cause ∧ t.bit F.TEL_EVENT_FATAL = true ∧ t.bit F.TEL_EVENT_RIPCORD = true ∧
  (∀ n < 144, t.bit (F.SCP_CORE_CTRL_CORE_EN n) = false) ∧ t.gnd.jobs = [] ∧ t.mgmt.alert.testBit 2 = true

end Sys2Proof.Claims

/-! ## Errors, telemetry and the management bus -/

/-- R438, R439: parity errors of the network and of the kernel's memory. -/
def Sys2Proof.Claims.NetworkErrors : Prop :=
  (∀ (s : State) (i : Nat), s.live = true → Gives (.networkHeaderParity i) s fun t => Fatal t 1 ∧ t.bit F.TEL_EVENT_HDR_PARITY = true) ∧
  (∀ (s : State), s.live = true → Gives .kernelSramUncorrectable s fun t => Fatal t 4) ∧
  (∀ (s : State) (i : Nat) (r : Req), s.live = true → s.dev.home.reqs[i]? = some r → r.src < 288 →
    Gives (.networkDataParity (.request i)) s fun t =>
      t.home.reqs = s.dev.home.reqs.filter (·.id ≠ r.id) ∧
      t.home.resps = s.dev.home.resps ++ [⟨r.id, r.src, r.reg, r.acq, 0, true, r.addr, [], r.kern, r.bundle, r.stale⟩] ∧
      t.bit F.TEL_EVENT_PARITY = true ∧ t.fld F.TEL_ERR_COUNT_PARITY = min (s.dev.fld F.TEL_ERR_COUNT_PARITY + 1) (2 ^ 32 - 1) ∧
      t.mem = s.dev.mem ∧ t.cores = s.dev.cores)

/-- R439, R443, R467: the event queue gives up its head record; a fatal cause is cleared; bytes of the management bus. -/
def Sys2Proof.Claims.Telemetry : Prop :=
  (∀ (s : State) (r : Word × Word) (rs : List (Word × Word)), s.live = true → s.dev.tel.evq = r :: rs → s.dev.serving = false →
    exec (.evqPop fwTag) s = .next (s.on fun d => { d with tel := { d.tel with evq := rs } })) ∧
  (∀ (s : State) (v : Word), s.live = true → F.TEL_CTRL_IRQ_CORE.of v ≤ 5 →
    Gives (.fatalClr fwTag v) s fun t => t.fld F.TEL_FATAL_CAUSE = 0 ∧ t.fld F.TEL_CTRL_IRQ_CORE = F.TEL_CTRL_IRQ_CORE.of v ∧
      t.mem = s.dev.mem ∧ t.cores = s.dev.cores) ∧
  (∀ (s : State) (a : BitVec 8), s.dev.pwr.v33 = true → Gives (.mgmtByteRead a) s fun t =>
    t.mgmt.answer = s.dev.mgmtByte a.toNat ∧ t.regs = s.dev.regs ∧ t.mem = s.dev.mem ∧
    (s.dev.pwr.die = true → a = 0x0A → t.mgmt.answer = s.dev.fld F.PWR_TEMP_DIE_MAX) ∧
    (s.dev.pwr.die = true → a = 0x0E → t.mgmt.answer = s.dev.fld F.TEL_FATAL_CAUSE) ∧
    (a = 0x0C → t.mgmt.pinHi = some (s.dev.fld F.PWR_IN_PIN / 256)) ∧ (a = 0x0D → t.mgmt.pinHi = none)) ∧
  (∀ (s : State) (v : BitVec 8), s.dev.pwr.v33 = true →
    exec (.mgmtByteWrite 0x09 v) s = .next (s.on fun d =>
      { d with mgmt := { d.mgmt with alert := (d.mgmt.alert &&& (255 - v.toNat)) ||| d.alertNow } })) ∧
  (∀ (s : State) (a v : BitVec 8), a ≠ 0x09 → exec (.mgmtByteWrite a v) s = .next s)

/-- What the errors of the network and the telemetry commands do. Where the manual is silent the model chooses: log 134, 154. -/
def Obligations.ErrorsAndTelemetry : Prop := Claims.NetworkErrors ∧ Claims.Telemetry

/-! ## Firmware -/

/-- R396, R403, R405, R407, R408: what firmware does on a trace point, a message, a request to pause, and a component's crash and restart. -/
def Sys2Proof.Claims.FirmwareWork : Prop :=
  (∀ (s : State) (t : Fin 1024) (args : List Byte), s.live = true → s.dev.serving = true → s.dev.compUp (t.val / 128) = true →
    bitOf (s.dev.fld (F.GND_TRACE_EN_EN (t.val / 64))) (t.val % 64) = true →
    (Gives (.tracePoint t args true) s fun d => d.bit F.GND_EVENT_LOG_DROP = true ∧ d.fld F.GND_LOG_NEXT_SEQ = s.dev.fld F.GND_LOG_NEXT_SEQ) ∧
    (s.dev.gnd.traceMs ≠ s.dev.time / 144000000 → 0 < s.dev.fld F.GND_TRACE_CTRL_RATE →
      Gives (.tracePoint t args false) s fun d =>
        d.fld F.GND_LOG_NEXT_SEQ = (s.dev.fld F.GND_LOG_NEXT_SEQ + 1) % 2 ^ 64 ∧ d.gnd.traceN = 1 ∧ d.gnd.traceMs = s.dev.time / 144000000)) ∧
  (∀ (s : State) (job : BitVec 16), s.live = true → s.dev.serving = true → s.dev.compUp 1 = true → s.dev.master = true →
    Gives (.pauseRequest job) s fun t => ∀ j ∈ t.gnd.jobs, j.tag = job.toNat → j.state = 2) ∧
  (∀ (s : State) (x : BitVec 7) (y : BitVec 6) (m : FwMsg), s.live = true → s.dev.serving = true →
    (¬ (x.toNat = s.dev.fld F.LNK_COORD_X ∧ y.toNat = s.dev.fld F.LNK_COORD_Y) →
      exec (.inboxMessage x y m) s = .next (s.on fun d =>
        { d with gnd := { d.gnd with sent := d.gnd.sent ++ [⟨d.treePort x.toNat y.toNat, x.toNat, y.toNat, m⟩] } })) ∧
    (x.toNat = s.dev.fld F.LNK_COORD_X → y.toNat = s.dev.fld F.LNK_COORD_Y →
      (∀ bs, m = .other bs → exec (.inboxMessage x y m) s = .next s) ∧
      (∀ j, m = .pause j → s.dev.compUp 1 = true → s.dev.master = true →
        Gives (.inboxMessage x y m) s fun t => ∀ q ∈ t.gnd.jobs, q.tag = j → q.state = 2) ∧
      (∀ j p, m = .resume j p → s.dev.compUp 1 = true → s.dev.tckRunning = false →
        Gives (.inboxMessage x y m) s fun t => ∀ q ∈ t.gnd.jobs, q.tag = j → q.state = 1))) ∧
  (∀ (s : State) (c : Fin 8) (cause : Fin 4), s.live = true → s.dev.compUp c.val = true →
    Gives (.componentCrash c cause) s fun t =>
      t.fld (F.GND_COMP_STATE c.val) = 0 ∧ t.fld (F.GND_COMP_CAUSE c.val) = cause.val + 1 ∧ t.bit F.GND_EVENT_CRASH = true ∧
      Store.get (fun _ => []) t.gnd.crashes c.val = s.dev.crashTimes c.val ++ [s.dev.time] ∧
      (c.val = 1 → ∀ j ∈ t.gnd.jobs, j.state ≠ 1)) ∧
  (∀ (s : State) (c : Fin 8) (digestOk : Bool), s.live = true → s.dev.fld (F.GND_COMP_STATE c.val) = 0 → s.dev.crashTimes c.val ≠ [] →
    (digestOk = true → (s.dev.crashTimes c.val).length < 4 → Gives (.componentRestart c digestOk) s fun t =>
      t.fld (F.GND_COMP_STATE c.val) = 2 ∧ t.bit F.GND_EVENT_RESTARTED = true ∧ t.fld F.GND_STATUS_STATE = s.dev.fld F.GND_STATUS_STATE) ∧
    ((digestOk = false ∨ 4 ≤ (s.dev.crashTimes c.val).length) → Gives (.componentRestart c digestOk) s fun t =>
      t.fld (F.GND_COMP_STATE c.val) = 5 ∧ t.fld F.GND_STATUS_STATE = 5 ∧ t.bit F.GND_EVENT_RESTART_FAIL = true ∧
      t.bit F.TEL_EVENT_RIPCORD = true ∧ t.gnd.jobs = []))

/-- R393, R408 to R410: the lease, the hold and the watchdog run from the writes that start them, and what their ends do. -/
def Sys2Proof.Claims.LeaseAndWatchdog : Prop :=
  (∀ (s : State) (v : Word), s.live = true →
    (Gives (.coreRun fwTag v) s fun t => t.fld F.GND_CTRL_CORE_RUN = F.GND_CTRL_CORE_RUN.of v ∧ t.mem = s.dev.mem ∧ t.cores = s.dev.cores) ∧
    (F.GND_LEASE_MS.of v ≠ 0 → Gives (.leaseRenew fwTag v) s fun t =>
      t.gnd.lease = some (s.dev.time + F.GND_LEASE_MS.of v * 144000000) ∧ t.fld F.GND_LEASE_MS = F.GND_LEASE_MS.of v ∧ t.mem = s.dev.mem) ∧
    (F.GND_HOLD_SECONDS.of v ≤ 3600 → Gives (.holdStart fwTag v) s fun t =>
      t.gnd.hold = some (s.dev.time + F.GND_HOLD_SECONDS.of v * 144000000000) ∧ t.fld F.GND_HOLD_SECONDS = F.GND_HOLD_SECONDS.of v ∧
      t.mem = s.dev.mem) ∧
    (F.GND_WDOG_MS.of v ≠ 0 → Gives (.wdogFeed fwTag v) s fun t =>
      t.gnd.wdog = (if F.GND_WDOG_EN.of v = 1 then some (s.dev.time + F.GND_WDOG_MS.of v * 144000000) else none) ∧ t.mem = s.dev.mem)) ∧
  (∀ (s : State) (at_ : Nat), s.live = true → s.dev.gnd.lease = some at_ → s.dev.gnd.session.isSome = true → s.dev.fld F.GND_HOLD_SECONDS ≠ 0 →
    Gives .leaseExpiry s fun t =>
      t.gnd.session = none ∧ t.gnd.heldTok = s.dev.gnd.session.map (·.1) ∧ t.fld F.GND_STATUS_LEASE = 2 ∧
      t.bit F.GND_EVENT_LEASE_EXPIRED = true ∧ t.time = max s.dev.time at_ ∧ (∀ j ∈ t.gnd.jobs, j.state ≠ 1 ∧ j.state ≠ 2 ∧ j.state ≠ 4) ∧
      t.gnd.hold = some (max s.dev.time at_ + s.dev.fld F.GND_HOLD_SECONDS * 144000000000)) ∧
  (∀ (s : State) (at_ : Nat), s.live = true → s.dev.gnd.hold = some at_ →
    Gives .holdExpiry s fun t =>
      t.gnd.hold = none ∧ t.gnd.heldTok = none ∧ t.bit F.GND_EVENT_HOLD_EXPIRED = true ∧ t.time = max s.dev.time at_ ∧
      (∀ j ∈ t.gnd.jobs, j.state ≠ 3) ∧ (s.dev.gnd.session = none → t.fld F.GND_STATUS_LEASE = 0)) ∧
  (∀ (s : State) (at_ : Nat), s.live = true → s.dev.gnd.wdog = some at_ →
    Gives .watchdogExpiry s fun t =>
      t.fld F.TEL_FATAL_CAUSE = 2 ∧ (∀ n < 144, t.bit (F.SCP_CORE_CTRL_CORE_EN n) = false) ∧ t.bit F.GND_EVENT_WDOG = true ∧
      t.fld F.GND_STATUS_STATE = 0 ∧ t.gnd = Gnd.reset ∧ t.eth.load = none ∧ t.time = max s.dev.time at_)

/-- What the firmware's work does, its lease and watchdog included. Where the manual is silent the model chooses: log 112, 113, 117, 119, 120, 185. -/
def Obligations.FirmwareAtWork : Prop := Claims.FirmwareWork ∧ Claims.LeaseAndWatchdog

namespace Sys2Proof.Claims

/-- The open session's driver sends a request that firmware and the component it goes to are there to serve (R400, R401). -/
structure MailboxReady (s : State) (h : MboxHdr) (comp : Nat) : Prop where
  live : s.live = true
  up : s.dev.ethUp = true
  serving : s.dev.serving = true
  session : s.dev.gnd.session = some (h.token.toNat, h.ver.toNat)
  room : h.full = false
  comp : s.dev.compUp comp = true

/-- The bytes of a reply: VERSION, OP with bit 15 set, REQ_ID, LEN, STATUS, TOKEN and payload (Table 4 of the firmware chapter). -/
def replyBytes (h : MboxHdr) (op status : Nat) (payload : List Byte) : List Byte :=
  leBytes 2 h.ver.toNat ++ leBytes 2 (op + 0x8000) ++ leBytes 4 h.req.toNat ++ leBytes 4 payload.length ++ leBytes 4 status ++
    leBytes 16 h.token.toNat ++ payload

/-- The last message sent is the reply. -/
def Replied (t : State) (h : MboxHdr) (op status : Nat) (payload : List Byte) : Prop :=
  t.dev.eth.out.getLast? = some (.send 0x11 (replyBytes h op status payload))

/-- A request is carried out: STATUS 0 goes back with a payload, the lease runs anew, and the state is as P says. -/
def Served (i : Instr) (s : State) (h : MboxHdr) (op : Nat) (payload : List Byte) (P : Dev → Prop) : Prop :=
  GivesS i s fun t => Replied t h op 0 payload ∧ t.dev.gnd.lease = some (s.dev.time + s.dev.fld F.GND_LEASE_MS * 144000000) ∧
    t.persist = s.persist ∧ P t.dev

end Sys2Proof.Claims

/-! ## The mailbox -/

/-- R401, R409, R410: a session opens, is renewed, gets its held jobs back, and ends. -/
def Sys2Proof.Claims.MailboxSessions : Prop :=
  (∀ (s : State) (h : MboxHdr) (lo hi : BitVec 16), s.live = true → s.dev.ethUp = true → s.dev.serving = true → h.full = false → s.dev.compUp 0 = true →
    let ver := min hi.toNat (mboxHi s.dev.gnd.image)
    max lo.toNat (mboxLo s.dev.gnd.image) ≤ ver →
    (h.token = 0 → s.dev.gnd.session = none → GivesS (.hello h lo hi) s fun t =>
      ∃ token, t.dev.gnd.session = some (token, ver) ∧ t.dev.fld F.GND_STATUS_LEASE = 1 ∧
        t.dev.gnd.lease = some (s.dev.time + s.dev.fld F.GND_LEASE_MS * 144000000)) ∧
    (h.token ≠ 0 → s.dev.gnd.heldTok = some h.token.toNat → GivesS (.hello h lo hi) s fun t =>
      t.dev.gnd.session = some (h.token.toNat, ver) ∧ t.dev.fld F.GND_STATUS_LEASE = 1 ∧ t.dev.gnd.jobs = s.dev.gnd.jobs) ∧
    (h.token = 0 → s.dev.gnd.session.isSome = true → GivesS (.hello h lo hi) s fun t => Replied t h 1 5 [] ∧ t.dev.gnd = s.dev.gnd)) ∧
  (∀ (s : State) (h : MboxHdr), MailboxReady s h 0 → Served (.renew h) s h 2 (leBytes 4 (s.dev.fld F.GND_LEASE_MS)) fun t => t.mem = s.dev.mem) ∧
  (∀ (s : State) (h : MboxHdr), MailboxReady s h 1 → s.dev.gnd.heldTok = some h.token.toNat →
    Served (.reclaim h) s h 3 ((s.dev.gnd.jobs.filter (·.state == 3)).map fun j => leBytes 2 j.tag).flatten fun t =>
      t.gnd.heldTok = none ∧ t.gnd.hold = none ∧ t.bit F.GND_EVENT_RECLAIMED = true ∧
      t.gnd.jobs = s.dev.gnd.jobs.map fun (j : Job) => if j.state = 3 then { j with state := 2 } else j) ∧
  (∀ (s : State) (h : MboxHdr), MailboxReady s h 0 → s.dev.fld F.GND_HOLD_SECONDS ≠ 0 → GivesS (.goodbye h) s fun t =>
    Replied t h 4 0 [] ∧ t.dev.gnd.session = none ∧ t.dev.gnd.heldTok = some h.token.toNat ∧ t.dev.fld F.GND_STATUS_LEASE = 2 ∧
    ∀ j ∈ t.dev.gnd.jobs, j.state ≠ 1 ∧ j.state ≠ 2 ∧ j.state ≠ 4)

/-- R400, R401: the order of the checks of a request; a refused one changes nothing that firmware keeps. -/
def Sys2Proof.Claims.MailboxRefusals : Prop :=
  ∀ (s : State) (h : MboxHdr), s.live = true → s.dev.ethUp = true → s.dev.serving = true →
    (s.dev.gnd.session = none → GivesS (.renew h) s fun t => Replied t h 2 2 [] ∧ t.dev.gnd = s.dev.gnd) ∧
    (∀ token ver, s.dev.gnd.session = some (token, ver) →
      (h.ver.toNat ≠ ver → GivesS (.renew h) s fun t =>
        Replied t h 2 1 (leBytes 2 (mboxLo s.dev.gnd.image) ++ leBytes 2 (mboxHi s.dev.gnd.image)) ∧ t.dev.gnd = s.dev.gnd) ∧
      (h.ver.toNat = ver → h.token.toNat ≠ token → GivesS (.renew h) s fun t => Replied t h 2 3 [] ∧ t.dev.gnd = s.dev.gnd) ∧
      (h.ver.toNat = ver → h.token.toNat = token → h.full = true → GivesS (.renew h) s fun t => Replied t h 2 4 [] ∧ t.dev.gnd = s.dev.gnd) ∧
      (h.ver.toNat = ver → h.token.toNat = token → h.full = false → s.dev.compUp 0 = false → GivesS (.renew h) s fun t =>
        Replied t h 2 7 [] ∧ t.dev.gnd = s.dev.gnd))

/-- What the mailbox's sessions do, and what it refuses. Where the manual is silent the model chooses: log 121. -/
def Obligations.SessionsAndRefusals : Prop := Claims.MailboxSessions ∧ Claims.MailboxRefusals

/-- R363 to R365, R383, R389, R403, R404 to R406: queue pairs, regions, jobs, traces and security by mailbox. Where the manual is silent the model chooses: log 108, 114, 121. -/
def Obligations.MailboxRequests : Prop :=
  (∀ (s : State) (h : MboxHdr) (role : BitVec 8) (peer psn : BitVec 24) (ip : BitVec 128) (n : Nat), MailboxReady s h 3 → (role = 2 ∨ role = 3) →
    s.dev.fld F.ETH_STATUS_FLOWS_FREE ≠ 0 →
    (if role = 2 then (List.range 64).map (0x100 + ·) else (List.range 256).map (0x1000 + ·)).find? (fun n => (s.dev.qp n).isNone) = some n →
    Served (.qpCreate h role peer psn ip) s h 0x10 (leBytes 4 n) fun t =>
      (∃ q : Qp, t.qp n = some q ∧ q.role = role.toNat ∧ q.peer = peer.toNat ∧ q.ip = ip.toNat ∧ q.psnIn = psn.toNat ∧ q.error = false) ∧
      t.fld F.ETH_STATUS_FLOWS_FREE = s.dev.fld F.ETH_STATUS_FLOWS_FREE - 1) ∧
  (∀ (s : State) (h : MboxHdr) (n : BitVec 24) (q : Qp), MailboxReady s h 3 → s.dev.qp n.toNat = some q → 2 ≤ q.role →
    Served (.qpDestroy h n) s h 0x11 [] fun t => t.qp n.toNat = none ∧ ∀ r ∈ t.eth.recs, r.qp = n.toNat → r.written = true) ∧
  (∀ (s : State) (h : MboxHdr) (i : Fin 256) (base ctl : Word), MailboxReady s h 3 → i.val ≠ 255 → ctl.getLsbD 63 = false →
    12 ≤ (F.ETH_MR_CTL_SIZE_LOG2 i.val).of ctl → (F.ETH_MR_CTL_SIZE_LOG2 i.val).of ctl ≤ 34 →
    Served (.regionSet h i base ctl) s h 0x30 [] fun t =>
      t.fld (F.ETH_MR_BASE_BASE i.val) = (F.ETH_MR_BASE_BASE i.val).of base ∧ t.bit (F.ETH_MR_CTL_VALID i.val) = false ∧
      t.fld (F.ETH_MR_CTL_KEY i.val) = (F.ETH_MR_CTL_KEY i.val).of ctl) ∧
  (∀ (s : State) (h : MboxHdr) (j : JobSpec), MailboxReady s h 1 → j.tag ≠ 0xFFFF → j.policy.toNat ≤ 2 → j.x0.toNat ≤ j.x1.toNat →
    j.y0.toNat ≤ j.y1.toNat → j.first.toNat ≤ j.last.toNat → j.last.toNat ≤ 382 → s.dev.gnd.jobs.any (·.tag == j.tag.toNat) = false →
    s.dev.str.kills.any (·.1 == j.tag.toNat) = false →
    Served (.jobCreate h j) s h 0x20 [] fun t => ∃ q : Job, t.gnd.jobs = s.dev.gnd.jobs ++ [q] ∧ q.tag = j.tag.toNat ∧ q.state = 0 ∧
      q.policy = j.policy.toNat ∧ q.first = j.first.toNat ∧ q.last = j.last.toNat) ∧
  (∀ (s : State) (h : MboxHdr) (job : BitVec 16) (st : Nat), MailboxReady s h 1 →
    s.dev.gnd.jobs.any (fun j => j.tag == job.toNat && j.state == st) = true →
    (st = 0 → Served (.jobStart h job) s h 0x21 [] fun t => ∀ j ∈ t.gnd.jobs, j.tag = job.toNat → j.state = 1) ∧
    (st = 1 → Served (.jobPause h job) s h 0x22 [] fun t => ∀ j ∈ t.gnd.jobs, j.tag = job.toNat → j.state = 2) ∧
    (st = 2 → Served (.jobResume h job) s h 0x23 [] fun t => ∀ j ∈ t.gnd.jobs, j.tag = job.toNat → j.state = 1) ∧
    (st ≤ 4 → Served (.jobKill h job) s h 0x24 [] fun t =>
      (∀ j ∈ t.gnd.jobs, j.tag ≠ job.toNat) ∧ t.str.kills.any (·.1 == job.toNat) = true)) ∧
  (∀ (s : State) (h : MboxHdr) (bits : List Word), MailboxReady s h 7 → bits.length = 16 →
    Served (.traceSet h bits) s h 0x40 [] fun t => ∀ i < 16, t.reg (R.GND_TRACE_EN i) = bits.getD i 0) ∧
  (∀ (s : State) (h : MboxHdr), MailboxReady s h 7 → Served (.traceInfo h) s h 0x41 (secBytes s.dev.gnd.image 8) fun t => t.mem = s.dev.mem) ∧
  (∀ (s : State) (h : MboxHdr) (nonce : List Byte), MailboxReady s h 5 → nonce.length = 64 → s.dev.bit F.SEC_STATUS_LOCKED = true →
    Served (.mailboxAttest h nonce) s h 0x50 (s.report nonce) fun t => t.mem = s.dev.mem) ∧
  (∀ (s : State) (h : MboxHdr) (bytes : List Byte), MailboxReady s h 5 → bytes.length = 112 →
    GivesS (.mailboxKeyImport h bytes) s fun t =>
      match s.unwrap bytes with
      | .ok (handle, u) => Replied t h 0x70 0 (leBytes 4 handle) ∧ t.dev.sec.keys = u.dev.sec.keys
      | .error _ => Replied t h 0x70 5 [] ∧ t.dev.sec = s.dev.sec)

/-- R411, R412: a live update is announced, brought, checked and swapped in, or given up. Where the manual is silent the model chooses: log 122. -/
def Obligations.LiveUpdate : Prop :=
  (∀ (s : State) (h : MboxHdr) (len : BitVec 32), MailboxReady s h 0 → len.toNat ≤ imageMax → s.dev.gnd.swaps = [] →
    Served (.updateBegin h len) s h 0x60 [] fun t => t.gnd.stageLen = some len.toNat ∧ t.gnd.staged = [] ∧ t.gnd.image = s.dev.gnd.image) ∧
  (∀ (s : State) (h : MboxHdr) (offset : BitVec 32) (bytes : List Byte) (n : Nat), MailboxReady s h 0 → s.dev.gnd.stageLen = some n →
    s.dev.gnd.swaps = [] → offset.toNat = s.dev.gnd.staged.length → offset.toNat + bytes.length ≤ n →
    LinesServe s.dev (stagedAt + offset.toNat) bytes.length →
    Served (.updateChunk h offset bytes) s h 0x61 [] fun t => t.gnd.staged = s.dev.gnd.staged ++ bytes ∧
      Stored s.dev t (stagedAt + offset.toNat) bytes) ∧
  (∀ (s : State) (h : MboxHdr) (len : Nat), MailboxReady s h 0 → s.dev.gnd.stageLen = some len → s.dev.gnd.swaps = [] →
    GivesS (.updateCommit h) s fun t =>
      if s.updateOk len = true then
        Replied t h 0x62 0 [] ∧
        (changed s.dev.gnd.image s.dev.gnd.staged ≠ [] → t.dev.gnd.next = s.dev.gnd.staged ∧
          t.dev.gnd.swaps = changed s.dev.gnd.image s.dev.gnd.staged ∧ t.dev.fld F.GND_STATUS_STATE = 4) ∧
        (changed s.dev.gnd.image s.dev.gnd.staged = [] → t.dev.gnd.image = s.dev.gnd.staged ∧ t.dev.fld F.GND_STATUS_STATE = 3)
      else Replied t h 0x62 5 [] ∧ t.dev.gnd = s.dev.gnd ∧ t.dev.bit F.GND_EVENT_UPDATE_REFUSED = true) ∧
  (∀ (s : State) (h : MboxHdr), MailboxReady s h 0 → s.dev.gnd.stageLen.isSome = true →
    Served (.updateAbort h) s h 0x63 [] fun t => t.gnd.stageLen = none ∧ t.gnd.staged = [] ∧ t.gnd.swaps = [] ∧ t.gnd.image = s.dev.gnd.image ∧
      t.fld F.GND_STATUS_STATE = 3) ∧
  (∀ (s : State) (c : Nat) (cs : List Nat), s.live = true → s.dev.gnd.swaps = c :: cs → c < 8 → s.dev.compUp c = true →
    Gives .componentSwap s fun t =>
      t.gnd.swaps = cs ∧ t.fld (F.GND_COMP_STATE c) = 2 ∧ t.fld (F.GND_COMP_STATE_VER c) = stateOut s.dev.gnd.next c ∧
      t.meas 7 = Config.shake256 (s.dev.meas 7 ++ secDigest s.dev.gnd.next c) 64 ∧
      (cs = [] → t.gnd.image = s.dev.gnd.next ∧ t.fld F.GND_STATUS_STATE = 3 ∧ t.bit F.GND_EVENT_UPDATE_DONE = true) ∧
      (cs ≠ [] → t.gnd.image = s.dev.gnd.image ∧ t.gnd.next = s.dev.gnd.next))

/-! ## The security engine -/

/-- R379, R380, R382, R383, R389, R391, R392: the commands of SEC_CMD as they are accepted, and as they complete. Where the manual is silent the model chooses: log 89, 90, 180. -/
def Obligations.SecurityCommands : Prop :=
  (∀ (s : State) (v : Word), s.live = true → s.dev.bit F.SEC_CMD_STATUS_BUSY = false →
    let imm := F.SEC_CMD_IMM.of v
    let arg := (s.dev.reg R.SEC_CMD_ARG).toNat
    (imm / 256 % 256 ≤ s.dev.fld (F.SEC_SVN_RUN_RUN (imm % 8)) → GivesS (.svnAdv fwTag v) s fun t =>
      t.dev.sec.op = some ⟨1, imm, arg, 0, []⟩ ∧ t.dev.bit F.SEC_CMD_STATUS_BUSY = true ∧ t.persist = s.persist) ∧
    (arg % 64 = 0 → arg + 112 ≤ hbmSize → LinesServe s.dev arg 112 → s.dev.readWaits arg 112 = false → GivesS (.keyImport fwTag v) s fun t =>
      match s.unwrap (s.dev.rd arg 112) with
      | .ok (handle, u) => t.dev.sec.keys = u.dev.sec.keys ∧ t.dev.sec.op = some ⟨2, imm, arg, handle, []⟩
      | .error e => t.dev.sec = s.dev.sec ∧ t.dev.fld F.SEC_CMD_STATUS_RESULT = e ∧ t.dev.bit F.SEC_EVENT_CMD_ERR = true) ∧
    (∀ i, s.dev.keyOf (arg % 2 ^ 32) = some i → Gives (.keyDestroy fwTag v) s fun t =>
      (t.key i).live = false ∧ (t.key i).key = [] ∧ (∀ j, j ≠ i → t.key j = s.dev.key j) ∧ t.bit F.SEC_CMD_STATUS_BUSY = true) ∧
    ((s.dev.bit F.SEC_STATUS_LOCKED = false ∨ 7 ≤ imm % 16) → arg + 64 ≤ hbmSize → LinesServe s.dev arg 64 → s.dev.readWaits arg 64 = false →
      Gives (.measExtend fwTag v) s fun t =>
        t.meas (imm % 16) = Config.shake256 (s.dev.meas (imm % 16) ++ s.dev.rd arg 64) 64 ∧
        (∀ m, m ≠ imm % 16 → t.meas m = s.dev.meas m) ∧ t.bit F.SEC_CMD_STATUS_BUSY = true) ∧
    (8 ≤ imm % 16 → Gives (.measReset fwTag v) s fun t =>
      t.meas (imm % 16) = zeros 64 ∧ (∀ m, m ≠ imm % 16 → t.meas m = s.dev.meas m) ∧ t.bit F.SEC_CMD_STATUS_BUSY = true) ∧
    (s.dev.bit F.SEC_STATUS_LOCKED = true → arg + 1394 ≤ hbmSize → LinesServe s.dev arg 64 → s.dev.readWaits arg 64 = false → GivesS (.attest fwTag v) s fun t =>
      (∃ r, t.dev.sec.op = some ⟨6, imm, arg, 0, r⟩) ∧ t.dev.bit F.SEC_CMD_STATUS_BUSY = true ∧ t.persist = s.persist) ∧
    (s.dev.sec.zero = none → s.dev.sec.wait = [] → imm % 512 ≤ imm / 512 % 512 → imm / 512 % 512 ≤ 382 →
      (∀ g ∈ s.dev.grants, ∀ x ∈ g.2, x < imm % 512 ∨ imm / 512 % 512 < x) → Gives (.zero fwTag v) s fun t =>
        t.bit F.SEC_CMD_STATUS_BUSY = true ∧ t.sec.zero.isSome = true ∧
        ∀ g, imm % 512 ≤ g → g ≤ imm / 512 % 512 → t.fld (F.SEC_GIB_OWNER g) = 0xFFFF ∧ t.bit (F.SEC_GIB_ZEROING g) = true) ∧
    (s.dev.bit F.SEC_STATUS_LOCKED = false → GivesS (.lock fwTag v) s fun t =>
      t.dev.bit F.SEC_STATUS_LOCKED = true ∧ t.dev.bit F.SEC_CMD_STATUS_BUSY = true ∧ (∀ m, t.dev.meas m = s.dev.meas m) ∧
      t.persist = s.persist)) ∧
  (∀ (s : State) (o : SecOp), s.live = true → s.dev.sec.op = some o →
    (o.op = 7 → s.dev.sec.zero = none ∧ s.dev.sec.wait = []) → (o.op = 6 → s.dev.repairing (o.arg + 64) o.report.length = false) →
    GivesS .secCommandDone s fun t =>
      t.dev.sec.op = none ∧ t.dev.bit F.SEC_CMD_STATUS_BUSY = false ∧ t.dev.fld F.SEC_CMD_STATUS_RESULT = 0 ∧
      t.dev.bit F.SEC_EVENT_CMD_DONE = true ∧
      (o.op = 1 → t.svn (o.imm % 8) = max (s.svn (o.imm % 8)) (o.imm / 256 % 256) ∧ t.dev.bit F.SEC_EVENT_SVN_ADVANCED = true) ∧
      (o.op ≠ 1 → t.persist = s.persist) ∧
      (o.op = 2 → t.dev.fld F.SEC_CMD_STATUS_HANDLE = o.handle % 2 ^ 32) ∧
      (o.op = 6 → o.arg + 64 + o.report.length ≤ hbmSize → LinesServe s.dev (o.arg + 64) o.report.length →
        Stored s.dev t.dev (o.arg + 64) o.report)) ∧
  (∀ (s : State) (z : SecZero), s.live = true → s.dev.sec.zero = some z → z.todo = [] → s.dev.sec.wait = [] →
    (∀ k < 12, (s.dev.kQueue k).any (secFill z.gibs) = false) → (∀ g ∈ z.gibs, g < 384) →
    Gives .zeroComplete s fun t =>
      t.sec.zero = none ∧ t.bit F.SEC_EVENT_ZERO_DONE = true ∧
      ∀ g ∈ z.gibs, t.bit (F.SEC_GIB_ZEROING g) = false ∧ (z.bad.contains g = false → t.bit (F.SEC_GIB_CLEAN g) = true)) ∧
  (∀ (s : State) (v : Word), s.live = true → v.toNat % 2 ^ 32 = 0xDEC00001 → s.lifecycle = 1 →
    GivesS (.decommission fwTag v) s fun t =>
      t.lifecycle = 2 ∧ (∀ b, 512 ≤ b → b < 1024 → t.fuse b = true) ∧ t.dev.fld F.SEC_STATUS_LIFECYCLE = 2 ∧
      t.dev.bit F.SEC_EVENT_DECOMMISSIONED = true ∧ t.dev.mem = s.dev.mem)


namespace Sys2Proof.Claims

/-- A write of TCK_CTRL carries no reserved value (R51). -/
def CtrlGood (v : Word) : Prop :=
  F.TCK_CTRL_GRACE_US.of v ≠ 0 ∧ F.TCK_CTRL_SLIP_LAG.of v ≠ 0 ∧ (F.TCK_CTRL_UP_PORT.of v < 4 ∨ F.TCK_CTRL_UP_PORT.of v = 15)

/-- The tick unit runs. -/
def Running (d : Dev) : Prop := d.fld F.TCK_STATUS_STATE = 2 ∨ d.fld F.TCK_STATUS_STATE = 3

/-- The ripcord has been pulled for a cause (R440, R441). -/
def Pulled (t : Dev) (cause : Nat) : Prop :=
  t.fld F.TEL_RIPCORD_CAUSE = cause ∧ t.bit F.TEL_EVENT_RIPCORD = true ∧ t.bit F.LNK_DEV_EVENT_RIPCORD_SENT = true

/-- The tick unit has stopped (R40, R441). -/
def Stopped (t : Dev) : Prop :=
  t.fld F.TCK_STATUS_STATE = 4 ∧ t.bit F.TCK_CTRL_RUN = false ∧ t.fld F.TCK_PERIOD_CURRENT_NS = 0 ∧ t.tick.fires = []

/-- A port holds one more short message. -/
def Sends (d t : Dev) (p : Nat) (m : ShortMsg) : Prop := (t.port p).shorts = (d.port p).shorts ++ [m]

end Sys2Proof.Claims

/-! ## The tick unit -/

/-- R26: an election starts, hears a candidate, and ends with the best one as master. -/
def Sys2Proof.Claims.Elections : Prop :=
  (∀ (s : State) (v : Word), s.live = true → CtrlGood v → ¬ Running s.dev → s.dev.bit F.TCK_CTRL_RUN = false → s.dev.electing = false →
    Gives (.elect fwTag v) s fun t =>
      t.bit F.TCK_STATUS_ELECTED = false ∧ t.bit F.TCK_CTRL_IS_MASTER = false ∧ t.tick.quietFrom = s.dev.time ∧
      t.tick.best = some ⟨F.TCK_CTRL_PRIORITY.of v, (s.dev.reg R.SEC_SERIAL).toNat % 2 ^ 48, s.dev.fld F.LNK_COORD_X, s.dev.fld F.LNK_COORD_Y⟩ ∧
      t.mem = s.dev.mem ∧ t.cores = s.dev.cores) ∧
  (∀ (s : State) (p : PortId) (domain : BitVec 16) (c b : Candidate), s.live = true → domain.toNat = s.dev.fld F.TCK_CTRL_DOMAIN_ID →
    s.dev.bit F.TCK_STATUS_ELECTED = false → s.dev.tick.best = some b →
    (candBetter c b = false → exec (.electionMessage p domain c) s = .next s) ∧
    (candBetter c b = true → Gives (.electionMessage p domain c) s fun t => t.tick.best = some c ∧ t.tick.quietFrom = s.dev.time ∧
      t.regs = s.dev.regs ∧ ∀ q < 4, q ≠ p.val → s.dev.portIn q = true → s.dev.up q = true → Sends s.dev t q (.election domain.toNat c))) ∧
  (∀ (s : State) (b : Candidate), s.live = true → s.dev.tick.best = some b → b.x < 128 → b.y < 64 →
    Gives .electionComplete s fun t =>
      t.tick.best = none ∧ t.bit F.TCK_STATUS_ELECTED = true ∧ t.fld F.TCK_STATUS_MASTER_X = b.x ∧ t.fld F.TCK_STATUS_MASTER_Y = b.y ∧
      t.bit F.TCK_CTRL_IS_MASTER = (b.x == s.dev.fld F.LNK_COORD_X && b.y == s.dev.fld F.LNK_COORD_Y) ∧
      t.time = max s.dev.time (s.dev.tick.quietFrom + 2000000 * 144) ∧ t.mem = s.dev.mem ∧ t.cores = s.dev.cores)

/-- R22, R39, R40, R48, R50: arming, starting and stopping a domain, and writing its period. -/
def Sys2Proof.Claims.DomainControl : Prop :=
  (∀ (s : State) (v : Word), s.live = true → CtrlGood v → ¬ Running s.dev → s.dev.bit F.TCK_CTRL_RUN = false →
    (s.dev.bit F.TCK_CTRL_IS_MASTER = false → Gives (.arm fwTag v) s fun t =>
      t.fld F.TCK_STATUS_STATE = 1 ∧ t.bit F.TCK_CTRL_RUN = true ∧ t.tick.fires = [] ∧ t.links.faults = [] ∧ t.links.vl0Stop = false ∧
      t.fld F.TCK_CTRL_DOMAIN_ID = F.TCK_CTRL_DOMAIN_ID.of v ∧ t.mem = s.dev.mem) ∧
    (s.dev.bit F.TCK_CTRL_IS_MASTER = true → Gives (.domainStart fwTag v) s fun t =>
      let at_ := s.dev.edge (s.dev.time + s.dev.baseNs (s.dev.fld F.TCK_LEAD_LEAD_NS))
      let n := s.dev.fld F.TCK_START_START
      t.fld F.TCK_STATUS_STATE = 1 ∧ t.bit F.TCK_CTRL_RUN = true ∧ t.tick.fires = [⟨at_, at_, n, false, true, false, none⟩] ∧
      t.tick.unsent = some (n + 1, at_ + s.dev.baseNs (s.dev.fld F.TCK_PERIOD_PERIOD_NS)) ∧ t.mem = s.dev.mem)) ∧
  (∀ (s : State) (v : Word), s.live = true → CtrlGood v → s.dev.bit F.TCK_CTRL_RUN = true →
    (s.dev.fld F.TCK_STATUS_STATE = 1 → s.dev.bit F.TCK_CTRL_IS_MASTER = false → Gives (.disarm fwTag v) s fun t =>
      t.fld F.TCK_STATUS_STATE = 0 ∧ t.bit F.TCK_CTRL_RUN = false ∧ t.mem = s.dev.mem) ∧
    (Running s.dev → s.dev.bit F.TCK_CTRL_IS_MASTER = true → F.TCK_CTRL_MODE.of v = s.dev.fld F.TCK_CTRL_MODE →
      Gives (.domainStop fwTag v) s fun t => t.tick.stopping = true ∧ t.bit F.TCK_CTRL_RUN = true ∧
        t.fld F.TCK_STATUS_STATE = s.dev.fld F.TCK_STATUS_STATE ∧ t.mem = s.dev.mem)) ∧
  (∀ (s : State) (v : Word), s.live = true →
    let p := F.TCK_PERIOD_PERIOD_NS.of v
    4000 ≤ p → p ≤ 1000000 → p ≤ s.dev.fld F.TCK_GOVERN_CEILING_NS →
    (¬ Running s.dev → Gives (.tckPeriodWrite fwTag v) s fun t => t.fld F.TCK_PERIOD_PERIOD_NS = p ∧ t.tick = s.dev.tick ∧ t.mem = s.dev.mem) ∧
    (Running s.dev → s.dev.bit F.TCK_CTRL_MODE = true → s.dev.bit F.TCK_CTRL_IS_MASTER = true →
      Gives (.tckPeriodWrite fwTag v) s fun t => t.tick.soft = some p ∧ t.fld F.TCK_PERIOD_CURRENT_NS = s.dev.fld F.TCK_PERIOD_CURRENT_NS) ∧
    (Running s.dev → s.dev.bit F.TCK_CTRL_MODE = false →
      Gives (.tckPeriodWrite fwTag v) s fun t => t.bit F.TCK_EVENT_LOCKED_WRITE = true ∧ t.reg R.TCK_PERIOD = s.dev.reg R.TCK_PERIOD))

/-- R29 to R33: a boundary's marker goes out LEAD_NS before it and is taken over, later by its delay, below; one that stays away beyond the grace
time pulls the ripcord. -/
def Sys2Proof.Claims.Markers : Prop :=
  (∀ (s : State) (n at_ : Nat), s.live = true → s.dev.bit F.TCK_CTRL_IS_MASTER = true → s.dev.tick.unsent = some (n, at_) → s.dev.tick.soft = none →
    (s.dev.tick.gov = [] ∨ s.dev.tick.gov = [n]) → s.dev.tick.stopping = false →
    let p := s.dev.plannedNs
    let ceiling := s.dev.fld F.TCK_GOVERN_CEILING_NS
    let change := if s.dev.tick.gov = [n] ∧ p < ceiling then some (min ((p * 101 + 99) / 100) ceiling) else none
    0 < p →
    Gives .tickMarkerSend s fun t =>
      let slip := s.dev.tick.slips.contains n
      t.tick.fires = s.dev.tick.fires ++ [⟨s.dev.edge at_, at_, n, slip, false, false, change⟩] ∧ t.tick.gov = [] ∧
      t.tick.unsent = some (n + 1, at_ + s.dev.baseNs (change.getD p)) ∧
      t.time = max s.dev.time (at_ - s.dev.baseNs (s.dev.fld F.TCK_LEAD_LEAD_NS)) ∧
      (∀ p < 4, bitOf (s.dev.fld F.TCK_CTRL_DOWN_MASK) p = true → s.dev.up p = true →
        Sends s.dev t p (.marker ⟨s.dev.fld F.TCK_CTRL_DOMAIN_ID, n % 2 ^ 16, slip, change.isSome, false, false, change.getD 0, 0⟩)) ∧
      t.mem = s.dev.mem ∧ t.cores = s.dev.cores) ∧
  (∀ (s : State) (p : PortId) (m : Marker) (residence : Nat), s.live = true → s.dev.bit F.TCK_CTRL_IS_MASTER = false →
    m.domain = s.dev.fld F.TCK_CTRL_DOMAIN_ID →
    let delay := m.delay + s.dev.fld (linkDelay p)
    let lead := s.dev.fld F.TCK_LEAD_LEAD_NS * 144
    let at_ := s.dev.edge (s.dev.time + lead - delay * 9)
    delay * 9 ≤ lead → s.dev.tick.fires = [] →
    (Running s.dev → m.start = false → m.tick % 2 ^ 16 = (s.dev.fld F.TCK_NUMBER_NUMBER + 1) % 2 ^ 16 →
      (∀ q, s.dev.tick.predicted = some q → s.dev.time ≤ q) →
      Gives (.tickMarker p m residence) s fun t =>
        t.tick.fires = [⟨at_, at_, s.dev.fld F.TCK_NUMBER_NUMBER + 1, m.slip, false, m.stop, if m.change then some m.period else none⟩] ∧
        t.tick.predicted = some at_ ∧
        (∀ q < 4, bitOf (s.dev.fld F.TCK_CTRL_DOWN_MASK) q = true → s.dev.up q = true → Sends s.dev t q (.marker { m with delay := delay + residence })) ∧
        t.mem = s.dev.mem ∧ t.cores = s.dev.cores) ∧
    (s.dev.fld F.TCK_STATUS_STATE = 1 → m.start = true →
      Gives (.tickMarker p m residence) s fun t =>
        t.tick.fires = [⟨at_, at_, s.dev.fld F.TCK_START_START, m.slip, true, m.stop, if m.change then some m.period else none⟩] ∧
        t.mem = s.dev.mem ∧ t.cores = s.dev.cores)) ∧
  (∀ (s : State) (at_ : Nat), s.live = true → Running s.dev → s.dev.bit F.TCK_CTRL_IS_MASTER = false → s.dev.tick.fires = [] →
    s.dev.tick.predicted = some at_ →
    Gives .markerMissing s fun t =>
      t.bit F.TCK_EVENT_MARKER_MISSING = true ∧ Pulled t 2 ∧ Stopped t ∧ t.time = max s.dev.time (at_ + s.dev.fld F.TCK_CTRL_GRACE_US * 144000) ∧
      t.fld F.TCK_NUMBER_NUMBER = s.dev.fld F.TCK_NUMBER_NUMBER)

/-- What the commands of a domain and its markers do. Where the manual is silent the model chooses: log 63, 64, 65, 160, 171, 172. -/
def Obligations.DomainsAndMarkers : Prop := Claims.DomainControl ∧ Claims.Markers

/-- R23, R24, R39, R40, R46: what a boundary that fires does to the tick number, the schedule index and the state of the tick unit. Where the manual is silent the model chooses: log 145, 146. -/
def Obligations.Boundaries : Prop :=
  ∀ (s : State) (demand : BitVec 16) (f : Fire) (rest : List Fire), s.live = true → s.dev.tick.fires = f :: rest →
    s.dev.bit F.TTH_MODE_REQ_PENDING = false → s.dev.ring.held = none →
    (Running s.dev → f.start = false → f.stop = false → f.slip = false → Gives (.tickBoundary demand) s fun t =>
      t.fld F.TCK_NUMBER_NUMBER = f.tick % 2 ^ 64 ∧ t.fld F.TCK_SCHED_INDEX = (s.dev.fld F.TCK_SCHED_INDEX + 1) % 2 ^ 64 ∧
      t.fld F.TCK_STATUS_STATE = 2 ∧ t.tick.fires = rest ∧ t.tick.settled = false ∧ t.time = max s.dev.time f.at_ ∧
      (∀ p, f.period = some p → t.fld F.TCK_PERIOD_CURRENT_NS = p % 2 ^ 20 ∧ t.bit F.TCK_EVENT_PERIOD_CHANGE = true) ∧
      (f.period = none → t.fld F.TCK_PERIOD_CURRENT_NS = s.dev.fld F.TCK_PERIOD_CURRENT_NS)) ∧
    (Running s.dev → f.start = false → f.stop = false → f.slip = true → Gives (.tickBoundary demand) s fun t =>
      t.fld F.TCK_NUMBER_NUMBER = f.tick % 2 ^ 64 ∧ t.fld F.TCK_SCHED_INDEX = s.dev.fld F.TCK_SCHED_INDEX ∧ t.fld F.TCK_STATUS_STATE = 3 ∧
      t.bit F.TCK_EVENT_SLIP = true ∧ t.fld F.TCK_MISS_COUNT_SLIPS = min (s.dev.fld F.TCK_MISS_COUNT_SLIPS + 1) (2 ^ 32 - 1) ∧ t.tick.fires = rest) ∧
    (Running s.dev → f.start = false → f.stop = true → Gives (.tickBoundary demand) s fun t =>
      Stopped t ∧ t.fld F.TCK_NUMBER_NUMBER = s.dev.fld F.TCK_NUMBER_NUMBER ∧ t.fld F.TCK_SCHED_INDEX = s.dev.fld F.TCK_SCHED_INDEX) ∧
    (s.dev.fld F.TCK_STATUS_STATE = 1 → f.start = true → f.stop = false → f.slip = false → Gives (.tickBoundary demand) s fun t =>
      t.fld F.TCK_NUMBER_NUMBER = f.tick % 2 ^ 64 ∧ t.fld F.TCK_SCHED_INDEX = 0 ∧ t.fld F.TCK_STATUS_STATE = 2 ∧ t.tick.fires = rest ∧
      t.fld F.TCK_PERIOD_CURRENT_NS = f.period.getD (s.dev.fld F.TCK_PERIOD_PERIOD_NS) % 2 ^ 20)

/-- R41 to R49: the settle window with and without a miss, its overrun, notices, slips, and the governed period. Where the manual is silent the model chooses: log 142, 159. -/
def Obligations.MissesAndSlips : Prop :=
  (∀ (s : State) (at_ : Nat), s.live = true → Running s.dev → s.dev.tick.settled = false → s.dev.tick.predicted = some at_ →
    let now := max s.dev.time (at_ - s.dev.baseNs 500)
    let d : Dev := { s.dev with time := now, tick := { s.dev.tick with settled := true } }
    (d.lateItems = [] → exec .settleWindowOpen s = .next { s with dev := d }) ∧
    (d.lateItems ≠ [] → Gives .settleWindowOpen s fun t =>
      t.bit F.TCK_EVENT_MISS = true ∧ t.tick.missItems = d.lateItems ∧ t.tick.missAt = now ∧ t.tick.settled = true ∧
      t.fld F.TCK_MISS_LAST_TICK = s.dev.fld F.TCK_NUMBER_NUMBER % 2 ^ 32 ∧
      t.bit F.TCK_MISS_CORE = d.lateItems.any (·.1 == 16) ∧ t.bit F.TCK_MISS_KEEL = d.lateItems.any (·.1 == 20) ∧
      t.fld F.TCK_MISS_COUNT_MISSES = min (s.dev.fld F.TCK_MISS_COUNT_MISSES + 1) (2 ^ 32 - 1) ∧ t.mem = s.dev.mem)) ∧
  (∀ (s : State), s.live = true → s.dev.tick.missItems ≠ [] → s.dev.tick.missItems.all s.dev.itemDone = true →
    Gives .missOverrun s fun t => t.tick.missItems = [] ∧
      t.fld F.TCK_MISS_OVERRUN = min 0xFFFF ((s.dev.time - s.dev.tick.missAt + 2303) / 2304) ∧ t.mem = s.dev.mem ∧ t.cores = s.dev.cores) ∧
  (∀ (s : State) (p : PortId) (domain : BitVec 16) (tick : BitVec 32) (sources : BitVec 7), s.live = true → Running s.dev →
    domain.toNat = s.dev.fld F.TCK_CTRL_DOMAIN_ID →
    (s.dev.bit F.TCK_CTRL_IS_MASTER = false → s.dev.fld F.TCK_CTRL_UP_PORT < 4 → s.dev.up (s.dev.fld F.TCK_CTRL_UP_PORT) = true →
      Gives (.missNotice p domain tick sources) s fun t =>
        Sends s.dev t (s.dev.fld F.TCK_CTRL_UP_PORT) (.missNotice domain.toNat tick.toNat sources.toNat) ∧ t.regs = s.dev.regs) ∧
    (∀ n at_, s.dev.bit F.TCK_CTRL_IS_MASTER = true → tick.toNat = s.dev.fld F.TCK_NUMBER_NUMBER % 2 ^ 32 → s.dev.tick.unsent = some (n, at_) →
      let target := max (s.dev.fld F.TCK_NUMBER_NUMBER + s.dev.fld F.TCK_CTRL_SLIP_LAG) n
      (∀ k ∈ s.dev.tick.slips, k ≤ s.dev.fld F.TCK_NUMBER_NUMBER ∨ target < k) →
      Gives (.missNotice p domain tick sources) s fun t => t.tick.slips = s.dev.tick.slips ++ [target] ∧ t.regs = s.dev.regs)) ∧
  (∀ (s : State) (k : Nat), s.live = true → Running s.dev → s.dev.bit F.TCK_CTRL_IS_MASTER = true → k ∈ s.dev.tick.slips →
    8 ≤ (s.dev.tick.slips.filter fun j => decide (k ≤ j) && decide (j < k + 16)).length →
    Gives .slipLimit s fun t => t.bit F.TCK_EVENT_SLIP_LIMIT = true ∧ Pulled t 3 ∧ Stopped t) ∧
  (∀ (s : State), s.live = true → Running s.dev → s.dev.bit F.TCK_CTRL_IS_MASTER = true → s.dev.bit F.TCK_CTRL_MODE = true →
    s.dev.fld F.TCK_GOVERN_MISS_THRESH ≤
      (s.dev.tick.slipLog.filter fun k => decide (s.dev.fld F.TCK_NUMBER_NUMBER < k + s.dev.fld F.TCK_GOVERN_WINDOW)).length →
    s.dev.tick.gov = [] → s.dev.tick.soft = none →
    let p := s.dev.plannedNs
    (p < s.dev.fld F.TCK_GOVERN_CEILING_NS → Gives .governedLengthening s fun t =>
      (∀ k, s.dev.tick.slips.getLast? = some k → t.tick.gov = [k]) ∧ t.tick.slipLog = [] ∧ t.regs = s.dev.regs) ∧
    (s.dev.fld F.TCK_GOVERN_CEILING_NS ≤ p → Gives .governedLengthening s fun t => t.bit F.TCK_EVENT_CEILING = true ∧ t.tick.gov = [] ∧ t.tick.slipLog = []))

/-- R30, R36, R37: link delays by probes, and the time base by PTP. -/
def Sys2Proof.Claims.TimeKeeping : Prop :=
  (∀ (s : State) (p : PortId), s.live = true → s.dev.up p = true →
    Gives (.delayProbe p) s fun t => Sends s.dev t p (.probe (s.dev.time / 9 % 2 ^ 48)) ∧ t.regs = s.dev.regs ∧ t.mem = s.dev.mem) ∧
  (∀ (s : State) (p : PortId) (time : BitVec 48) (turnaround : BitVec 32), s.live = true → s.dev.up p = true →
    Gives (.probeReceived p time turnaround) s fun t => Sends s.dev t p (.probeReply time.toNat turnaround.toNat) ∧ t.regs = s.dev.regs) ∧
  (∀ (s : State) (p : PortId) (time : BitVec 48) (turnaround : BitVec 32), s.live = true →
    exec (.probeReply p time turnaround) s = .next (s.on fun d =>
      d.setFld (linkDelay p) (min 0xFFFF (((d.time / 9 + 2 ^ 48 - time.toNat) % 2 ^ 48 - turnaround.toNat) / 2)))) ∧
  (∀ (s : State) (v6 : Bool) (seq t1 : Nat) (corr : Int), s.live = true → s.dev.bit F.TCK_CTRL_IS_MASTER = true → s.dev.fld F.ETH_STATUS_LINK = 2 →
    let now : Int := s.dev.tai
    (Gives (.ptpMessage seq (.sync v6 true t1 corr)) s fun t =>
      t.tick.ptp = some ⟨v6, seq, none, now, none⟩ ∧ t.eth = s.dev.eth ∧ t.regs = s.dev.regs ∧ t.mem = s.dev.mem) ∧
    (Gives (.ptpMessage seq (.sync v6 false t1 corr)) s fun t =>
      t.tick.ptp = some ⟨v6, seq, some (t1 + corr), now, some (seq, now)⟩ ∧ t.eth.out = s.dev.eth.out ++ [.delayReq v6 seq] ∧ t.mem = s.dev.mem) ∧
    (∀ e : Ptp, s.dev.tick.ptp = some e → e.seq = seq → e.t1 = none →
      Gives (.ptpMessage seq (.followUp t1 corr)) s fun t =>
        t.tick.ptp = some ⟨e.v6, seq, some (t1 + corr), e.t2, some (seq, now)⟩ ∧ t.eth.out = s.dev.eth.out ++ [.delayReq e.v6 seq] ∧
        t.mem = s.dev.mem) ∧
    (∀ (e : Ptp) (left t3 : Int), s.dev.tick.ptp = some e → e.t1 = some left → e.req = some (seq, t3) →
      let offset := ((e.t2 - left) - ((t1 : Int) - corr - t3)) / 2
      Gives (.ptpMessage seq (.delayResp t1 corr)) s fun t =>
        t.tick.ptp = none ∧ t.bit F.TCK_STATUS_PTP_LOCK = true ∧ t.mem = s.dev.mem ∧
        (s.dev.bit F.TCK_CTRL_RUN = false →
          t.tick.taiBase = ((s.dev.taiUnits : Int) - offset * 144).toNat ∧ t.tick.taiFrom = s.dev.time ∧ t.tick.ppb = s.dev.tick.ppb) ∧
        (s.dev.bit F.TCK_CTRL_RUN = true → -50000 ≤ s.dev.tick.ppb → s.dev.tick.ppb ≤ 50000 →
          t.taiUnits = s.dev.taiUnits ∧ -50000 ≤ t.tick.ppb ∧ t.tick.ppb ≤ 50000 ∧ (0 < offset → t.tick.ppb ≤ s.dev.tick.ppb) ∧
          (offset < 0 → s.dev.tick.ppb ≤ t.tick.ppb)))) ∧
  (∀ (s : State), s.live = true → s.dev.bit F.TCK_STATUS_PTP_LOCK = true →
    Gives .ptpLoss s fun t => t.bit F.TCK_STATUS_PTP_LOCK = false ∧ t.bit F.TCK_EVENT_PTP_LOSS = true ∧ t.mem = s.dev.mem)

/-- What elections and the keeping of time do. Where the manual is silent the model chooses: log 19, 30, 173. -/
def Obligations.ElectionsAndTime : Prop := Claims.Elections ∧ Claims.TimeKeeping

namespace Sys2Proof.Claims

/-- The spool or packet of a direction lands in its slot. -/
def LandingAt (d : Dev) (dir i : Nat) : Prop := d.landing dir i = true

/-- A tail is read back as FP32 sums of what stood there and of a core's partial (R83, R85, R88). -/
def sumBytes (old part : List Byte) : List Byte := (List.zipWith fp32Add (tailVals 0 1024 old) (tailVals 0 1024 part)).flatMap fun v => leBytes 4 v

/-- Relay traffic of a direction's packet comes in. -/
def Receiving (d : Dev) (dir k : Nat) : Prop := d.relaySlot dir = k ∧ d.receiving dir = true

end Sys2Proof.Claims

/-! ## The carousel -/

/-- R54, R58 to R69, R74, R78: enabling and changing the mode, and a spool's staging, arrival, forwarding and expansion. Where the manual is silent the model chooses: log 71, 73, 144, 161, 174, 175, 179. -/
def Obligations.Carousel : Prop :=
  (∀ (s : State) (v : Word), s.live = true → s.dev.bit F.TTH_STATUS_ACTIVE = false → s.dev.bit F.TTH_CTRL_MODE = false → 4 ≤ s.dev.ringN →
    s.dev.ringN ≤ 8192 → s.dev.portUsable (s.dev.fld F.TTH_STATION_NEXT_PORT) = true → s.dev.portUsable (s.dev.fld F.TTH_STATION_PREV_PORT) = true →
    Gives (.tthEnable fwTag v) s fun t => t.bit F.TTH_CTRL_ENABLE = true ∧ t.fld F.TTH_CTRL_CW_EN = F.TTH_CTRL_CW_EN.of v ∧
      t.fld F.TTH_CTRL_CCW_EN = F.TTH_CTRL_CCW_EN.of v ∧ t.bit F.TTH_CTRL_MODE = false ∧ t.mem = s.dev.mem) ∧
  (∀ (s : State) (v : Word), s.live = true → F.TTH_MODE_REQ_TARGET.of v ≠ s.dev.fld F.TTH_CTRL_MODE →
    (Running s.dev → s.dev.sched % 2 ^ 48 < F.TTH_MODE_REQ_AT_INDEX.of v) →
    (F.TTH_MODE_REQ_TARGET.of v = 1 → s.dev.bit F.TTH_CTRL_ENABLE = true) →
    Gives (.modeRequest fwTag v) s fun t => t.bit F.TTH_MODE_REQ_PENDING = true ∧ t.fld F.TTH_MODE_REQ_TARGET = F.TTH_MODE_REQ_TARGET.of v ∧
      t.fld F.TTH_MODE_REQ_AT_INDEX = F.TTH_MODE_REQ_AT_INDEX.of v ∧ t.ring = s.dev.ring ∧ t.mem = s.dev.mem) ∧
  (∀ (s : State) (dir : Dir) (staging : Bool), s.live = true →
    let i := if staging then s.dev.ownIdx dir else s.dev.arrIdx dir
    let k := slotFor dir i
    s.dev.tethered = true → s.dev.spoolAt dir i = true → i ≤ s.dev.sched + 1 → s.dev.landing dir i = false →
    (staging = true → s.dev.tick.settled = false ∧ s.dev.fld F.TCK_STATUS_STATE ≠ 3) →
    (s.dev.drained k = true → staging = false → Gives (.arrivalStart dir staging) s fun t =>
      LandingAt t dir i ∧ (t.slot k).own = false ∧ (t.slot k).hdr = none ∧ t.drained k = false ∧ t.mem = s.dev.mem) ∧
    (s.dev.drained k = true → staging = true → exec (.arrivalStart dir staging) s = .next s) ∧
    (s.dev.drained k = false → s.dev.bit F.TTH_CTRL_SLOT_FAULT = false → Gives (.arrivalStart dir staging) s fun t =>
      t.bit F.TTH_EVENT_BACKPRESSURE = true ∧ t.drained k = false ∧ (t.slot k).waitFrom.isSome = true ∧ t.mem = s.dev.mem)) ∧
  (∀ (s : State) (dir : Dir), s.live = true →
    let i := s.dev.ownIdx dir
    let k := slotFor dir i
    let entry := s.dev.fld (byDir dir F.TTH_LIST_CW_BASE F.TTH_LIST_CCW_BASE) * 32 + 32 * s.dev.roundOf i
    let bs := s.dev.rd entry 32
    let addr := kNat bs 0 8
    let body := kNat bs 8 4
    s.dev.tethered = true → s.dev.spoolAt dir i = true → i ≤ s.dev.sched + 1 → s.dev.tick.settled = false → s.dev.fld F.TCK_STATUS_STATE ≠ 3 →
    s.dev.landing dir i = false → s.dev.repairing entry 32 = false → s.dev.repairing addr body = false → s.dev.drained k = true →
    entry + 32 ≤ hbmSize → LinesServe s.dev entry 32 → entryBad (s.dev.tailFmt dir) bs = false →
    bitOf (kNat bs 24 2) 0 = false → body ≠ 0 → LinesServe s.dev addr body → s.dev.keelWrites addr body = false →
    Gives (.spoolStaging dir) s fun t =>
      LandingAt t dir i ∧ (t.slot k).hdrOk = true ∧ (t.slot k).own = true ∧
      t.rd (landSlot k) 64 = spoolHdrBytes s.dev.station dir false (kNat bs 12 4 != 0) (s.dev.roundOf i) s.dev.ringN i body (kNat bs 12 4)
        (kNat bs 16 4) (kNat bs 20 4) ∧
      t.rd (landSlot k + 64) body = s.dev.rd addr body ∧ ∀ a < landBase, t.mb a = s.dev.mb a) ∧
  (∀ (s : State) (dir : Dir) (h : SpoolHdr), s.live = true →
    let i := s.dev.ownIdx dir
    let k := slotFor dir i
    s.dev.tethered = true → LandingAt s.dev dir i → (s.dev.slot k).hdrOk = true → (s.dev.slot k).hdr = some h → s.dev.directoryOk k h = true →
    s.dev.sched < i →
    Gives (.stagingComplete dir) s fun t =>
      (t.slot k).ready = true ∧ t.arriving k = false ∧ t.ownIdx dir = i + s.dev.ringN ∧ t.mem = s.dev.mem) ∧
  (∀ (s : State) (dir : Dir) (header : BitVec 512), s.live = true →
    let i := s.dev.arrIdx dir
    let k := slotFor dir i
    let bs := leBytes 64 header.toNat
    let h := spoolHdr bs
    s.dev.tethered = true → LandingAt s.dev dir i → (s.dev.slot k).hdrOk = false → h.crcOk = true → h.major = 1 → h.dir = dir.val →
    h.home = s.dev.homeAt dir (s.dev.offsetOf i) → h.seq = s.dev.roundOf i → h.n = s.dev.ringN →
    h.sched = s.dev.startIdx + s.dev.roundOf i * s.dev.ringN →
    Gives (.spoolHeaderIn dir header) s fun t =>
      (t.slot k).hdr = some h ∧ (t.slot k).hdrOk = true ∧ t.fld (F.TTH_SLOT_HOME k) = h.home ∧ Stored s.dev t (landSlot k) bs) ∧
  (∀ (s : State) (dir : Dir) (header : BitVec 512), s.live = true →
    let i := s.dev.arrIdx dir
    let h := spoolHdr (leBytes 64 header.toNat)
    s.dev.tethered = true → LandingAt s.dev dir i → (s.dev.slot (slotFor dir i)).hdrOk = false →
    (h.crcOk = false → Gives (.spoolHeaderIn dir header) s fun t => t.bit F.TTH_EVENT_HDR_ERR = true ∧ Pulled t 4) ∧
    (h.crcOk = true → h.major = 1 → h.seq ≠ s.dev.roundOf i →
      Gives (.spoolHeaderIn dir header) s fun t => t.bit F.TTH_EVENT_SEQ_ERR = true ∧ Pulled t 4)) ∧
  (∀ (s : State) (dir : Dir) (bytes : List Byte) (h : SpoolHdr), s.live = true →
    let i := s.dev.arrIdx dir
    let k := slotFor dir i
    s.dev.tethered = true → LandingAt s.dev dir i → (s.dev.slot k).hdrOk = true → (s.dev.slot k).hdr = some h → h.tailLen = 0 →
    bytes.length = h.bodyLen → (s.dev.wr (landSlot k + 64) bytes).directoryOk k h = true → s.dev.sched < i →
    Gives (.spoolLastByte dir bytes) s fun t =>
      (t.slot k).ready = true ∧ t.arriving k = false ∧ t.arrIdx dir = (if s.dev.offsetOf (i + 1) = 0 then i + 2 else i + 1) ∧
      Stored s.dev t (landSlot k + 64) bytes) ∧
  (∀ (s : State) (slot : Fin 6), s.live = true →
    let k := slot.val
    let p := s.dev.outPort (k / 3)
    s.dev.full k = true → (s.dev.slot k).live = true → s.dev.bit (F.TTH_SLOT_FLAGS_FORWARDED k) = false → s.dev.up p = true → s.dev.slotPayload p k = false →
    s.dev.links.vl0Stop = false → s.dev.bit F.TTH_CTRL_MODE = false → s.dev.slotTail k = none →
    Gives (.forwardingComplete slot) s fun t =>
      t.bit (F.TTH_SLOT_FLAGS_FORWARDED k) = true ∧
      t.drained k = (s.dev.drained k || s.dev.bit (F.TTH_SLOT_FLAGS_EXPANDED k)) ∧ t.mem = s.dev.mem) ∧
  (∀ (s : State) (slot : Fin 6), s.live = true →
    let k := slot.val
    s.dev.full k = true → s.dev.bit (F.TTH_SLOT_FLAGS_EXPANDED k) = false → s.dev.bit F.TTH_CTRL_MODE = false → (s.dev.slot k).hdr.isSome = true →
    s.dev.codec.secs.any (fun x => x.2.slot == k) = false → s.dev.slotTail k = none →
    Gives (.expansionComplete slot) s fun t =>
      t.bit (F.TTH_SLOT_FLAGS_EXPANDED k) = true ∧
      t.drained k = (s.dev.drained k || s.dev.bit (F.TTH_SLOT_FLAGS_FORWARDED k)) ∧ t.mem = s.dev.mem)

/-! ## Gradient tails -/

/-- R64, R82 to R92: a packer adds its core's partial to a block of the tail, in FP32; return hops and their trailers come home; a gradient whose
writes are done is reported. Where the manual is silent the model chooses: log 20, 72, 74, 75, 162, 177. -/
def Obligations.GradientTails : Prop :=
  (∀ (s : State) (slot : Fin 6) (b blocks : Nat) (d : Dev) (part : List Byte), s.live = true →
    let k := slot.val
    let at_ := s.dev.tailAt k + b * 4112
    s.dev.tethered = true → s.dev.full k = true → (s.dev.slot k).live = true → s.dev.slotTail k = some blocks → b < blocks →
    (s.dev.slot k).tailDone.contains b = false →
    s.dev.tailFmt (k / 3) = 0 → (s.dev.slot k).own = false → s.dev.partial_ (k / 3) b = some (d, part) →
    tailBlockOk 0 b (s.dev.rd at_ 4112) = true →
    Gives (.tailBlock slot b) s fun t =>
      t.rd (at_ + 16) 4096 = sumBytes ((s.dev.rd at_ 4112).drop 16) part ∧ (t.slot k).tailDone = (s.dev.slot k).tailDone ++ [b] ∧
      tailBlockOk 0 b (t.rd at_ 4112) = true ∧ ∀ a < landBase, t.mb a = s.dev.mb a) ∧
  (∀ (s : State) (dir : Dir) (header : BitVec 512) (blocks : List Byte), s.live = true →
    let h := spoolHdr (leBytes 64 header.toNat)
    let r := s.dev.retCount dir
    s.dev.tethered = true → r < s.dev.listLen dir → s.dev.startIdx + r * s.dev.ringN + (s.dev.ringN - 1) ≤ s.dev.sched →
    s.dev.ring.returns.any (fun x => x.dir == dir.val) = false → s.dev.headerCheck h dir s.dev.station r = none →
    (h.tailLen = 0 → Gives (.returnHop dir header blocks) s fun t => t.retCount dir = r + 1 ∧ t.ring.returns = s.dev.ring.returns ∧
      t.mem = s.dev.mem) ∧
    (64 ≤ h.tailLen → blocks.length = h.tailLen - 64 → Gives (.returnHop dir header blocks) s fun t =>
      t.ring.returns = s.dev.ring.returns ++ [⟨dir, h, blocks⟩] ∧ t.retCount dir = r ∧ t.mem = s.dev.mem)) ∧
  (∀ (s : State) (dir : Dir) (trailer : BitVec 512) (x : Return), s.live = true →
    let bs := leBytes 64 trailer.toNat
    s.dev.tethered = true → s.dev.ring.returns.find? (fun x => x.dir == dir.val) = some x → trailerOk (s.dev.tailFmt dir) s.dev.ringN bs = true →
    s.dev.repairing (s.dev.gradAt dir x.hdr.seq) 32 = false →
    (bitOf (kNat bs 3 1) 1 = true → Gives (.tailTrailerIn dir true trailer) s fun t =>
      t.bit F.TTH_RIDE_EVENT_GRAD_SKIP = true ∧ t.retCount dir = s.dev.retCount dir + 1 ∧ t.home.reqs = s.dev.home.reqs) ∧
    (bitOf (kNat bs 3 1) 1 = false → s.dev.bit (byDir dir F.TTH_GRAD_CW_VALID F.TTH_GRAD_CCW_VALID) = false →
      Gives (.tailTrailerIn dir true trailer) s fun t => t.bit F.TTH_RIDE_EVENT_NO_GRAD = true ∧ t.retCount dir = s.dev.retCount dir + 1) ∧
    (let a := s.dev.gradAt dir x.hdr.seq
     let e := s.dev.rd a 32
     let n := 64 * tailBlocks (s.dev.tailFmt dir) x.hdr.tailLen
     bitOf (kNat bs 3 1) 1 = false → s.dev.bit (byDir dir F.TTH_GRAD_CW_VALID F.TTH_GRAD_CCW_VALID) = true → LinesServe s.dev a 32 →
     kNat e 0 8 + 64 * n ≤ hbmSize → (∀ r ∈ s.dev.home.reqs, r.id < s.dev.home.nextId) →
     Gives (.tailTrailerIn dir true trailer) s fun t =>
       t.ring.grads = s.dev.ring.grads ++ [⟨dir, s.dev.home.nextId, s.dev.home.nextId + n, kNat e 16 8, false⟩] ∧
       t.home.reqs.length = s.dev.home.reqs.length + n ∧ t.mem = s.dev.mem)) ∧
  (∀ (s : State) (dir : Dir) (trailer : BitVec 512) (h : SpoolHdr), s.live = true →
    let bs := leBytes 64 trailer.toNat
    let i := s.dev.arrIdx dir
    let k := slotFor dir i
    s.dev.tethered = true → LandingAt s.dev dir i → (s.dev.slot k).hdrOk = true → (s.dev.slot k).hdr = some h → h.tailLen ≠ 0 →
    (trailerOk (s.dev.tailFmt dir) (s.dev.offsetOf i) bs = true → Gives (.tailTrailerIn dir false trailer) s fun t =>
      (t.slot k).trailerIn = true ∧ Stored s.dev t (s.dev.tailAt k + (h.tailLen - 64)) bs) ∧
    (trailerOk (s.dev.tailFmt dir) (s.dev.offsetOf i) bs = false → Gives (.tailTrailerIn dir false trailer) s fun t =>
      t.bit F.TTH_RIDE_EVENT_TAIL_ERR = true ∧ Pulled t 5)) ∧
  (∀ (s : State) (dir : Dir) (g : Grad), s.live = true → s.dev.ring.grads.find? (fun g => g.dir == dir.val) = some g →
    s.dev.home.reqs.any (fun r => decide (g.first ≤ r.id) && decide (r.id < g.last)) = false →
    (g.failed = true → Gives (.gradientWritesDone dir) s fun t =>
      t.bit F.TTH_RIDE_EVENT_GRAD_SKIP = true ∧ t.ring.grads = s.dev.ring.grads.erase g ∧ t.mem = s.dev.mem) ∧
    (g.failed = false → g.kcmd = 0 → Gives (.gradientWritesDone dir) s fun t =>
      t.bit F.TTH_RIDE_EVENT_GRAD_DONE = true ∧ t.ring.grads = s.dev.ring.grads.erase g ∧ t.mem = s.dev.mem) ∧
    (g.failed = false → g.kcmd ≠ 0 → s.dev.repairing g.kcmd 64 = false → (∀ q ∈ s.dev.ring.grads, q.last ≤ s.dev.home.nextId) →
      s.dev.kFull (if (s.dev.mb (g.kcmd + 1)).toNat < 12 then (s.dev.mb (g.kcmd + 1)).toNat else 0) (s.dev.rd g.kcmd 64) = false →
      Gives (.gradientWritesDone dir) s fun t => t.bit F.TTH_RIDE_EVENT_GRAD_DONE = true ∧ t.ring.grads = s.dev.ring.grads.erase g))

/-! ## Relay mode -/

/-- R96 to R102: a packet is launched, appended to and released; its header, vector, slices and end marker come in. Where the manual is silent the model chooses: log 76, 77. -/
def Obligations.Relay : Prop :=
  (∀ (s : State) (v : Word), s.live = true → F.TTH_RELAY_CMD_SLOT.of v ≠ 7 →
    let addr := F.TTH_RELAY_CMD_ADDR.of v * 64
    let len := F.TTH_RELAY_CMD_LEN64.of v * 64
    let k := s.dev.ring.seq
    let max := s.dev.fld F.TTH_RELAY_CTRL_SLICE_MAX * 64
    s.dev.launchRefused len = false → s.dev.tick.settled = false → s.dev.fld F.TCK_STATUS_STATE ≠ 3 → 0 < len → addr + len ≤ hbmSize →
    LinesServe s.dev addr len → s.dev.outPort 0 ≠ s.dev.outPort 1 → s.dev.up (s.dev.outPort 0) = true →
    Gives (.relayLaunch fwTag v) s fun t =>
      let bs := relayHdrBytes (s.dev.leadOf k) 0 (k % 65536) s.dev.ringN s.dev.sched len max ++ s.dev.rd addr len
      t.ring.launched = some ⟨k, s.dev.sched, max, false⟩ ∧ t.ring.seq = k + 1 ∧ t.mem = s.dev.mem ∧
      (t.port (s.dev.outPort 0)).lanes = (s.dev.port (s.dev.outPort 0)).lanes ++ [⟨0, 6, bs, 0, bs.length, none⟩]) ∧
  (∀ (s : State) (v : Word), s.live = true → F.TTH_RELAY_CMD_SLOT.of v ≠ 7 →
    s.dev.launchRefused (F.TTH_RELAY_CMD_LEN64.of v * 64) = false → s.dev.fld F.TCK_STATUS_STATE = 3 →
    Gives (.relayLaunch fwTag v) s fun t => t.ring.held.isSome = true ∧ t.links = s.dev.links) ∧
  (∀ (s : State) (v : Word), s.live = true → s.dev.relaying = true →
    let k := F.TTH_RELAY_CMD_SLOT.of v
    let addr := F.TTH_RELAY_CMD_ADDR.of v * 64
    let len := F.TTH_RELAY_CMD_LEN64.of v * 64
    0 < len → addr + len ≤ hbmSize → LinesServe s.dev addr len →
    (k < 6 → s.dev.bit (inflight k) = true → (s.dev.slot k).rOwn = false → len ≤ (s.dev.slot k).rMax →
      Gives (.relayAppend fwTag v) s fun t => (t.slot k).rOwn = true ∧ t.mem = s.dev.mem ∧
        (t.slot k).rOut = (s.dev.slot k).rOut + (if s.dev.meeting (s.dev.slot k).rSeq ∨ s.dev.full k = false then 0 else 1)) ∧
    (∀ q, k = 6 → s.dev.ring.launched = some q → q.own = false → len ≤ q.max →
      Gives (.relayAppend fwTag v) s fun t => t.ring.launched = some { q with own := true } ∧ t.mem = s.dev.mem)) ∧
  (∀ (s : State) (v : Word), s.live = true → s.dev.relaying = true → F.TTH_RELAY_CMD_SLOT.of v < 6 →
    s.dev.bit (inflight (F.TTH_RELAY_CMD_SLOT.of v)) = true →
    Gives (.relayRelease fwTag v) s fun t => t.bit (F.TTH_SLOT_FLAGS_EXPANDED (F.TTH_RELAY_CMD_SLOT.of v)) = true ∧ t.mem = s.dev.mem) ∧
  (∀ (s : State) (dir : Dir) (header : BitVec 512), s.live = true → s.dev.relaying = true →
    let n := s.dev.expected dir
    let k := slotFor dir n
    let bs := leBytes 64 header.toNat
    s.dev.ring.turnaround = false → s.dev.arriving k = false → s.dev.drained k = true → crc32c (bs.take 60) = kNat bs 60 4 →
    kNat bs 1 1 = 1 → kNat bs 6 2 = s.dev.ringN → kNat bs 4 2 = n % 65536 → kNat bs 2 2 % 8192 = s.dev.leadOf n → kNat bs 2 2 / 8192 % 2 = dir.val →
    Gives (.relayHeaderIn dir header) s fun t =>
      (t.slot k).rSeq = n ∧ (t.slot k).rVec = kNat bs 16 4 ∧ (t.slot k).rMax = kNat bs 20 4 ∧ t.bit (inflight k) = true ∧ t.arriving k = true ∧
      Store.get (fun _ => 0) t.ring.cur dir = n + 1 ∧ Stored s.dev t (landSlot k) bs) ∧
  (∀ (s : State) (dir : Dir) (k : Nat), s.live = true → Receiving s.dev dir k →
    let q := s.dev.slot k
    (∀ vec : List Byte, s.dev.arriving k = true → vec.length = q.rVec → Gives (.relayVectorIn dir vec) s fun t =>
      t.full k = true ∧ t.arriving k = false ∧ (t.slot k).rPos = q.rPos + vec.length ∧ Stored s.dev t (landSlot k + q.rPos) vec) ∧
    (∀ slice : List Byte, s.dev.full k = true → slice.length = 16 + kNat slice 4 4 → crc32c (slice.drop 16) = kNat slice 12 4 →
      Gives (.relaySliceIn dir slice) s fun t =>
        (t.slot k).rIn = q.rIn + 1 ∧ (t.slot k).rOut = q.rOut + 1 ∧ Stored s.dev t (landSlot k + q.rPos) slice) ∧
    (∀ slice : List Byte, s.dev.full k = true → slice.length = 16 + kNat slice 4 4 → crc32c (slice.drop 16) ≠ kNat slice 12 4 →
      Gives (.relaySliceIn dir slice) s fun t => t.bit F.TTH_RIDE_EVENT_RELAY_ERR = true ∧ Pulled t 6) ∧
    (∀ marker : BitVec 128, s.dev.full k = true → s.dev.meeting q.rSeq = false → Gives (.relayEndMarker dir marker) s fun t =>
      (t.slot k).rEndIn = true ∧ t.bit (complete k) = true ∧ (q.rOwn = true → (t.slot k).rEndOut = true) ∧
      Stored s.dev t (landSlot k + q.rPos) (leBytes 16 marker.toNat)) ∧
    (∀ marker : BitVec 128, s.dev.full k = true → s.dev.meeting q.rSeq = true →
      kNat (leBytes 16 marker.toNat) 4 4 = (if dir.val = 0 then s.dev.ringN / 2 else (s.dev.ringN + 1) / 2 - 1) →
      Gives (.relayEndMarker dir marker) s fun t => (t.slot k).rEndIn = true ∧ t.bit (complete k) = true ∧
        t.bit (F.TTH_SLOT_FLAGS_FORWARDED k) = true))

/-! ## The ripcord -/

/-- R79, R351, R355, R356, R440, R441: a ripcord pulled here or received stops a running domain's tick unit, tether engine and scheduled cores, and
goes on; fault reports name the lost devices; and the bridle numbers the repaired ring. Where the manual is silent the model chooses: log 36, 82. -/
def Obligations.Ripcords : Prop :=
  (∀ (s : State) (v : Word), s.live = true → Gives (.telRipcordPull fwTag v) s fun t =>
    Pulled t 13 ∧ t.fld F.TEL_RIPCORD_OWN_SERIAL = (s.dev.fld F.TEL_RIPCORD_OWN_SERIAL + 1) % 2 ^ 16 ∧ t.mem = s.dev.mem ∧
    (Running s.dev → Stopped t ∧ t.bit F.TTH_STATUS_ACTIVE = false ∧ t.links.vl0Stop = true ∧
      ∀ n < 144, s.dev.coreState n = 2 → t.coreState n = 4 ∧ (t.core n).stopped = true)) ∧
  (∀ (s : State) (p : PortId) (domain : BitVec 16) (cause : BitVec 8) (x : BitVec 7) (y : BitVec 6) (serial : BitVec 16), s.live = true →
    s.dev.up p = true → domain.toNat = s.dev.fld F.LNK_REGION_DOMAIN_ID →
    (s.dev.links.seen.contains (x.toNat, y.toNat, serial.toNat) = true → exec (.ripcord p domain cause x y serial) s = .next s) ∧
    (s.dev.links.seen.contains (x.toNat, y.toNat, serial.toNat) = false → Gives (.ripcord p domain cause x y serial) s fun t =>
      t.bit F.TEL_EVENT_RIPCORD = true ∧ t.bit F.LNK_DEV_EVENT_RIPCORD_SEEN = true ∧ t.fld F.TEL_RIPCORD_ORIGIN_X = x.toNat ∧
      t.fld F.TEL_RIPCORD_ORIGIN_Y = y.toNat ∧ t.fld F.TEL_RIPCORD_SERIAL = serial.toNat ∧ t.mem = s.dev.mem ∧
      (∀ q < 4, q ≠ p.val → s.dev.portIn q = true → s.dev.up q = true →
        Sends s.dev t q (.ripcord domain.toNat cause.toNat x.toNat y.toNat serial.toNat)) ∧
      (Running s.dev → Stopped t))) ∧
  (∀ (s : State) (p : PortId) (domain : BitVec 16) (x : BitVec 7) (y : BitVec 6) (cause : BitVec 8), s.live = true → s.dev.up p = true →
    domain.toNat = s.dev.fld F.LNK_REGION_DOMAIN_ID → s.dev.links.faults.contains (x.toNat, y.toNat) = false →
    Gives (.faultReport p domain x y cause) s fun t =>
      t.links.faults = s.dev.links.faults ++ [(x.toNat, y.toNat)] ∧ t.regs = s.dev.regs ∧ t.mem = s.dev.mem ∧
      ∀ q < 4, q ≠ p.val → s.dev.portIn q = true → s.dev.up q = true → Sends s.dev t q (.faultReport domain.toNat x.toNat y.toNat cause.toNat)) ∧
  (∀ (s : State) (at_ : Nat), s.live = true → s.dev.links.faultFrom = some at_ → s.dev.links.faults ≠ [] → s.dev.quadAligned = true →
    s.dev.routesFixed = false → s.dev.electing = false →
    let cut := s.dev.links.faults.map fun v => (v.1 / 2, v.2 / 2)
    let tree := keptTree (s.dev.quads.filter fun q => !(cut.contains q))
    let ok := fun x y => tree.any (·.1 == (x / 2, y / 2))
    ok (s.dev.fld F.LNK_COORD_X) (s.dev.fld F.LNK_COORD_Y) = true → (s.dev.bridleRoutes ok).isSome = true →
    Gives .bridleRepair s fun t =>
      t.time = max s.dev.time (at_ + s.dev.fld F.LNK_CTRL_FAULT_WAIT * 144000) ∧ t.fld F.TTH_STATION_N = 4 * tree.length % 2 ^ 14 ∧
      t.tick.best.isSome = true ∧ t.bit F.TCK_CTRL_IS_MASTER = false ∧ t.mem = s.dev.mem)

namespace Sys2Proof.Claims

/-- A table command is accepted: it is under way with a slot and a table, and BUSY shows it. -/
def TableTaken (s : State) (op k : Nat) (table : List Byte) (t : Dev) : Prop :=
  t.bit F.CDC_TBL_STATUS_BUSY = true ∧ t.codec.op = some ⟨op, k, table, none⟩ ∧ t.codec.held = s.dev.codec.held ∧ t.mem = s.dev.mem ∧
  ((op = 2 ∨ op = 4) → t.fld (F.CDC_SLOT_GEN_STATE k) = 2)

/-- A board address names this device's HBM, whose lines serve n bytes there. -/
def InHbm (d : Dev) (a n : Nat) : Prop := a < 2 ^ 48 ∧ a / 2 ^ 44 = d.slotNo ∧ a % 2 ^ 44 + n ≤ hbmSize ∧ a % 2 ^ 44 < hbmSize ∧ LinesServe d (a % 2 ^ 44) n

/-- Memory serves n bytes for a tag: lines of HBM, or a core's scratchpad through its network port (R117, R118, R319, R324). -/
def Serves (d : Dev) (tag a n : Nat) : Prop :=
  (a + n ≤ hbmSize ∧ LinesServe d a n) ∨ ∃ (c : CoreId) (off : Nat), a = scpWin c + off ∧ off + n ≤ 0x600000 ∧
    d.portCheck c tag off n true = none ∧ (d.core c).badCw = []

/-- A board address names memory of this device that serves n bytes for a tag. -/
def Local (d : Dev) (tag a n : Nat) : Prop := a < 2 ^ 48 ∧ a / 2 ^ 44 = d.slotNo ∧ Serves d tag (a % 2 ^ 44) n

/-- The descriptor of an identity holds what q holds in the fields that advance. -/
def Advanced (t : Dev) (q : Desc) (moved out blocks : Nat) : Prop :=
  ∃ x ∈ t.str.descs, x.id = q.id ∧ x.moved = moved ∧ x.out = out ∧ x.blocks = blocks ∧ x.err = false

end Sys2Proof.Claims

/-! ## The codec -/

/-- R246 to R248, R251, R262: table commands as they are accepted and as they complete, and the packers' seeds. -/
def Sys2Proof.Claims.CodecTables : Prop :=
  (∀ (s : State) (v : Word), s.live = true → s.dev.bit F.CDC_TBL_STATUS_BUSY = false → s.dev.bit F.CDC_TDIR_VALID = true →
    let k := 16 * (v.toNat / 2 ^ 48 % 2048) + v.toNat / 2 ^ 44 % 16
    let a := v.toNat / 128 % 2 ^ 37 * 128
    let cs := (List.range 256).map fun i => leNat (s.dev.rd (a + 4 * i) 4)
    s.dev.fld (F.CDC_SLOT_GEN_REFS k) = 0 →
    (s.dev.readWaits a 1024 = false →
      (∀ ls, a + 1024 ≤ hbmSize → LinesServe s.dev a 1024 → buildLens cs = some ls →
        Gives (.build fwTag v) s (TableTaken s 1 k (tableOf ls)) ∧ Gives (.buildInstall fwTag v) s (TableTaken s 4 k (tableOf ls))) ∧
      (a + 128 ≤ hbmSize → LinesServe s.dev a 128 → tableOk (s.dev.rd a 128) = true →
        Gives (.install fwTag v) s (TableTaken s 2 k (s.dev.rd a 128)))) ∧
    Gives (.retire fwTag v) s (TableTaken s 3 k [])) ∧
  (∀ (s : State) (op k : Nat) (table : List Byte), s.live = true → s.dev.codec.op = some ⟨op, k, table, none⟩ → table.length = 128 → k < 32768 →
    let arg := 128 * s.dev.fld F.CDC_TBL_ARG_ADDR
    let home := s.dev.tableAt k
    ((op = 1 ∨ op = 4) → LinesServe s.dev arg 128 ∧ s.dev.writeWaits arg table = false) →
    ((op = 2 ∨ op = 4) → LinesServe s.dev home 128 ∧ s.dev.writeWaits home table = false) →
    Gives .tableCommandDone s fun t =>
      t.codec.op = none ∧ t.bit F.CDC_TBL_STATUS_BUSY = false ∧ t.fld F.CDC_TBL_STATUS_RESULT = 0 ∧ t.bit F.CDC_EVENT_TBL_DONE = true ∧
      (op = 1 → Stored s.dev t arg table) ∧ (op = 2 → Stored s.dev t home table) ∧ (op = 3 → t.mem = s.dev.mem) ∧
      (op = 4 → ∀ a, t.mb a = if home ≤ a ∧ a < home + 128 then table.getD (a - home) 0
        else if arg ≤ a ∧ a < arg + 128 then table.getD (a - arg) 0 else s.dev.mb a) ∧
      ((op = 2 ∨ op = 4) → t.fld (F.CDC_SLOT_GEN_STATE k) = 1 ∧ (∀ u < 24, t.heldTable u k = some table) ∧
        t.fld (F.CDC_SLOT_GEN_GEN k) = if s.dev.fld (F.CDC_SLOT_GEN_GEN k) = 255 then 1 else s.dev.fld (F.CDC_SLOT_GEN_GEN k) + 1) ∧
      (op = 3 → t.fld (F.CDC_SLOT_GEN_STATE k) = 0)) ∧
  (∀ (s : State) (v : Word), s.live = true →
    let p := v.toNat / 2 ^ 60
    (p < 12 ∨ p = 15) → Gives (.cdcSeed fwTag v) s fun t => t.mem = s.dev.mem ∧
      ∀ i < 768, t.pgen i = if p = 15 ∨ i / 64 = p then genSeed (v.toNat % 2 ^ 24) i else s.dev.pgen i)

/-- R251, R254 to R257, R260, R263: an expander takes a block of its section or of a descriptor, a packer makes one, and a unit fetches a table. -/
def Sys2Proof.Claims.CodecBlocks : Prop :=
  (∀ (s : State) (k : ClusterId) (sec : Section) (i : Nat) (table data : List Byte), s.live = true → s.dev.frontSec k = some sec → 1 < sec.left →
    let a := landSlot sec.slot + 64 + sec.pos
    let h := blockHdr (s.dev.rd a 16)
    let n := destCore k h.core
    let r := s.dev.xring n
    let b := r.tiles % 2
    let base := 4096 * s.dev.fld (ctxBase4k 0 n)
    let at_ := 128 * s.dev.fld (F.CDC_RING_BASE128 n) + b * (128 * s.dev.fld (F.CDC_RING_TILE128 n)) + r.opened.getD 0
    h.core < 12 → n ∉ s.dev.codec.dead → n ∉ sec.skip → s.dev.blockKind sec n h = none → s.dev.ringChan n = some i →
    (h.first = true → (s.dev.chan i).drained.getD b true = true) → s.dev.blockTable k (s.dev.fld F.CDC_CTRL_SPOOL_CTX) h = some table →
    decodeBody h table (s.dev.rd (a + 16) (h.stored - 16)) = .ok data → at_ + data.length ≤ 4096 * s.dev.fld (ctxBound4k 0 n) →
    s.dev.portCheck n s.dev.spoolJob (base + at_) data.length false = none → (s.dev.core n).badStore (base + at_) data.length = false →
    Gives (.blockExpand k) s fun t =>
      Stored s.dev t (scpWin n + base + at_) data ∧ t.frontSec k = some (sec.next h) ∧
      t.xring n = (if h.last then ⟨r.tiles + 1, none⟩ else ⟨r.tiles, some (r.opened.getD 0 + h.raw)⟩) ∧
      (t.chan i).order = (s.dev.chan i).order ++ (if h.last then [b] else [])) ∧
  (∀ (s : State) (k : ClusterId) (q : Desc) (table data : List Byte), s.live = true → s.dev.frontSec k = none → s.dev.frontDesc 3 k = some q →
    let a := q.src + q.moved
    let h := blockHdr (s.dev.rd (a % 2 ^ 44) 16)
    h.bad = false → h.core = 0 → h.flags = 0 → h.index = q.blocks → s.dev.staleGen q.ctx h = false → q.moved + h.stored ≤ q.len →
    s.dev.codecReadWaits a 16 = false → s.dev.codecReadWaits a h.stored = false → s.dev.codecWriteWaits (q.dst + q.out) data = false →
    s.dev.blockTable k q.ctx h = some table → InHbm s.dev a 16 → InHbm s.dev (a + 16) (h.stored - 16) →
    decodeBody h table (s.dev.rd ((a + 16) % 2 ^ 44) (h.stored - 16)) = .ok data → s.dev.dstRoom q (q.out + h.raw) = true →
    InHbm s.dev (q.dst + q.out) data.length →
    Gives (.blockExpand k) s fun t =>
      Stored s.dev t ((q.dst + q.out) % 2 ^ 44) data ∧ Advanced t q (q.moved + h.stored) (q.out + h.raw) (q.blocks + 1)) ∧
  (∀ (s : State) (k : ClusterId) (q : Desc) (p : Pack) (table : List Byte), s.live = true → s.dev.frontDesc 2 k = some q → q.pack = some p →
    q.tmpl.form = 0 → s.dev.tailWaits k = false →
    (q.moved < q.len →
      let n := min (128 * q.tmpl.block) (q.len - q.moved)
      let g := 16 * q.ctx + q.tmpl.slot
      let bs := s.dev.rd ((q.src + q.moved) % 2 ^ 44) n
      let coding := s.dev.packCodes q bs
      let st := (makeBlock (if coding then some (table, q.tmpl.slot, s.dev.fld (F.CDC_SLOT_GEN_GEN g)) else none) 0 0 q.blocks bs).2
      (coding = true → s.dev.heldTable (12 + k.val) g = some table) →
      s.dev.codecReadWaits (q.src + q.moved) n = false → s.dev.codecWriteWaits (q.dst + q.out) st = false →
      InHbm s.dev (q.src + q.moved) n → InHbm s.dev (q.dst + q.out) st.length →
      q.out + st.length ≤ q.tmpl.dstMax → q.moved + n < q.len →
      Gives (.packBlock k) s fun t =>
        Stored s.dev t ((q.dst + q.out) % 2 ^ 44) st ∧ Advanced t q (q.moved + n) (q.out + st.length) (q.blocks + 1)) ∧
    (q.len ≤ q.moved → s.dev.codecWriteWaits q.tmpl.result (p.result q.out q.blocks) = false →
      q.tmpl.result + 32 ≤ hbmSize → LinesServe s.dev q.tmpl.result 32 →
      Gives (.packBlock k) s fun t =>
        Stored s.dev t q.tmpl.result
          (leBytes 4 q.out ++ leBytes 4 q.blocks ++ leBytes 4 p.raw ++ leBytes 4 p.cod ++ leBytes 4 p.zero ++ zeros 12) ∧
        ∃ x ∈ t.str.descs, x.id = q.id ∧ x.pack = some { p with done := true })) ∧
  (∀ (s : State) (k : ClusterId) (packer : Bool) (cc : Fin 1025) (g : Nat), s.live = true → s.dev.wanted k packer = some g →
    let unit := if packer then 12 + k.val else k.val
    s.dev.fld (F.CDC_SLOT_GEN_STATE g) = 1 → s.dev.heldTable unit g = none →
    let home := s.dev.tableAt g
    s.dev.repairing home 128 = false → LinesServe s.dev home 128 →
    Gives (.tableFetch k packer cc) s fun t =>
      t.heldTable unit g = some (s.dev.rd home 128) ∧ t.bit F.CDC_EVENT_MISS = true ∧ t.mem = s.dev.mem)

/-- What the codec's tables and blocks do. Where the manual is silent the model chooses: log 21, 52, 53, 54, 55, 178. -/
def Obligations.CodecWork : Prop := Claims.CodecTables ∧ Claims.CodecBlocks

/-! ## Contexts and channels -/

/-- R266, R268, R288 to R290: a context is given to a job, leaves it, is killed with its job, and returns once its memories read as zero. -/
def Obligations.ContextCommands : Prop :=
  (∀ (s : State) (v : Word), s.live = true →
    let ctx := v.toNat / 2 ^ 48 % 2048
    let job := v.toNat / 2 ^ 32 % 65536
    (s.dev.fld (F.STR_CTX_STATE ctx) = 0 → job ≠ 0xFFFF → (∀ x ∈ s.dev.str.kills, x.1 ≠ job) →
      Gives (.alloc fwTag v) s fun t => t.fld (F.STR_CTX_STATE ctx) = 1 ∧ t.fld (F.STR_CTX_JOB ctx) = job ∧ t.mem = s.dev.mem ∧
        ∀ c < 2048, c ≠ ctx → t.reg (R.STR_CTX c) = s.dev.reg (R.STR_CTX c)) ∧
    (s.dev.fld (F.STR_CTX_STATE ctx) = 1 → (∀ p ∈ s.dev.boundTo ctx, s.dev.running p.1 = false) →
      Gives (.release fwTag v) s fun t => t.fld (F.STR_CTX_STATE ctx) = 2 ∧ t.mem = s.dev.mem ∧
        (∀ i < s.dev.str.fresh, (t.chan i).ctx = ctx → (t.chan i).live = false) ∧ (∀ q ∈ t.str.descs, q.ctx = ctx → q.cancelled = true) ∧
        (∀ p ∈ s.dev.boundTo ctx, t.bit (ctxValid p.2 p.1) = false) ∧
        ∃ r ∈ t.str.rels, r.ctx = ctx ∧ ∀ p ∈ s.dev.boundTo ctx, (p.1, p.2, s.dev.fld (ctxBase4k p.2 p.1), s.dev.fld (ctxBound4k p.2 p.1)) ∈ r.zero) ∧
    (job ≠ 0xFFFF →
      Gives (.kill fwTag v) s fun t => (∃ x ∈ t.str.kills, x.1 = job) ∧
        (∀ c < 2048, s.dev.fld (F.STR_CTX_STATE c) = 1 → s.dev.fld (F.STR_CTX_JOB c) = job → t.fld (F.STR_CTX_STATE c) = 2) ∧
        (∀ i < 1024, (s.dev.key i).job = job → (t.key i).live = false) ∧ (∀ r ∈ t.home.reqs, r.tag = job → r.away = true))) ∧
  (∀ (s : State) (ctx : BitVec 11) (r : Rel), s.live = true → s.dev.str.rels.find? (fun r => r.ctx == ctx.toNat && r.tables) = some r →
    let sets := r.zero.map (fun z => (z.1, z.2.1)) ++ r.regs
    Gives (.zeroingComplete ctx) s fun t =>
      (∀ z ∈ r.zero, z.1 < 144 → ∀ a, scpWin z.1 + 4096 * z.2.2.1 ≤ a → a < scpWin z.1 + 4096 * (z.2.2.1 + z.2.2.2) → t.mb a = 0) ∧
      (∀ z ∈ sets, z.1 < 144 → s.dev.running z.1 = false → ∀ q < 32, (t.core z.1).sreg q = 0) ∧
      (∀ x ∈ t.str.rels, x.ctx = ctx.toNat → x.zero = []) ∧
      ((∃ z ∈ sets, s.dev.running z.1 = true) → ∃ x ∈ t.str.rels, x.ctx = ctx.toNat ∧ x.tables = true) ∧
      ((∀ z ∈ sets, s.dev.running z.1 = false) →
        (∀ x < 16, t.fld (F.CDC_SLOT_GEN_STATE (16 * ctx.toNat + x)) = 0 ∧
          t.fld (F.CDC_SLOT_GEN_GEN (16 * ctx.toNat + x)) = s.dev.fld (F.CDC_SLOT_GEN_GEN (16 * ctx.toNat + x))) ∧
        (∀ x ∈ t.str.rels, x.ctx = ctx.toNat → x.tables = false) ∧
        (s.dev.bit F.TCK_CTRL_RUN = false → t.fld (F.STR_CTX_STATE ctx.toNat) = 0 ∧ t.fld (F.STR_CTX_JOB ctx.toNat) = 0 ∧
          ∀ x ∈ t.str.rels, x.ctx ≠ ctx.toNat))) ∧
  (∀ (s : State) (job : BitVec 16) (landing : Bool), s.live = true →
    s.dev.str.kills.find? (fun x => x.1 == job.toNat) = some (job.toNat, landing) → (∀ r ∈ s.dev.str.rels, r.kill ≠ some job.toNat) →
    Gives (.killDone job) s fun t =>
      (∀ x ∈ t.str.kills, x.1 ≠ job.toNat) ∧ t.bit F.STR_EVENT_KILL_DONE = true ∧
      (landing = true → ∀ a, landBase ≤ a → a < landBase + 0xC000000 → t.mb a = 0) ∧
      (s.dev.bit F.SEC_CTRL_ZERO_ON_KILL = false → t.sec = s.dev.sec ∧ ∀ a < landBase, t.mb a = s.dev.mb a) ∧
      (s.dev.bit F.SEC_CTRL_ZERO_ON_KILL = true → ∀ g ∈ t.grants, g.1 = job.toNat → g.2 = []))

/-- R269 to R273, R275, R280 to R285, R293: channels are created and destroyed, and pushed, armed and cancelled by firmware; cancelled work returns. Where the manual is silent the model chooses: log 16, 58. -/
def Obligations.Channels : Prop :=
  (∀ (s : State) (tag : Tag) (v : Word), s.live = true →
    let ctx := v.toNat / 2 ^ 51 % 2048
    let rec_ := v.toNat / 128 % 2 ^ 37 * 128
    let bs := s.dev.rd rec_ 128
    let job := s.dev.fld (F.STR_CTX_JOB ctx)
    rec_ + 128 ≤ hbmSize → s.dev.repairing rec_ 128 = false → LinesServe s.dev rec_ 128 → (tag = fwTag ∨ tag.toNat = job) →
    s.dev.fld (F.STR_CTX_STATE ctx) = 1 →
    (∀ i, recBad bs = false → (if s.dev.str.fresh < 8192 then some s.dev.str.fresh else s.dev.str.freed.head?) = some i →
      (kNat bs 0 1 = 5 → ∀ j < s.dev.str.fresh, (s.dev.chan j).live = true → (s.dev.chan j).typ = 5 →
        (s.dev.chan j).core = kNat bs 16 2 → (s.dev.chan j).set ≠ kNat bs 18 1) →
      let gen := if (s.dev.chan i).gen = 2047 then 1 else (s.dev.chan i).gen + 1
      Gives (.create tag v) s fun t =>
        t.chan i = { Chan.reset with live := true, gen := gen, typ := kNat bs 0 1, ctx := ctx, job := job, core := kNat bs 16 2, set := kNat bs 18 1,
                                     tickBound := bitOf (kNat bs 1 1) 0, count := kNat bs 4 4, slotBytes := kNat bs 8 4, periodNs := kNat bs 12 4,
                                     tmpl := templateOf (bs.drop 64) } ∧
        (∀ j, j ≠ i → t.chan j = s.dev.chan j) ∧ t.bit F.STR_EVENT_CHAN_DONE = true ∧
        Stored s.dev t (rec_ + 56) (leBytes 4 (kNat bs 0 1 * 2 ^ 24 + i * 2048 + gen) ++ zeros 3 ++ leBytes 1 1)) ∧
    (∀ i, s.dev.handleFor job (kNat bs 48 4) = some i → s.dev.chanBusy i = false →
      Gives (.destroy tag v) s fun t =>
        (t.chan i).live = false ∧ (t.chan i).cancelled = true ∧ (∀ j, j ≠ i → t.chan j = s.dev.chan j) ∧
        (∀ q ∈ t.str.descs, q.chan = i + 1 → q.cancelled = true) ∧ t.bit F.STR_EVENT_CHAN_DONE = true ∧
        Stored s.dev t (rec_ + 56) (zeros 7 ++ leBytes 1 1))) ∧
  (∀ (s : State) (v : Word) (i : Nat), s.live = true → s.dev.handleIdx (v.toNat % 2 ^ 32) = some i →
    let q := s.dev.chan i
    let m := q.tmpl
    (q.typ = 5 → q.ready < q.count → Gives (.strPush fwTag v) s fun t => t.chan i = { q with ready := q.ready + 1, pushes := q.pushes + 1 }) ∧
    (∀ k ks, q.typ = 2 ∨ q.typ = 3 → q.order = k :: ks → Gives (.strPush fwTag v) s fun t =>
      (t.chan i).order = ks ∧ (t.chan i).full = q.full.set k false ∧ (t.chan i).drained = q.drained.set k true) ∧
    (∀ a b, (q.typ = 1 ∧ m.kind = 1) ∨ (q.typ = 4 ∧ (m.kind = 2 ∨ m.kind = 3)) → (m.srcSpace = 1 ∨ m.srcSpace = 2) →
      (m.dstSpace = 1 ∨ m.dstSpace = 2) → s.dev.descRoom q.ctx = true →
      s.dev.relocTmpl 144 0 q.ctx q.job m (stepAddr m.src q.pushes m.srcStep) (stepAddr m.dst q.pushes m.dstStep) m.len
        (if m.kind = 2 then m.dstMax else if m.kind = 3 then 0 else m.len) = some (a, b) →
      Gives (.strPush fwTag v) s fun t => (t.chan i).pushes = (q.pushes + 1) % 2 ^ 32 ∧ ∃ x : Desc, t.str.descs = s.dev.str.descs ++ [x] ∧
        x.kind = m.kind ∧ x.chan = i + 1 ∧ x.ctx = q.ctx ∧ x.tag = q.job ∧ x.src = a ∧ x.dst = b ∧ x.len = m.len ∧ x.moved = 0 ∧
        x.deadline = s.dev.deadlineOf m ∧ x.cancelled = false ∧ x.err = false) ∧
    (q.typ = 2 → m.kind = 1 → (m.srcSpace = 1 ∨ m.srcSpace = 2) → (m.dstSpace = 1 ∨ m.dstSpace = 2) →
      (∀ a b, q.run = none → 0 < q.count → s.dev.fillOpen i = false → q.cancelled = false → q.drained.getD (q.fills % 2) true = true →
        s.dev.descRoom q.ctx = true →
        s.dev.relocTmpl 144 0 q.ctx q.job m (stepAddr m.src 0 m.srcStep) (m.dst + q.fills % 2 * q.slotBytes) q.slotBytes q.slotBytes = some (a, b) →
        Gives (.strArm fwTag v) s fun t => (t.chan i).run = some 1 ∧ (t.chan i).fills = q.fills + 1 ∧ (t.chan i).drained = q.drained ∧
          ∃ x : Desc, t.str.descs = s.dev.str.descs ++ [x] ∧ x.kind = 1 ∧ x.chan = i + 1 ∧ x.src = a ∧ x.dst = b ∧ x.len = q.slotBytes ∧
            x.slot = some (q.fills % 2)) ∧
      (q.run ≠ none → q.rearm = none → Gives (.strArm fwTag v) s fun t => t.chan i = { q with rearm := some q.firmware } ∧
        t.bit F.STR_EVENT_REARM_HELD = true)) ∧
    (q.typ ≠ 3 → q.typ ≠ 6 → Gives (.strCancel fwTag v) s fun t =>
      (t.chan i).run = none ∧ (t.chan i).rearm = none ∧ (t.chan i).live = true ∧
      ∀ x ∈ t.str.descs, x.chan = i + 1 → x.cancelled = true)) ∧
  (∀ (s : State), s.live = true → s.dev.bit F.TCK_CTRL_RUN = false → (∀ i, (s.dev.chan i).cancelled = true → (s.dev.chan i).run = none) →
    Gives .cancelledReturn s fun t => t.mem = s.dev.mem ∧
      t.str.descs = s.dev.str.descs.filter (fun q => q.cancelled = false) ∧
      (∀ i < s.dev.str.fresh, (s.dev.chan i).cancelled = true →
        ((s.dev.chan i).live = true → (t.chan i).cancelled = false ∧
          ((s.dev.chan i).typ = 2 → (t.chan i).full = [false, false] ∧ (t.chan i).drained = [true, true] ∧ (t.chan i).order = [])) ∧
        ((s.dev.chan i).live = false → i ∈ t.str.freed ∧ (t.chan i).live = false ∧ (t.chan i).gen = (s.dev.chan i).gen)) ∧
      (∀ r ∈ s.dev.str.rels, r.tables = false → t.fld (F.STR_CTX_STATE r.ctx) = 0 ∧ t.bit F.STR_EVENT_RELEASED = true ∧ r ∉ t.str.rels))

/-- R237, R270, R276 to R282, R286, R291: a mover's unit, the end of a descriptor, and the end of a fill. Where the manual is silent the model chooses: log 34, 56, 57. -/
def Obligations.Transfers : Prop :=
  (∀ (s : State) (m : Fin 24) (peer : Option (List Byte)), s.live = true →
    (∀ i < s.dev.str.fresh, (s.dev.chan i).run.isSome = true → s.dev.fillOpen i = true) →
    let due := (s.dev.str.descs.filter (fun q => q.eligible (m.val / 2)) ++ s.dev.entryReads (m.val / 2)).filter fun q => !(s.dev.unitWaits q peer)
    let at_ := fun (q : Desc) => (q.src + q.moved) % 2 ^ 44
    let cached := fun (q : Desc) => q.cache = true ∧ 0 < s.dev.cacheSlots ∧ regionOf (at_ q) q.unitLen = .hbm
    let bytes := fun (q : Desc) => if cached q then (s.dev.cacheRead q.tag (at_ q) q.unitLen).2.1 else some (s.dev.rd (at_ q) q.unitLen)
    due ≠ [] →
    (∀ q ∈ due, Local s.dev q.tag (q.src + q.moved) q.unitLen ∧ (q.kind ≠ 4 → Local s.dev q.tag (q.dst + q.moved) q.unitLen) ∧
      (bytes q).isSome = true) →
    Gives (.moverUnitStart m peer) s fun t => ∃ q ∈ due, ∃ bs, bytes q = some bs ∧
      (∀ x ∈ due, s.dev.unitClass x = s.dev.unitClass q → s.dev.unitBefore x q = false) ∧
      (q.kind = 4 → (t.chan (q.chan - 1)).entry = some (some bs) ∧ t.mem = s.dev.mem ∧ t.str.descs = s.dev.str.descs) ∧
      (q.kind ≠ 4 → Stored s.dev t ((q.dst + q.moved) % 2 ^ 44) bs ∧ Advanced t q (q.moved + q.unitLen) q.out q.blocks)) ∧
  (∀ (s : State) (i : Nat) (q : Desc), s.live = true → (s.dev.str.descs.filter Desc.finished)[i]? = some q →
    Gives (.descriptorComplete i) s fun t =>
      t.str.descs = s.dev.str.descs.filter (fun x => x.id ≠ q.id) ∧ (q.err = false → t.mem = s.dev.mem) ∧
      (q.kind ≠ 1 → t.fld (F.CDC_SLOT_GEN_REFS (16 * q.ctx + q.tmpl.slot)) = s.dev.fld (F.CDC_SLOT_GEN_REFS (16 * q.ctx + q.tmpl.slot)) - 1) ∧
      (q.err = false → ∀ k, q.dc = some k → q.core < 144 → t.core q.core = (s.dev.core q.core).dcAdd q.set k) ∧
      (q.err = true → q.chan = 0 → q.core < 144 → (s.dev.core q.core).open_ q.kern = true → ((t.core q.core).fault q.set).isSome = true) ∧
      (q.err = true → q.chan ≠ 0 → q.kind = 1 → t.fld F.STR_FAULT_KIND = 7 ∧ t.bit F.STR_EVENT_FAULT = true)) ∧
  (∀ (s : State) (i : Fin 8192) (q : Desc), s.live = true →
    (s.dev.str.descs.find? fun q => q.chan == i.val + 1 && q.slot.isSome && !q.cancelled && (q.err || decide (q.len ≤ q.moved))) = some q →
    let c := s.dev.chan i
    let k := q.slot.getD 0
    let more := s.dev.str.descs.any fun x => x.id != q.id && x.chan == i.val + 1 && x.slot.isSome && !x.cancelled
    (q.err = false → Gives (.streamFillComplete i) s fun t =>
      (t.chan i).order = c.order ++ [k] ∧ (t.chan i).full = c.full.set k true ∧
      (more = false → c.run = some c.count → c.rearm = none → (t.chan i).run = none ∧ t.mem = s.dev.mem ∧
        t.str.descs = s.dev.str.descs.filter (fun x => x.id ≠ q.id))) ∧
    (q.err = true → Gives (.streamFillComplete i) s fun t => (t.chan i).run = none ∧ t.fld F.STR_FAULT_KIND = 7))


namespace Sys2Proof.Claims

/-- A stack is to perform a well-formed command, which no KILL stops, whose ranges lie in HBM apart from each other, in lines that serve now. -/
structure ToPerform (s : State) (k op : Nat) (c : KCmd) (rs : List (Nat × Nat)) : Prop where
  live : s.live = true
  head : s.dev.kHead k op = some c
  ok : c.reserved = false
  goesOn : c.cut = none
  fits : ∀ r ∈ rs, r.1 + r.2 ≤ hbmSize ∧ LinesServe s.dev r.1 r.2 ∧ s.dev.repairing r.1 r.2 = false
  apart : rs.Pairwise fun a b => a.1 + a.2 ≤ b.1 ∨ b.1 + b.2 ≤ a.1

/-- Stack k performs its command: what memory then reads as, and the command waits for its part's end with a code. -/
def Performs (i : Instr) (s : State) (k : Nat) (c : KCmd) (code : Nat) (P : Dev → Prop) : Prop :=
  Gives i s fun t => (∃ lines, (t.kQueue k).head? = some { c with performed := true, code := code, lines := lines }) ∧ P t

/-- A byte lies in a range, and its home is a stack. -/
def OnStack (d : Dev) (k a n q : Nat) : Prop := a ≤ q ∧ q < a + n ∧ d.stackOf q = k

/-- The unsigned number of n bytes. -/
def num (d : Dev) (a n : Nat) : Nat := leNat (d.rd a n)

/-- Element i of a source: FP32, or a 16-bit float widened. -/
def element (d : Dev) (fmt a i : Nat) : Nat := if fmt = 9 then num d (a + 4 * i) 4 else toFP32 (elemDecode fmt (num d (a + 2 * i) 2))

end Sys2Proof.Claims

/-! ## The keel engines -/

/-- R328, R332: what FILL, COPY, REDUCE, GATHER, SCATTER_ADD, HIST and MTEST leave in the lines of the stack that performs them. -/
def Sys2Proof.Claims.KeelCommands : Prop :=
  (∀ (s : State) (k : StackId) (c : KCmd), ToPerform s k 1 c [(c.arg 0, c.count)] →
    Performs (.fill k) s k c 0 fun t => ∀ q,
      (OnStack s.dev k (c.arg 0) c.count q → t.mb q = BitVec.ofNat 8 (c.arg 1 / 256 ^ ((q - c.arg 0) % 8))) ∧
      (¬ OnStack s.dev k (c.arg 0) c.count q → t.mb q = s.dev.mb q)) ∧
  (∀ (s : State) (k : StackId) (c : KCmd), ToPerform s k 2 c [(c.arg 0, c.count), (c.arg 1, c.count)] →
    Performs (.copy k) s k c 0 fun t => ∀ q,
      (OnStack s.dev k (c.arg 0) c.count q → t.mb q = s.dev.mb (c.arg 1 + (q - c.arg 0))) ∧
      (¬ OnStack s.dev k (c.arg 0) c.count q → t.mb q = s.dev.mb q)) ∧
  (∀ (s : State) (k : StackId) (c : KCmd), ToPerform s k 3 c [(c.arg 0, 4 * c.count)] →
    (∀ i < c.aux, ToPerform s k 3 c [(c.arg 0, 4 * c.count), (c.arg 1 + i * c.arg 2, (if c.fmt = 9 then 4 else 2) * c.count)]) →
    Performs (.reduce k) s k c 0 fun t =>
      (∀ q, (q < c.arg 0 ∨ c.arg 0 + 4 * c.count ≤ q) → t.mb q = s.dev.mb q) ∧
      ∀ e < c.count,
        let old := num s.dev (c.arg 0 + 4 * e) 4
        let xs := (List.range c.aux).map fun i => element s.dev c.fmt (c.arg 1 + i * c.arg 2) e
        num t (c.arg 0 + 4 * e) 4 =
          if s.dev.stackOf (c.arg 0 + 4 * e) ≠ k then old
          else fp32Canon (if c.sub = 2 then xs.foldl fp32Add old
            else xs.tail.foldl (if c.sub = 1 then fp32Max else fp32Add) (xs.headD 0))) ∧
  (∀ (s : State) (k : StackId) (c : KCmd), ToPerform s k 4 c [(c.arg 0, c.arg 3 * c.aux), (c.arg 1, 4 * c.count)] →
    Serves s.dev c.tag (c.arg 2) (c.count * c.aux) → s.dev.readWaits (c.arg 2) (c.count * c.aux) = false →
    (c.arg 0 + c.arg 3 * c.aux ≤ c.arg 2 ∨ c.arg 2 + c.count * c.aux ≤ c.arg 0) →
    (c.arg 1 + 4 * c.count ≤ c.arg 2 ∨ c.arg 2 + c.count * c.aux ≤ c.arg 1) →
    (∀ p < c.count, num s.dev (c.arg 1 + 4 * p) 4 < min (c.arg 3) (2 ^ 31)) →
    Performs (.gather k) s k c 0 fun t =>
      (∀ q, (q < c.arg 2 ∨ c.arg 2 + c.count * c.aux ≤ q) → t.mb q = s.dev.mb q) ∧
      ∀ p < c.count, ∀ o < c.aux,
        let from_ := c.arg 0 + num s.dev (c.arg 1 + 4 * p) 4 * c.aux + o
        t.mb (c.arg 2 + p * c.aux + o) = if s.dev.stackOf from_ = k then s.dev.mb from_ else s.dev.mb (c.arg 2 + p * c.aux + o)) ∧
  (∀ (s : State) (k : StackId) (c : KCmd), ToPerform s k 5 c [(c.arg 0, c.arg 3 * c.aux), (c.arg 1, 4 * c.count), (c.arg 2, c.count * c.aux)] →
    (∀ p < c.count, num s.dev (c.arg 1 + 4 * p) 4 < min (c.arg 3) (2 ^ 31)) →
    Performs (.scatterAdd k) s k c 0 fun t =>
      (∀ q, (q < c.arg 0 ∨ c.arg 0 + c.arg 3 * c.aux ≤ q) → t.mb q = s.dev.mb q) ∧
      ∀ i < c.arg 3, ∀ j < c.aux / 4,
        let at_ := c.arg 0 + i * c.aux + 4 * j
        num t at_ 4 = if s.dev.stackOf at_ ≠ k then num s.dev at_ 4
          else ((List.range c.count).filter fun p => num s.dev (c.arg 1 + 4 * p) 4 = i).foldl
            (fun acc p => fp32Add acc (num s.dev (c.arg 2 + p * c.aux + 4 * j) 4)) (num s.dev at_ 4)) ∧
  (∀ (s : State) (k : StackId) (c : KCmd), ToPerform s k 6 c [(c.arg 0, c.count), (c.arg 1, 1024)] →
    Performs (.hist k) s k c 0 fun t =>
      (∀ q, (q < c.arg 1 ∨ c.arg 1 + 1024 ≤ q) → t.mb q = s.dev.mb q) ∧
      ∀ v < 256, num t (c.arg 1 + 4 * v) 4 = (num s.dev (c.arg 1 + 4 * v) 4 +
        ((List.range c.count).filter fun i => s.dev.stackOf (c.arg 0 + i) = k ∧ (s.dev.mb (c.arg 0 + i)).toNat = v).length) % 2 ^ 32) ∧
  (∀ (s : State) (k : StackId) (c : KCmd) (failing : List Nat), ToPerform s k 0x20 c [(c.arg 0, c.count), (c.arg 1, 8 * c.arg 2)] →
    let list := (((failing.map (64 * ·)).filter fun a => s.dev.stackOf a = k ∧ c.arg 0 ≤ a ∧ a < c.arg 0 + c.count).take (c.arg 2)).flatMap (leBytes 8)
    Performs (.mtest k failing) s k c 0 fun t => ∀ q, t.mb q =
      if c.arg 1 ≤ q ∧ q < c.arg 1 + list.length then list.getD (q - c.arg 1) 0
      else if c.arg 0 ≤ q ∧ q < c.arg 0 + c.count ∧ s.dev.stackOf q = k then 0 else s.dev.mb q)

/-- R322, R329, R330: an optimiser step over the elements of a stack, and a row's repair with the one soft or hard spare of its bank. -/
def Sys2Proof.Claims.KeelOptimizerAndRepair : Prop :=
  (∀ (s : State) (k : StackId) (c : KCmd), ToPerform s k 0x10 c (s.dev.kRanges c) →
    let p := optPar (s.dev.rd (c.arg 4) 64)
    let word := fun (d : Dev) (i e : Nat) => if (i = 1 ∨ i = 2) ∧ c.arg i = 0 then 0 else num d (c.arg i + 4 * e) 4
    let size := elemBits c.fmt / 8
    Performs (.opt k) s k c 0 fun t =>
      (∀ q, (∀ r ∈ s.dev.kWrites c, q < r.1 ∨ r.1 + r.2 ≤ q) → t.mb q = s.dev.mb q) ∧ ∀ e < c.count,
      let new := optStep p c.sub (c.arg 1 != 0) (word s.dev 0 e) (word s.dev 1 e) (word s.dev 2 e) (word s.dev 3 e)
      let mine : Prop := s.dev.stackOf (c.arg 0 + 4 * e) = k
      word t 0 e = (if mine then new.1 else word s.dev 0 e) ∧
      word t 1 e = (if mine ∧ c.arg 1 ≠ 0 then new.2.1 else word s.dev 1 e) ∧
      word t 2 e = (if mine ∧ c.arg 2 ≠ 0 then new.2.2 else word s.dev 2 e) ∧
      word t 3 e = (if mine ∧ c.flags / 2 % 2 = 1 then 0 else word s.dev 3 e) ∧
      (p.out ≠ 0 → num t (p.out + size * e) size =
        if mine then elemEncode c.fmt (bitOf c.flags 2) .even (ofFP32 new.1) else num s.dev (p.out + size * e) size)) ∧
  (∀ (s : State) (k : StackId) (c : KCmd), s.live = true → s.dev.kHead k 0x21 = some c → c.reserved = false →
    let pc := c.aux / 2 ^ 20 % 32
    let bank := c.aux / 2 ^ 14 % 64
    let hard := bitOf c.aux 31
    let used := if hard then s.persist.hard else s.dev.keel.soft
    GivesS (.repair k) s fun t =>
      ((t.dev.kQueue k).head?.map fun x => (x.performed, x.code)) = some (true, if (k.val, pc, bank) ∈ used then 7 else 0) ∧
      ((k.val, pc, bank) ∈ used → t.dev.mem = s.dev.mem ∧ t.persist = s.persist ∧ t.dev.keel.soft = s.dev.keel.soft) ∧
      ((k.val, pc, bank) ∉ used →
        (if hard then t.persist.hard else t.dev.keel.soft) = used ++ [(k.val, pc, bank)] ∧
        (∀ q, (∀ o ∈ rowPieces pc bank (c.aux % 2 ^ 14), q < s.dev.devOff k o ∨ s.dev.devOff k o + 256 ≤ q) → t.dev.mb q = s.dev.mb q)))

/-- What the keel engines' commands do. Where the manual is silent the model chooses: log 84, 86, 87, 153. -/
def Obligations.KeelWork : Prop := Claims.KeelCommands ∧ Claims.KeelOptimizerAndRepair

/-- R317, R318, R321, R324, R327, R331, R334: commands wait in the queues of the stacks they name and leave them with an add to DONE; scrub, readiness,
interleave and refresh. Where the manual is silent the model chooses: log 3, 46, 47, 181. -/
def Obligations.KeelQueues : Prop :=
  (∀ (s : State) (t : Tag) (k : StackId) (line : Fin 4096) (bytes : List Byte), s.live = true → bytes ≠ [] → bytes.length ≤ 64 →
    let a := keelBase + k.val * 0x1000000 + 64 * line.val
    let c : KCmd := ⟨(s.dev.rd a (64 - bytes.length)) ++ bytes, t.toNat, s.dev.fld F.TCK_NUMBER_NUMBER, false, 0, 0, none⟩
    (∀ x ∈ c.stacks k, (s.dev.kQueue x).length < 256 ∧ (s.dev.wr (a + (64 - bytes.length)) bytes).kRefusal x c = 0) →
    Gives (.commandSubmit t k line bytes) s fun u =>
      (∀ x, u.kQueue x = s.dev.kQueue x ++ if x ∈ c.stacks k then [c] else []) ∧ Stored s.dev u (a + (64 - bytes.length)) bytes) ∧
  (∀ (s : State) (t : Tag) (k : StackId) (addr : Word), s.live = true → addr.toNat % 64 = 0 → addr.toNat + 64 ≤ hbmSize →
    LinesServe s.dev addr.toNat 64 → s.dev.repairing addr.toNat 64 = false →
    let c : KCmd := ⟨s.dev.rd addr.toNat 64, t.toNat, s.dev.fld F.TCK_NUMBER_NUMBER, false, 0, 0, none⟩
    (∀ x ∈ c.stacks k, (s.dev.kQueue x).length < 256 ∧ s.dev.kRefusal x c = 0) →
    Gives (.commandSubmitIndirect t k addr) s fun u =>
      (∀ x, u.kQueue x = s.dev.kQueue x ++ if x ∈ c.stacks k then [c] else []) ∧ u.mem = s.dev.mem) ∧
  (∀ (s : State) (k : StackId) (c : KCmd) (cs : List KCmd), s.live = true → s.dev.kQueue k = c :: cs → c.performed = true → c.code < 256 →
    Gives (.commandPartEnd k) s fun t => t.kQueue k = cs ∧ t.mem = s.dev.mem ∧
      (c.code ≠ 0 → t.fld (F.KEL_CMD_ERR_CODE k) = c.code ∧ t.bit (F.KEL_EVENT_CMD_ERR k) = true) ∧
      (c.doneAddr = 0 ∨ c.code = 9 → t.home.reqs = s.dev.home.reqs) ∧
      (c.doneAddr ≠ 0 → c.code ≠ 9 → c.doneAddr < 2 ^ 48 → c.doneAddr / 2 ^ 44 = s.dev.slotNo → ∃ r, t.home.reqs = s.dev.home.reqs ++ [r] ∧
        r.tag = c.tag ∧ r.addr = c.doneAddr % 2 ^ 44 ∧ r.rel = true ∧
        r.op = .atomic 0 true false (if c.code = 0 then 1 else 1 + 2 ^ 32) 0)) ∧
  (∀ (s : State) (k : StackId), s.live = true → s.dev.bit F.KEL_SCRUB_EN = true → s.dev.stackReady k = true → s.dev.stackBusy k = false →
    let i := Store.get (fun _ => 0) s.dev.keel.scrub k
    Gives (.patrolScrub k) s fun t => (∀ x, Store.get (fun _ => 0) t.keel.scrub x = if x = k.val then (i + 1) % 2 ^ 29 else
      Store.get (fun _ => 0) s.dev.keel.scrub x) ∧ t.mem = s.dev.mem) ∧
  (∀ (s : State) (v : Word), s.live = true → F.KEL_CTRL_CMD_SHARE.of v ≠ 0 → (∀ c < 2048, s.dev.fld (F.STR_CTX_STATE c) ≠ 1) →
    Gives (.ilvWrite fwTag v) s fun t =>
      t.fld F.KEL_CTRL_ILV = F.KEL_CTRL_ILV.of v ∧ t.fld F.KEL_CTRL_CMD_SHARE = F.KEL_CTRL_CMD_SHARE.of v ∧
      (F.KEL_CTRL_ILV.of v = s.dev.fld F.KEL_CTRL_ILV → t.mem = s.dev.mem) ∧
      (F.KEL_CTRL_ILV.of v ≠ s.dev.fld F.KEL_CTRL_ILV →
        (∀ q, hbmSize ≤ q → t.mb q = s.dev.mb q) ∧ ∀ g < 384, t.fld (F.SEC_GIB_CLEAN g) = 0 ∧ t.fld (F.SEC_GIB_OWNER g) = 0xFFFF)) ∧
  (∀ (s : State) (k : StackId) (soft : List (BitVec 5 × BitVec 6)), s.live = true → s.dev.fld (F.KEL_STATUS_STATE k) < 2 →
    Gives (.stackReady k soft) s fun t => t.fld (F.KEL_STATUS_STATE k) = 2 ∧
      (∀ x ∈ soft, (k.val, x.1.toNat, x.2.toNat) ∈ t.keel.soft) ∧
      let image := s.dev.gnd.image
      let all : Prop := (∀ x < 12, x ≠ k.val → s.dev.stackReady x = true) ∧ 3 ≤ s.dev.fld F.GND_STATUS_STATE
      (¬ all → t.mem = s.dev.mem) ∧
      (all → s.dev.keel.bad = [] → s.dev.keel.linkBad = [] → imageAt + image.length ≤ hbmSize → Stored s.dev t imageAt image)) ∧
  (∀ (s : State) (k : StackId) (temp : BitVec 8), s.live = true →
    Gives (.refreshDoubling k temp) s fun t => t.fld (F.KEL_STATUS_TEMP k) = temp.toNat ∧
      t.fld (F.KEL_STATUS_REFRESH k) = (if 85 < temp.toNat then 1 else 0) ∧ t.mem = s.dev.mem)


namespace Sys2Proof.Claims

/-- Every request that left through a port has been answered. -/
def RequestsAnswered (d t : Dev) (p : Nat) : Prop := ∀ r ∈ d.home.reqs, d.tookPort r p = true → ∀ x ∈ t.home.reqs, x.id ≠ r.id

/-- A port is lost: Lost shows, its frames and keys are gone, and a neighbour in the region makes it pull the ripcord (R346, R349, R385). -/
def LinkLost (d t : Dev) (p : Nat) : Prop :=
  t.portState p = 5 ∧ t.bit (F.LNK_EVENT_LOST p) = true ∧ (t.port p).unacked = [] ∧ (t.port p).keyTx = [] ∧ (t.port p).keyRx = [] ∧
  RequestsAnswered d t p ∧ (d.portIn p = true → Pulled t 1)

/-- A port asks for a replay and takes nothing (R345). -/
def Replays (d t : Dev) (p : Nat) : Prop :=
  (t.port p).wantReplay = true ∧ (t.port p).awaiting = true ∧ (t.port p).rxCtr = (d.port p).rxCtr ∧ (t.port p).unacked = (d.port p).unacked ∧
  t.bit (F.LNK_EVENT_REPLAY p) = true

/-- One more message goes to the Ethernet port. -/
def Emits (d t : Dev) (o : EthOut) : Prop := t.eth.out = d.eth.out ++ [o]

/-- A message of an open session comes in whole, in its turn (R369, R370). -/
structure InTurn (d : Dev) (ep typ flags : Nat) (bs : List Byte) (q : Session) : Prop where
  up : d.ethUp = true
  open_ : (d.svcReap.eth.sessions.find? fun q => q.closing.isNone && q.ep == ep && q.id == kNat bs 4 4) = some q
  sound : svcSound bs typ flags 16 = true
  ver : kNat bs 0 2 = q.ver
  seq : kNat bs 8 4 = q.rx + 1

/-- Its text under the session's key, and whether its tag verifies (R387). -/
def plainOf (q : Session) (bs : List Byte) : List Byte :=
  Config.gcmDecrypt (q.keyIn.take 32) (q.keyIn.drop 32 ++ leBytes 8 (kNat bs 8 4)) (bs.take 32) ((bs.drop 32).take (kNat bs 16 4))
def Genuine (q : Session) (bs : List Byte) : Prop :=
  Config.gcmTag (q.keyIn.take 32) (q.keyIn.drop 32 ++ leBytes 8 (kNat bs 8 4)) (bs.take 32) (plainOf q bs) = bs.drop (32 + kNat bs 16 4)

/-- The session has taken a message: RX counts it, and what its ACK covers is kept no longer. -/
def Took (t : Dev) (q : Session) (bs : List Byte) (more : Session → Prop) : Prop :=
  ∃ x ∈ t.eth.sessions, x.id = q.id ∧ x.rx = q.rx + 1 ∧ (∃ new, x.sent = q.sent.filter (fun m => kNat bs 12 4 < m.seq) ++ new) ∧ more x

/-- An endpoint's request ring has taken an entry behind its tail (R371). -/
def RingTook (d t : Dev) (a : Nat) (entry : List Byte) (n : Nat) : Prop :=
  let tail := num d (a + 8) 8
  num t (a + 8) 8 = (tail + n) % 2 ^ 64 ∧ ∀ j < entry.length, t.mb (a + 64 + (tail + j) % ringArea) = entry.getD j 0

end Sys2Proof.Claims

/-! ## Ports -/

/-- R338, R339, R347, R384, R461: a port trains, meets its peer, and is keyed or fails; the device's coordinates. -/
def Sys2Proof.Claims.PortTraining : Prop :=
  (∀ (s : State) (p : PortId) (v : Word), s.live = true →
    Gives (.portEnable fwTag p v) s fun t =>
      t.bit (F.LNK_PCTRL_ENABLE p) = true ∧ t.fld (F.LNK_PCTRL_CHECK_PEER p) = (F.LNK_PCTRL_CHECK_PEER p).of v ∧ t.mem = s.dev.mem ∧
      (∀ q, q ≠ p.val → t.port q = s.dev.port q) ∧
      (s.dev.bit (F.LNK_PCTRL_ENABLE p) = false → t.portState p = 1 ∧ t.port p = { Port.reset with enabledAt := s.dev.time }) ∧
      (s.dev.bit (F.LNK_PCTRL_ENABLE p) = true → t.portState p = s.dev.portState p ∧ t.port p = s.dev.port p)) ∧
  (∀ (s : State) (p : PortId) (lane : BitVec 4) (margin : BitVec 16), s.live = true → s.dev.portState p = 1 →
    (s.dev.pwr.refClk = true → Gives (.trainingComplete p lane margin) s fun t => t.portState p = 2 ∧ t.fld (F.LNK_MARGIN_LANE p) = lane.toNat ∧
      t.fld (F.LNK_MARGIN_MARGIN p) = margin.toNat ∧ t.port p = s.dev.port p) ∧
    (s.dev.pwr.refClk = false → exec (.trainingComplete p lane margin) s = .next s)) ∧
  (∀ (s : State) (p : PortId) (serial : Word) (x : BitVec 7) (y : BitVec 6) (port : BitVec 2) (valid : Bool) (lo hi : BitVec 16),
    s.live = true → s.dev.portState p = 2 →
    let best := min hi.toNat 0x102
    let old := best < max lo.toNat 0x100
    let wrong := s.dev.bit (F.LNK_PCTRL_CHECK_PEER p) = true ∧ (s.dev.neighbour p ≠ some (x.toNat, y.toNat) ∨ port.toNat ≠ (p.val + 2) % 4 ∨
      valid = false ∨ s.dev.bit F.LNK_COORD_VALID = false)
    Gives (.negotiation p serial x y port valid lo hi) s fun t =>
      t.fld (F.LNK_PEER_ID_SERIAL p) = serial.toNat ∧ t.fld (F.LNK_PEER_POS_X p) = x.toNat ∧ t.fld (F.LNK_PEER_POS_Y p) = y.toNat ∧
      (old → t.portState p = 7 ∧ t.bit (F.LNK_EVENT_VERSION p) = true) ∧
      (¬ old → wrong → t.portState p = 6 ∧ t.bit (F.LNK_EVENT_MISWIRED p) = true) ∧
      (¬ old → ¬ wrong → t.portState p = 3 ∧ t.fld (F.LNK_PSTATUS_VER_MAJOR p) = best / 256 ∧ t.fld (F.LNK_PSTATUS_VER_MINOR p) = best % 256 ∧
        (t.port p).ephemeral.length = 56)) ∧
  (∀ (s : State) (p : PortId) (pub certs sig : List Byte), s.live = true → s.dev.portState p = 3 → s.lifecycle = 1 →
    s.dev.bit F.SEC_STATUS_LOCKED = true →
    let peer := s.dev.fld (F.LNK_PEER_ID_SERIAL p)
    let order := fun (a b : List Byte) => if s.serial < peer then a ++ b else b ++ a
    let eph := (s.dev.port p).ephemeral
    let ids := order (leBytes 8 s.serial) (leBytes 8 peer)
    let msg := Config.shake256 (order (Config.x448Public eph) pub ++ ids ++
      order (leBytes 1 p.val) (leBytes 1 (s.dev.fld (F.LNK_PEER_POS_PORT p)))) 64
    let key := kdf (Config.x448 eph pub) "TGW-LINK" ids 72
    let lower := key.take 32 ++ (key.drop 64).take 4
    let higher := (key.drop 32).take 32 ++ (key.drop 68).take 4
    Gives (.linkKeyExchange p pub certs sig) s fun t =>
      if Config.chainValid certs s.rootHash = true ∧ Config.ed448Verify (Config.chainKey certs) msg sig = true then
        t.portState p = 4 ∧ t.bit (F.LNK_EVENT_UP p) = true ∧ (t.port p).txCtr = 0 ∧ (t.port p).rxCtr = 0 ∧ (t.port p).ephemeral = [] ∧
        (t.port p).keyTx = (if s.serial < peer then lower else higher) ∧ (t.port p).keyRx = (if s.serial < peer then higher else lower) ∧
        ∀ vl < 5, (t.port p).freedOf vl = Config.laneBuffers vl
      else t.portState p = 7 ∧ t.bit F.SEC_EVENT_LINK_AUTH = true ∧ (t.port p).keyTx = [] ∧ (t.port p).keyRx = []) ∧
  (∀ (s : State) (p : PortId), s.live = true → (s.dev.portState p = 1 ∨ s.dev.portState p = 2 ∨ s.dev.portState p = 3) →
    Gives (.trainingTimeout p) s fun t => t.portState p = 7 ∧ t.bit (F.LNK_EVENT_TRAIN_FAIL p) = true ∧ (t.port p).unacked = [] ∧
      (t.port p).ephemeral = [] ∧ t.time = max s.dev.time ((s.dev.port p).enabledAt + 20000000 * 144)) ∧
  (∀ (s : State) (v : Word), s.live = true → s.dev.routesFixed = false →
    s.dev.slotNo = 4 * (F.LNK_COORD_Y.of v % 4) + F.LNK_COORD_X.of v % 4 →
    Gives (.coordWrite fwTag v) s fun t => t.fld F.LNK_COORD_X = F.LNK_COORD_X.of v ∧ t.fld F.LNK_COORD_Y = F.LNK_COORD_Y.of v ∧
      t.bit F.LNK_COORD_VALID = true ∧ t.mem = s.dev.mem)

/-- R342 to R346, R349, R350: frames leave and come in, are resent, and a port that is not answered is lost. -/
def Sys2Proof.Claims.PortFrames : Prop :=
  (∀ (s : State) (p : PortId), s.live = true → s.dev.up p = true →
    let q := s.dev.port p
    (∀ f fs, q.resend = f :: fs → Gives (.frameSend p) s fun t => t.port p = { q with resend := fs }) ∧
    (q.resend = [] → q.unacked.length < 128 → Gives (.frameSend p) s fun t => ∃ f : Frame,
      let q' := t.port p
      q'.unacked = q.unacked ++ [f] ∧ f.ctr = q.txCtr ∧ q'.txCtr = q.txCtr + 1 ∧ f.ack = (q.rxCtr + 65535) % 65536 ∧ f.replay = q.wantReplay ∧
      q'.wantReplay = false ∧ (f.short = none → q.shorts = [] ∧ q'.shorts = []) ∧
      (∀ m, f.short = some m → m ∈ q.shorts ∧ (∀ x ∈ q.shorts, shortRank m ≤ shortRank x) ∧ q'.shorts = q.shorts.erase m) ∧
      (s.dev.pickItem p = none → f.payload = [] ∧ q'.lanes = q.lanes ∧ ∀ vl, q'.credit vl = q.credit vl) ∧
      (∀ x, s.dev.pickItem p = some x → f.payload = (s.dev.takeItem p x).1 ∧ q'.lanes = (s.dev.takeItem p x).2 ∧ f.vl = x.vl ∧
        ∀ vl, q'.credit vl = if vl = x.vl ∧ f.payload ≠ [] then q.credit vl - 1 else q.credit vl))) ∧
  (∀ (s : State) (p : PortId) (decoded crc tag : Bool) (fec : Nat) (seq ack : BitVec 16) (vl : Fin 5) (cells : Nat) (creditVl : BitVec 3)
      (credit : BitVec 8) (replay : Bool), s.live = true → s.dev.up p = true →
    let q := s.dev.port p
    Gives (.frameReceived p decoded crc tag fec seq ack vl cells creditVl credit replay) s fun t =>
      ((decoded = false ∨ crc = false ∨ tag = false) → Replays s.dev t p) ∧
      (decoded = true → crc = true → tag = false → t.bit (F.LNK_EVENT_TAG p) = true) ∧
      (decoded = true → crc = true → tag = true → seq.toNat ≠ q.rxCtr % 65536 → q.awaiting = false → Replays s.dev t p) ∧
      (decoded = true → crc = true → tag = true → seq.toNat = q.rxCtr % 65536 →
        (t.port p).rxCtr = q.rxCtr + 1 ∧ (t.port p).awaiting = false ∧ (t.port p).lastAccept = s.dev.time ∧
        (t.port p).unacked = ackDrop ack.toNat q.unacked ∧
        (∀ v, (t.port p).credit v = q.credit v + if v = creditVl.toNat then credit.toNat else 0) ∧
        (t.port p).resend = (if replay then ackDrop ack.toNat q.unacked else q.resend))) ∧
  (∀ (s : State) (p : PortId), s.live = true → s.dev.up p = true → s.dev.fld F.LNK_CTRL_REPLAY_MAX ≤ (s.dev.port p).resends →
    Gives (.replayLimit p) s fun t => LinkLost s.dev t p) ∧
  (∀ (s : State) (p : PortId), s.live = true → s.dev.up p = true →
    Gives (.linkLoss p) s fun t => LinkLost s.dev t p ∧
      t.time = max s.dev.time ((s.dev.port p).lastAccept + s.dev.fld F.LNK_CTRL_LOSS_US * 144000))

/-- What training a port and its frames do. Where the manual is silent the model chooses: log 22, 79, 92, 93, 182. -/
def Obligations.PortsAtWork : Prop := Claims.PortTraining ∧ Claims.PortFrames

/-! ## The Ethernet port -/

/-- R358 to R362, R364: the link, the frames it takes, what it answers by itself, and remote memory access. -/
def Sys2Proof.Claims.EthernetTraffic : Prop :=
  (∀ (s : State), s.live = true → s.dev.bit F.ETH_CTRL_ENABLE = true → s.dev.pwr.refClk = true → s.dev.ethUp = false →
    Gives .ethLinkUp s fun t => t.ethUp = true ∧ t.bit F.ETH_EVENT_LINK_UP = true ∧ t.eth = s.dev.eth) ∧
  (∀ (s : State), s.live = true → s.dev.ethUp = true →
    Gives .ethLinkDown s fun t => t.fld F.ETH_STATUS_LINK = s.dev.fld F.ETH_CTRL_ENABLE ∧ t.bit F.ETH_EVENT_LINK_DOWN = true ∧ t.eth = s.dev.eth) ∧
  (∀ (s : State) (f : EthFrame), s.live = true → s.dev.ethUp = true →
    let held := s.dev.ethHeld f.prio - f.taken
    let good := f.supported = true ∧ (∀ v, f.vid = some v → v.toNat = s.dev.fld F.ETH_CTRL_VID ∧ v ≠ 0) ∧ 64 ≤ f.len ∧ f.len ≤ 9216 ∧
      held + f.len ≤ 1048576
    Gives (.ethFrameReceived f) s fun t =>
      t.mem = s.dev.mem ∧ (∀ x, x ≠ f.prio.val → t.ethHeld x = s.dev.ethHeld x) ∧
      (good → t.ethHeld f.prio = held + f.len ∧
        (bitOf (s.dev.fld F.ETH_PFC_MASK) f.prio = true → 786432 < held + f.len → f.prio.val ∈ t.eth.xoff)) ∧
      (¬ good → t.ethHeld f.prio = held)) ∧
  (∀ (s : State) (p : Fin 8) (xoff : Bool), s.live = true → s.dev.ethUp = true →
    Gives (.pfcReceived p xoff) s fun t => t.regs = s.dev.regs ∧ t.mem = s.dev.mem ∧
      ∀ x, x ∈ t.eth.paused ↔ if x = p.val then xoff = true else x ∈ s.dev.eth.paused) ∧
  (∀ (s : State) (v6 : Bool) (target sender : BitVec 128) (data : List Byte), s.live = true → s.dev.ethUp = true →
    target.toNat = (if v6 then s.dev.fld F.ETH_IP6_HI_ADDR * 2 ^ 64 + s.dev.fld F.ETH_IP6_LO_ADDR else s.dev.fld F.ETH_IP4_ADDR) →
    Gives (.arpRequest v6 target sender) s (fun t => Emits s.dev t (.arp v6 sender.toNat (s.dev.fld F.ETH_MAC_MAC)) ∧ t.mem = s.dev.mem) ∧
    Gives (.icmpEcho v6 target sender data) s (fun t => Emits s.dev t (.echo v6 sender.toNat data) ∧ t.mem = s.dev.mem)) ∧
  (∀ (s : State) (n : BitVec 24) (q : Qp), s.live = true → s.dev.qp n.toNat = some q → s.dev.bit F.ETH_CTRL_CNP_EN = true →
    (q.role = 1 ∨ q.role = 3) →
    (s.dev.ethUp = true → Gives (.cnpReceived n) s fun t =>
      t.qp n.toNat = some { q with rate := max (q.rate * 7 / 8) 1000000000, cnpGot := s.dev.time } ∧ ∀ m, m ≠ n.toNat → t.qp m = s.dev.qp m) ∧
    Gives (.rateRecovery n) s (fun t => t.time = max s.dev.time (q.cnpGot + 50000 * 144) ∧
      t.qp n.toNat = some { q with rate := min (q.rate + 5000000000) 200000000000, cnpGot := t.time } ∧ ∀ m, m ≠ n.toNat → t.qp m = s.dev.qp m)) ∧
  (∀ (s : State) (n psn : BitVec 24) (len : Nat) (q : Qp), s.live = true → s.dev.ethUp = true → s.dev.qp n.toNat = some q → q.error = false →
    let next := (q.psnIn + max 1 ((len + 4095) / 4096)) % 2 ^ 24
    (psn.toNat = q.psnIn → Gives (.send n psn len) s fun t =>
      Emits s.dev t (.ack n.toNat ((next + 2 ^ 24 - 1) % 2 ^ 24)) ∧ t.qp n.toNat = some { q with psnIn := next } ∧ t.mem = s.dev.mem) ∧
    (psn.toNat ≠ q.psnIn → Gives (.send n psn len) s fun t => t.qp n.toNat = some q ∧ t.mem = s.dev.mem ∧
      if (q.psnIn + 2 ^ 24 - psn.toNat) % 2 ^ 24 < 2 ^ 23 then Emits s.dev t (.ack n.toNat ((q.psnIn + 2 ^ 24 - 1) % 2 ^ 24))
      else Emits s.dev t (.nak n.toNat q.psnIn 0))) ∧
  (∀ (s : State) (n psn : BitVec 24) (rkey : BitVec 32) (addr : Word) (bytes : List Byte) (q : Qp), s.live = true → s.dev.ethUp = true →
    s.dev.writeWaits addr.toNat bytes = false →
    s.dev.qp n.toNat = some q → q.error = false → psn.toNat = q.psnIn →
    let next := (q.psnIn + max 1 ((bytes.length + 4095) / 4096)) % 2 ^ 24
    (∀ tag, q.role = 2 → s.dev.rkeyTag rkey.toNat addr.toNat bytes.length true = some tag → Serves s.dev tag addr.toNat bytes.length →
      Gives (.rdmaWrite n psn rkey addr bytes) s fun t =>
        Stored s.dev t addr.toNat bytes ∧ Emits s.dev t (.ack n.toNat ((next + 2 ^ 24 - 1) % 2 ^ 24)) ∧ t.qp n.toNat = some { q with psnIn := next }) ∧
    (q.role ≠ 2 ∨ s.dev.rkeyTag rkey.toNat addr.toNat bytes.length true = none → Gives (.rdmaWrite n psn rkey addr bytes) s fun t =>
      t.mem = s.dev.mem ∧ Emits s.dev t (.nak n.toNat psn.toNat 2) ∧ t.qp n.toNat = some { q with psnIn := next, error := true } ∧
      t.bit F.ETH_EVENT_RKEY = true)) ∧
  (∀ (s : State) (n psn : BitVec 24) (rkey : BitVec 32) (addr : Word) (len : Nat) (q : Qp), s.live = true → s.dev.ethUp = true →
    s.dev.readWaits addr.toNat len = false → s.dev.qp n.toNat = some q → q.error = false → psn.toNat = q.psnIn →
    let next := (q.psnIn + max 1 ((len + 4095) / 4096)) % 2 ^ 24
    (∀ tag, q.role = 2 → s.dev.rkeyTag rkey.toNat addr.toNat len false = some tag → Serves s.dev tag addr.toNat len →
      Gives (.rdmaRead n psn rkey addr len) s fun t => Emits s.dev t (.readData n.toNat (s.dev.rd addr.toNat len)) ∧
        t.qp n.toNat = some { q with psnIn := next } ∧ t.mem = s.dev.mem) ∧
    (q.role ≠ 2 ∨ s.dev.rkeyTag rkey.toNat addr.toNat len false = none → Gives (.rdmaRead n psn rkey addr len) s fun t =>
      Emits s.dev t (.nak n.toNat psn.toNat 2) ∧ t.qp n.toNat = some { q with psnIn := next, error := true } ∧ t.bit F.ETH_EVENT_RKEY = true)) ∧
  (∀ (s : State) (n : BitVec 24) (q : Qp), s.live = true → s.dev.qp n.toNat = some q → q.error = false →
    Gives (.roceRetransmit n) s fun t =>
      if q.retries < Config.retryLimit then t.qp n.toNat = some { q with retries := q.retries + 1 } ∧ Emits s.dev t (.again n.toNat)
      else t.qp n.toNat = some { q with error := true } ∧ t.bit F.ETH_EVENT_QP_ERR = true ∧ ∀ r ∈ t.eth.recs, r.qp = n.toNat → r.written = true)

/-- R366 to R368, R386: depot records start in ring order, their chunks are written when their tag verifies, and DONE counts them. -/
def Sys2Proof.Claims.DepotReads : Prop :=
  (∀ (s : State) (v : Word), s.live = true →
    let head := s.dev.fld F.ETH_DEPOT_TAIL_HEAD
    let tail := v.toNat % 1024
    let back := (tail + 1024 - head) % 1024 < (s.dev.fld F.ETH_DEPOT_TAIL_TAIL + 1024 - head) % 1024
    Gives (.depotTailWrite fwTag v) s fun t => t.fld F.ETH_DEPOT_TAIL_HEAD = head ∧ t.mem = s.dev.mem ∧
      (¬ back → t.fld F.ETH_DEPOT_TAIL_TAIL = tail) ∧
      (back → t.fld F.ETH_DEPOT_TAIL_TAIL = s.dev.fld F.ETH_DEPOT_TAIL_TAIL ∧ t.bit F.ETH_EVENT_DEPOT_ERR = true)) ∧
  (∀ (s : State) (i : Nat) (q : Qp), s.live = true → s.dev.bit F.ETH_DEPOT_RING_VALID = true → s.dev.eth.recs.length < 64 →
    let head := s.dev.fld F.ETH_DEPOT_TAIL_HEAD
    let a := s.dev.fld F.ETH_DEPOT_RING_BASE * 65536 + 64 * head
    let bs := s.dev.rd a 64
    let len := kNat bs 12 4
    let job := kNat bs 30 2
    head ≠ s.dev.fld F.ETH_DEPOT_TAIL_TAIL → LinesServe s.dev a 64 → s.dev.readWaits a 64 = false →
    kNat bs 63 1 = 1 → kNat bs 44 4 = 0 → kNat bs 56 7 = 0 → len % 64 = 0 → len ≤ 65536 → 0x1000 ≤ kNat bs 28 2 → kNat bs 28 2 ≤ 0x10FF →
    kNat bs 32 8 % 64 = 0 → kNat bs 32 8 + len ≤ hbmSize → kNat bs 48 8 % 8 = 0 → s.dev.admitted job = true →
    s.dev.keyOf (kNat bs 40 4) = some i → (s.dev.key i).job = job → s.dev.qp (kNat bs 28 2) = some q → q.error = false → q.role = 3 →
    Gives .depotRecordStart s fun t => t.fld F.ETH_DEPOT_TAIL_HEAD = (head + 1) % 1024 ∧ t.mem = s.dev.mem ∧
      t.eth.recs = s.dev.eth.recs ++ [⟨kNat bs 0 8, kNat bs 8 4, len, kNat bs 28 2, job, kNat bs 32 8, (s.dev.key i).key, kNat bs 48 8, false⟩] ∧
      Emits s.dev t (.readAsk (kNat bs 28 2) (kNat bs 16 8) (kNat bs 24 4) (len + 16))) ∧
  (∀ (s : State) (i : Nat) (r : DepotRec) (bytes : List Byte), s.live = true → s.dev.eth.recs[i]? = some r → r.written = false →
    bytes.length = r.len + 16 → r.dest + r.len ≤ hbmSize → LinesServe s.dev r.dest r.len → s.dev.repairing r.dest r.len = false →
    let nonce := leBytes 8 r.object ++ leBytes 4 r.chunk
    let aad := nonce ++ leBytes 4 r.len
    let plain := Config.gcmDecrypt r.key nonce aad (bytes.take r.len)
    Gives (.depotChunkArrival i bytes) s fun t =>
      if Config.gcmTag r.key nonce aad plain = bytes.drop r.len then
        Stored s.dev t r.dest plain ∧ t.eth.recs = s.dev.eth.recs.set i { r with written := true, key := [] }
      else t.mem = s.dev.mem ∧ t.eth.recs = s.dev.eth.recs.eraseIdx i ∧ t.bit F.ETH_EVENT_DEPOT_AUTH = true) ∧
  (∀ (s : State) (i : Nat) (r : DepotRec), s.live = true → s.dev.eth.recs[i]? = some r → r.written = true →
    Gives (.depotWritesDone i) s fun t => t.eth.recs = s.dev.eth.recs.eraseIdx i ∧ t.mem = s.dev.mem ∧
      (r.done = 0 → t.home.reqs = s.dev.home.reqs) ∧
      (r.done ≠ 0 → r.done < 2 ^ 48 → r.done / 2 ^ 44 = s.dev.slotNo → ∃ x, t.home.reqs = s.dev.home.reqs ++ [x] ∧ x.tag = r.job ∧
        x.addr = r.done % 2 ^ 44 ∧ x.op = .atomic 0 true false 1 0 ∧ x.rel = true))

/-- What frames and requests of the Ethernet port do. Where the manual is silent the model chooses: log 25, 26, 98, 182. -/
def Obligations.EthernetWork : Prop := Claims.EthernetTraffic ∧ Claims.DepotReads

/-- R369 to R373, R387: sessions open, take messages in their turn, bring requests to the ring and tokens to the client, and end. Where the manual is silent the model chooses: log 99, 100, 101, 103, 104. -/
def Obligations.ServiceSessions : Prop :=
  (∀ (s : State) (ep : Fin 16) (ip : BitVec 128) (port : BitVec 16) (bytes : List Byte), s.live = true → s.dev.ethUp = true →
    s.dev.fld (F.ETH_SVC_UDP_PORT ep) ≠ 0 → s.lifecycle = 1 → svcSound bytes 1 0 0 = true → bytes.length = 100 → kNat bytes 4 4 = 0 →
    kNat bytes 8 4 = 1 →
    let d := s.dev.svcReap
    let ver := min (kNat bytes 34 2) 0x101
    (∀ q ∈ d.eth.sessions, ¬ (q.closing = none ∧ q.ep = ep.val ∧ q.ip = ip.toNat ∧ q.port = port.toNat ∧ q.pub = bytes.drop 44)) →
    (max (kNat bytes 32 2) 0x100 ≤ ver → d.fld F.ETH_STATUS_FLOWS_FREE ≠ 0 → Gives (.openMsg ep ip port bytes) s fun t => ∃ q : Session,
      t.eth.sessions = d.eth.sessions ++ [q] ∧ q.id = d.eth.nextSession ∧ q.ep = ep.val ∧ q.ip = ip.toNat ∧ q.port = port.toNat ∧ q.ver = ver ∧
      q.rx = 1 ∧ q.tx = 1 ∧ q.req = none ∧ q.closing = none ∧ t.eth.nextSession = q.id + 1 ∧
      t.fld F.ETH_STATUS_FLOWS_FREE = d.fld F.ETH_STATUS_FLOWS_FREE - 1 ∧ Emits d t (.datagram ip.toNat port.toNat q.ack)) ∧
    (ver < max (kNat bytes 32 2) 0x100 → Gives (.openMsg ep ip port bytes) s fun t =>
      t.eth.sessions = d.eth.sessions ∧ t.bit F.ETH_EVENT_VERSION = true ∧ t.fld F.ETH_STATUS_FLOWS_FREE = d.fld F.ETH_STATUS_FLOWS_FREE)) ∧
  (∀ (s : State) (ep : Fin 16) (bytes : List Byte) (q : Session), s.live = true → InTurn s.dev ep 5 0 bytes q →
    Gives (.ack ep bytes) s fun t => (Genuine q bytes → Took t q bytes fun x => x.tx = q.tx) ∧
      (¬ Genuine q bytes → t.eth.sessions = s.dev.svcReap.eth.sessions)) ∧
  (∀ (s : State) (ep : Fin 16) (bytes : List Byte) (q : Session), s.live = true → InTurn s.dev ep 8 0 bytes q →
    Gives (.keepalive ep bytes) s fun t => (Genuine q bytes → Took t q bytes fun x => x.tx = q.tx + 1 ∧ x.heard = s.dev.time) ∧
      (¬ Genuine q bytes → t.eth.sessions = s.dev.svcReap.eth.sessions)) ∧
  (∀ (s : State) (ep : Fin 16) (bytes : List Byte) (q : Session), s.live = true → InTurn s.dev ep 3 1 bytes q →
    let a := s.dev.ringAt ep 0
    a + 2 ^ 20 ≤ hbmSize → LinesServe s.dev a (2 ^ 20) → s.dev.repairing a (2 ^ 20) = false →
    let p := plainOf q bytes
    let n := entryBytes p.length
    Gives (.submit ep bytes) s fun t =>
      (¬ Genuine q bytes → t.eth.sessions = s.dev.svcReap.eth.sessions ∧ t.mem = s.dev.mem) ∧
      (Genuine q bytes → kNat p 12 4 = 0 → kNat p 8 4 ≤ 2044 → kNat bytes 16 4 = 16 + 4 * kNat p 8 4 →
        num s.dev (a + 8) 8 - num s.dev a 8 + n ≤ ringArea →
        Took t q bytes (fun x => x.req = some (kNat p 0 4) ∧ x.tx = q.tx + 1) ∧
        RingTook s.dev t a (leBytes 4 q.id ++ leBytes 4 (kNat p 0 4) ++ leBytes 4 p.length ++ leBytes 4 1 ++ p) n)) ∧
  (∀ (s : State) (ep : Fin 16) (bytes : List Byte) (q : Session), s.live = true → InTurn s.dev ep 6 0 bytes q →
    let a := s.dev.ringAt ep 0
    Gives (.close ep bytes) s fun t =>
      (¬ Genuine q bytes → t.eth.sessions = s.dev.svcReap.eth.sessions ∧ t.mem = s.dev.mem) ∧
      (Genuine q bytes → q.req = none → (∀ x ∈ t.eth.sessions, x.id ≠ q.id) ∧
        t.fld F.ETH_STATUS_FLOWS_FREE = min 4096 (s.dev.svcReap.fld F.ETH_STATUS_FLOWS_FREE + 1)) ∧
      (∀ r, Genuine q bytes → q.req = some r → a + 2 ^ 20 ≤ hbmSize → LinesServe s.dev a (2 ^ 20) → s.dev.repairing a (2 ^ 20) = false →
        num s.dev (a + 8) 8 - num s.dev a 8 + 16 ≤ ringArea →
        (∃ x ∈ t.eth.sessions, x.id = q.id ∧ x.closing = some (num s.dev (a + 8) 8 + 16) ∧ x.keyIn = [] ∧ x.keyOut = []) ∧
        RingTook s.dev t a (leBytes 4 q.id ++ leBytes 4 r ++ leBytes 4 0 ++ leBytes 4 2) 16)) ∧
  (∀ (s : State) (ep : Fin 16) (q : Session), s.live = true → s.dev.ethUp = true → s.dev.fld (F.ETH_SVC_UDP_PORT ep) ≠ 0 →
    let a := s.dev.ringAt ep 1
    let d := s.dev.svcReap
    let head := num s.dev a 8
    let area := fun i => s.dev.mb (a + 64 + (head + i) % ringArea)
    let h := (List.range 16).map area
    let len := kNat h 8 4
    a + 2 ^ 20 ≤ hbmSize → LinesServe s.dev a (2 ^ 20) → s.dev.repairing a (2 ^ 20) = false →
    head ≠ num s.dev (a + 8) 8 → kNat h 12 4 = 3 → len ≤ 8192 →
    (d.eth.sessions.find? fun q => q.closing.isNone && q.ep == ep.val && q.id == kNat h 0 4) = some q →
    Gives (.responseEntry ep) s fun t => num t a 8 = (head + entryBytes len) % 2 ^ 64 ∧
      ∃ x ∈ t.eth.sessions, x.id = q.id ∧ x.tx = q.tx + 1 ∧ x.rx = q.rx ∧ ∃ m, x.sent = q.sent ++ [m] ∧ m.seq = q.tx + 1 ∧
        Emits d t (.datagram q.ip q.port m.bytes)) ∧
  (∀ (s : State) (session : BitVec 32) (q : Session), s.live = true →
    (s.dev.eth.sessions.find? fun q => q.closing.isNone && q.id == session.toNat) = some q →
    (∀ m ms, q.sent = m :: ms →
      (m.resends < 8 → Gives (.serviceResend session) s fun t => Emits s.dev t (.datagram q.ip q.port m.bytes) ∧
        ∃ x ∈ t.eth.sessions, x.id = q.id ∧ x.sent = { m with at_ := t.time, resends := m.resends + 1 } :: ms) ∧
      (8 ≤ m.resends → Gives (.serviceResend session) s fun t => ∀ x ∈ t.eth.sessions, x.id ≠ q.id)) ∧
    Gives (.sessionIdle session) s fun t => (∀ x ∈ t.eth.sessions, x.id ≠ q.id) ∧
      t.fld F.ETH_STATUS_FLOWS_FREE = min 4096 (s.dev.fld F.ETH_STATUS_FLOWS_FREE + 1) ∧ t.mem = s.dev.mem)


namespace Sys2Proof.Claims

/-- Table 2 of the register map: a register's key, the distance and number of its instances, and the value it resets to. -/
def resetTable : List (Nat × Nat × Nat × Word) :=
  [(R.TCK_CTRL, 1, 1, 0x00001080F0020000), (R.TCK_PERIOD, 1, 1, 0x186A0), (R.TCK_LEAD, 1, 1, 0x5DC), (R.TCK_GOVERN, 1, 1, 0x000F424000004003),
   (R.TTH_STATION, 1, 1, 0xFF0000), (R.TTH_SLOT_FLAGS, 1, 1, 0x010101010101), (R.TTH_TAIL_CW, 1, 1, 0x0004000000000000),
   (R.TTH_TAIL_CCW, 1, 1, 0x0004000000000000), (R.TTH_RELAY_CTRL, 1, 1, 0x40), (R.LNK_CTRL, 1, 1, 0x03E80810),
   (R.LNK_VERSION, 1, 1, 0x01020100), (R.LNK_PCTRL 0, 0x100, 4, 2)] ++
  [(R.KEL_CTRL, 1, 1, 0x401), (R.KEL_SCRUB, 1, 1, 0x31), (R.SCP_CORE_CTRL 0, 0x100, 144, 8), (R.SCP_PWR 0, 0x100, 144, 0x3F00),
   (R.SCP_SCRUB, 1, 1, 0x400), (R.MTX_CORE_CTRL 0, 0x100, 144, 4), (R.STR_CTRL, 1, 1, 0x000000010004060A), (R.STR_CTX 0, 8, 2048, 0x4000),
   (R.STR_STATUS, 1, 1, 0x0000400020000000), (R.ETH_CTRL, 1, 1, 3), (R.ETH_STATUS, 1, 1, 0x1000000000000000), (R.ETH_PRIO, 1, 1, 0x743666)] ++
  [(R.ETH_PFC, 1, 1, 0x48), (R.ETH_MR_CTL 0, 8, 256, 0x0030000000000000), (R.SEC_CTRL, 1, 1, 1), (R.SEC_STATUS, 1, 1, 0x04000000),
   (R.SEC_GIB 0, 8, 384, 0x0000FFFF00000000), (R.GND_CTRL, 1, 1, 1), (R.GND_LEASE, 1, 1, 0x2710), (R.GND_HOLD, 1, 1, 0x3C),
   (R.GND_WDOG, 1, 1, 0x00010064), (R.GND_COMP_SEL, 1, 1, 1), (R.GND_TRACE_CTRL, 1, 1, 0x400), (R.PWR_CTRL, 1, 1, 0x2801)] ++
  [(R.PWR_STATUS, 1, 1, 0x23), (R.PWR_LIMIT, 1, 1, 0x00000BB800000A28), (R.PWR_THERM, 1, 1, 0x5A64), (R.NVS_STATUS, 1, 1, 0x05900000),
   (R.TEL_CTRL, 1, 1, 0x441E), (R.TEL_PMSEL 0, 8, 16, 0xFF0000), (R.DEV_WIN_CTL 0, 16, 64, 0x0400000000000000),
   (R.DEV_ID, 1, 1, 0x7E6114400000B100), (R.DEV_CAPS, 1, 1, 0x000C200000900C04)]

/-- The S slot of the bundle now issuing is taken up: the core takes instructions, nothing of it waits, and the image's word is of the slot. -/
structure Issues (d : Dev) (n : CoreId) : Prop where
  noEngine : (d.core n).perf = none
  issuing : d.issuing n = true
  noAcq : (d.core n).acq = none
  bundle : (d.core n).bundleBad = false
  begins : (d.core n).begun = true ∨ d.mustWait n = false
  word : d.wordFate n 0 = none

/-- Nothing of a core is under way that could fault, or reach a register, by the end of its bundle. -/
structure AtRest (c : CoreSt) : Prop where
  noFault : c.faults = []
  noResult : c.pend = []
  noLate : c.late = []
  still : (c.unit 0).still = true ∧ (c.unit 1).still = true

/-- A register is an instance of a row of the table. -/
def covers (k : Nat) (r : Nat × Nat × Nat × Word) : Prop := ∃ i < r.2.2.1, k = r.1 + i * r.2.1

end Sys2Proof.Claims

/-! ## The block as a whole -/

/-- The command at the front of the queue is carried out with the rest of the queue kept. On an empty queue one core cycle of 80 time units passes, in
which the engines of free-running cores do what they hold: the model's choice (log 1, 192). -/
def Obligations.StepRunsTheFrontCommand : Prop :=
  (∀ (s : State) (c : Instr) (rest : List Instr), s.pending = c :: rest → step s = exec c { s with pending := rest }) ∧
  (∀ (s : State), s.pending = [] → step s = .next s.idle ∧ s.idle.pending = [] ∧
    (s.dev.engines = [] → s.idle = { s with dev := { s.dev with time := s.dev.time + 80 } }))

/-- R452: the registers of Table 2 hold the values it gives at reset, in every instance, and every other register holds 0. -/
def Obligations.ResetRegisters : Prop :=
  (∀ r ∈ resetTable, ∀ k, covers k r → State.reset.dev.reg k = r.2.2.2) ∧
  (∀ k, (∀ r ∈ resetTable, ¬ covers k r) → State.reset.dev.reg k = 0)

/-- At reset no command waits, and memory and registers are in their canonical form, which lists nothing. Where the manual is silent the model chooses: log 3. -/
def Obligations.ResetIsSound : Prop :=
  State.reset.pending = [] ∧ State.reset.Sound ∧ State.reset.dev.mem = [] ∧ (∀ n < 144, State.reset.dev.coreState n = 0) ∧
  State.reset.live = false

/-- Words written out from the encodings of Tables 1, 3, 7 and 11 of the instruction reference, those of its Table 12 among them, stand for the
instructions they spell (R205, R211, R221, R228, R234). -/
def Obligations.DecodedWords : Prop :=
  ∀ n : CoreId,
    decodeSlot n 0x2B00000100000004 = some (.sloop n ⟨⟨false, 0, false⟩, false, 0, 0, 1, 4⟩) ∧
    decodeSlot n 0x0101090000000200 = some (.sadd n ⟨⟨false, 0, false⟩, 4, 4, true, 0, 0, 0x200⟩) ∧
    decodeSlot n 0x810020107FFE4000 = some (.mload n ⟨⟨false, 0, false⟩, false, 1, 0, 0, 2, 0, 127, 127, 0x4000⟩) ∧
    decodeSlot n 0x2C0000000000027E = some (.swait n ⟨⟨false, 0, false⟩, false, 0, 0, 638⟩) ∧
    decodeSlot n 0x820040000C808000 = some (.mstream n ⟨⟨false, 0, false⟩, false, 2, 0, 0, 0, 0, 3, 4, 1, 0⟩) ∧
    decodeSlot n 0x3F00000000000000 = some (.endKernel n ⟨⟨false, 0, false⟩, 0⟩) ∧
    decodeSlot n 0x41070C1080000000 = some (.vadd n ⟨⟨false, 0, false⟩, 7, 3, 1, 2, 0, 0, 0, false, false, false, 0, 0⟩) ∧
    decodeSlot n 0xA100443000000000 = some (.dcopy n ⟨⟨false, 0, false⟩, 1, 2, 3, 0⟩)

/-- Every slot instruction that the encoder spells is the one the decoder reads from the word, with every operand. -/
def Obligations.EncodingRoundTrip : Prop :=
  ∀ (n : CoreId) (i : Instr) (w : Word), slotCore i = some n → encodeSlot i = some w → decodeSlot n w = some i

/-- Every command completes in every state, and leaves the commands that wait as they are. Where the manual is silent the model chooses: log 27. -/
def Obligations.CommandsComplete : Prop := ∀ (i : Instr) (s : State), ∃ t : State, exec i s = .next t ∧ t.pending = s.pending

/-- A blown fuse bit never clears: no step takes one out of either copy (R377). -/
def Obligations.FusesStayBlown : Prop :=
  ∀ s t : State, step s = .next t → (∀ b ∈ s.persist.fuseA, b ∈ t.persist.fuseA) ∧ (∀ b ∈ s.persist.fuseB, b ∈ t.persist.fuseB)

/-- Memory and registers stay in their canonical form: every step keeps it. -/
def Obligations.SoundStatesStaySound : Prop := ∀ s t : State, s.Sound → step s = .next t → t.Sound

/-- What one core's instruction slots do never reaches the scalar, predicate or vector registers of another core. -/
def Obligations.CoresAreIsolated : Prop :=
  ∀ (i : Instr) (n : CoreId) (m : Nat) (s t : State), slotCore i = some n → m ≠ n.val → exec i s = .next t →
    (∀ q, (t.dev.core m).sreg q = (s.dev.core m).sreg q) ∧ (∀ q, (t.dev.core m).preg q = (s.dev.core m).preg q) ∧
    (∀ q, (t.dev.core m).vreg q = (s.dev.core m).vreg q)

/-- R183, R207, R414: an integer instruction with a reserved encoding ends its kernel with ISA KIND 1, one whose predicate is false does nothing but
let its bundle close, and none acts on a core that takes no instructions or while the device does not run. Where the manual is silent the model chooses: log 31, 151. -/
def Obligations.IssueRules : Prop :=
  ∀ mk : CoreId → FmtSA → Instr,
    (mk = .sadd ∨ mk = .ssub ∨ mk = .sand ∨ mk = .sor ∨ mk = .sxor ∨ mk = .smin ∨ mk = .smax ∨ mk = .sminu ∨ mk = .smaxu) →
    ∀ (s : State) (n : CoreId) (f : FmtSA),
      (s.live = false → exec (mk n f) s = .next s) ∧
      ((s.dev.core n).perf = none → s.dev.issuing n = false → exec (mk n f) s = .next s) ∧
      (s.live = true → Issues s.dev n →
        (s.dev.acts n f.hd .normal = false → exec (mk n f) s = .next (s.on fun d => d.closeBundle n)) ∧
        (s.dev.acts n f.hd .normal = true → (¬ SaPlain f ∨ f.sub ≠ 0 ∨ (f.hd.set = true ∧ s.dev.split n = false)) →
          exec (mk n f) s = .next (s.on fun d => (d.isaFault n (s.dev.slotSet n f.hd) 0 1 0).closeBundle n))) ∧
      (s.live = true → Issues s.dev n → s.dev.split n = false → AtRest (s.dev.core n) →
        s.dev.acts n f.hd .normal = true → (¬ SaPlain f ∨ f.sub ≠ 0 ∨ f.hd.set = true) → Gives (mk n f) s fun t =>
          t.coreState n = 4 ∧ (∀ q, (t.core n).sreg q = (s.dev.core n).sreg q) ∧ t.mem = s.dev.mem ∧
          ∃ r : FaultRec, (t.core n).faults = [(0, r)] ∧ r.source = 3 ∧ r.kind = 1 ∧ r.bundle = (s.dev.core n).bundle ∧ r.slot = 0)

/-! ## Registers that are locked, and commands refused while one runs -/

/-- R80, R94: while the carousel is active, writes to the registers that set it up are discarded, which LOCKED_WRITE records. -/
def Obligations.CarouselRegistersLocked : Prop :=
  ∀ (s : State) (off : BitVec 24) (v : Word), s.live = true → s.dev.bit F.TTH_STATUS_ACTIVE = true →
    off.toNat ∈ [R.TTH_CTRL, R.TTH_STATION, R.TTH_LIST_CW, R.TTH_LIST_CCW, R.TTH_ROT, R.TTH_TAIL_CW, R.TTH_TAIL_CCW, R.TTH_GRAD_CW, R.TTH_GRAD_CCW] →
    ∀ i, (i = Instr.registerWrite fwTag off 8 v ∨ (off.toNat = R.TTH_CTRL ∧ i = Instr.tthEnable fwTag v)) →
    Gives i s fun t => t.reg off.toNat = s.dev.reg off.toNat ∧ t.bit F.TTH_EVENT_LOCKED_WRITE = true ∧ t.mem = s.dev.mem ∧ t.ring = s.dev.ring

/-- R435: an NVS command written while one runs is refused: the one that runs goes on, RESULT stays, and CMD_ERR is raised. -/
def Obligations.OneNvsCommandAtATime : Prop :=
  ∀ (s : State) (off : BitVec 24) (v : Word), s.live = true → s.dev.bit F.NVS_CMD_STATUS_BUSY = true → off.toNat = R.NVS_CMD →
    ∀ i, (i = Instr.nvsAppend fwTag v ∨ i = Instr.nvsRead fwTag v ∨ i = Instr.registerWrite fwTag off 8 v) →
    Gives i s fun t => t.nvs = s.dev.nvs ∧ t.fld F.NVS_CMD_STATUS_RESULT = s.dev.fld F.NVS_CMD_STATUS_RESULT ∧
      t.bit F.NVS_CMD_STATUS_BUSY = true ∧ t.bit F.NVS_EVENT_CMD_ERR = true ∧ t.mem = s.dev.mem
end

