-- ==== Sys2Proof/Laws/Crypto.lean ====
section
/-! SUPPORT. What AES-256-GCM does whatever its key stream: lengths stay, and decrypting what was encrypted gives the text. -/

namespace Sys2Proof.Config

theorem leBytes_length : ∀ n v : Nat, (leBytes n v).length = n
  | 0, _ => rfl
  | n + 1, v => by rw [leBytes, List.length_cons, leBytes_length n]

theorem gcmPads_length (key nonce : List Byte) : ∀ (i : Nat) (bs : List Byte), (gcmPads key nonce i bs).length = bs.length
  | _, [] => rfl
  | i, b :: bs => by rw [gcmPads, List.length_cons, gcmPads_length key nonce (i + 1) bs, List.length_cons]

theorem gcmPads_twice (key nonce : List Byte) : ∀ (i : Nat) (bs : List Byte), gcmPads key nonce i (gcmPads key nonce i bs) = bs
  | _, [] => rfl
  | i, b :: bs => by rw [gcmPads, gcmPads, gcmPads_twice key nonce (i + 1) bs, BitVec.xor_assoc, BitVec.xor_self, BitVec.xor_zero]

theorem gcmDecrypt_gcmEncrypt (key nonce aad text : List Byte) : gcmDecrypt key nonce aad (gcmEncrypt key nonce aad text) = text :=
  gcmPads_twice key nonce 0 text
@[simp] theorem gcmEncrypt_length (key nonce aad text : List Byte) : (gcmEncrypt key nonce aad text).length = text.length :=
  gcmPads_length key nonce 0 text
@[simp] theorem gcmDecrypt_length (key nonce aad text : List Byte) : (gcmDecrypt key nonce aad text).length = text.length :=
  gcmPads_length key nonce 0 text
@[simp] theorem gcmTag_length (key nonce aad text : List Byte) : (gcmTag key nonce aad text).length = 16 := leBytes_length 16 _

end Sys2Proof.Config
end

