-- ==== Sys2Proof/Laws/Encoding.lean ====
section
/-! SUPPORT. Every layout of a slot word: its fields, opcode and codes come back from the word they were written to, and a word comes back from its
fields. -/

namespace Sys2Proof

theorem bitNum_lt (b : Bool) : bitNum b < 2 := by cases b <;> decide

/-- Every value fits its width. -/
def FitsBits (fs : List (Nat × Nat)) : Prop := ∀ x ∈ fs, x.2 < 2 ^ x.1

/-- The width of all fields together. -/
def widthBits (fs : List (Nat × Nat)) : Nat := (fs.map (·.1)).sum

theorem packBits_lt : ∀ fs, FitsBits fs → packBits fs < 2 ^ widthBits fs
  | [], _ => by simp [packBits, widthBits]
  | (w, v) :: fs, h => by
    have h1 : v < 2 ^ w := h (w, v) (by simp)
    have h2 := packBits_lt fs fun x hx => h x (by simp [hx])
    have h3 : 2 ^ widthBits ((w, v) :: fs) = 2 ^ w * 2 ^ widthBits fs := by simp [widthBits, Nat.pow_add]
    rw [h3, packBits]; nlinarith [Nat.mul_le_mul_left (2 ^ w) (Nat.succ_le_of_lt h2)]

theorem packBits_drop : ∀ (a b : List (Nat × Nat)), FitsBits a → packBits (a ++ b) / 2 ^ widthBits a = packBits b
  | [], b, _ => by simp [widthBits]
  | (w, v) :: fs, b, h => by
    have h1 : v < 2 ^ w := h (w, v) (by simp)
    have h3 : 2 ^ widthBits ((w, v) :: fs) = 2 ^ w * 2 ^ widthBits fs := by simp [widthBits, Nat.pow_add]
    rw [h3, ← Nat.div_div_eq_div_mul, List.cons_append, packBits, Nat.add_mul_div_left _ _ (Nat.two_pow_pos w), Nat.div_eq_of_lt h1,
      Nat.zero_add]
    exact packBits_drop fs b fun x hx => h x (by simp [hx])

theorem packBits_field (a b : List (Nat × Nat)) (w v : Nat) (h : FitsBits (a ++ (w, v) :: b)) :
    packBits (a ++ (w, v) :: b) / 2 ^ widthBits a % 2 ^ w = v := by
  have h1 : v < 2 ^ w := h (w, v) (by simp)
  rw [packBits_drop a _ fun x hx => h x (by simp [hx]), packBits, Nat.add_mul_mod_self_left, Nat.mod_eq_of_lt h1]

theorem packWord_toNat (fs : List (Nat × Nat)) (h : FitsBits fs) (hw : widthBits fs = 64) : (packWord fs).toNat = packBits fs := by
  have := packBits_lt fs h; rw [hw] at this; simp only [packWord, BitVec.toNat_ofNat]; exact Nat.mod_eq_of_lt this

theorem packWord_num {fs : List (Nat × Nat)} (h : FitsBits fs) (hw : widthBits fs = 64) (a b : List (Nat × Nat)) (n v lo : Nat)
    (e : fs = a ++ (n, v) :: b) (hl : widthBits a = lo) : ((packWord fs).extractLsb' lo n).toNat = v := by
  subst e hl
  rw [BitVec.extractLsb'_toNat, Nat.shiftRight_eq_div_pow, packWord_toNat _ h hw, packBits_field a b _ _ h]

theorem packWord_extract {fs : List (Nat × Nat)} (h : FitsBits fs) (hw : widthBits fs = 64) (a b : List (Nat × Nat)) {n : Nat} (x : BitVec n)
    (lo : Nat) (e : fs = a ++ (n, x.toNat) :: b) (hl : widthBits a = lo) : (packWord fs).extractLsb' lo n = x :=
  BitVec.eq_of_toNat_eq (packWord_num h hw a b n x.toNat lo e hl)

theorem packWord_bit {fs : List (Nat × Nat)} (h : FitsBits fs) (hw : widthBits fs = 64) (a b : List (Nat × Nat)) (x : Bool)
    (lo : Nat) (e : fs = a ++ (1, bitNum x) :: b) (hl : widthBits a = lo) : (packWord fs).getLsbD lo = x := by
  subst e hl
  have := packBits_field a b 1 (bitNum x) h
  rw [BitVec.getLsbD, Nat.testBit_eq_decide_div_mod_eq, packWord_toNat _ h hw]
  simp only [pow_one] at this; rw [this]; cases x <;> decide

theorem fits_cons {w v : Nat} {fs : List (Nat × Nat)} (h : v < 2 ^ w) (g : FitsBits fs) : FitsBits ((w, v) :: fs) := by
  intro x hx; rcases List.mem_cons.mp hx with rfl | hx
  · exact h
  · exact g x hx

theorem fits_code {v : Nat} {fs : List (Nat × Nat)} (h : v < 8) (g : FitsBits fs) : FitsBits ((3, v) :: fs) := fits_cons h g

theorem fits_bit {b : Bool} {fs : List (Nat × Nat)} (g : FitsBits fs) : FitsBits ((1, bitNum b) :: fs) := fits_cons (bitNum_lt b) g

theorem fits_hd {op : Nat} (hop : op < 256) (h : Head) : FitsBits (h.fields op) :=
  fits_bit <| fits_cons h.p.isLt <| fits_bit <| fits_cons hop fun _ hx => by simp at hx

/-- A number cut into fields, the lowest first. -/
def sliceBits : List Nat → Nat → List (Nat × Nat)
  | [], _ => []
  | w :: ws, n => (w, n % 2 ^ w) :: sliceBits ws (n / 2 ^ w)

theorem packBits_slice : ∀ (ws : List Nat) (n : Nat), packBits (sliceBits ws n) = n % 2 ^ ws.sum
  | [], n => by simp [sliceBits, packBits, Nat.mod_one]
  | w :: ws, n => by rw [sliceBits, packBits, packBits_slice ws, List.sum_cons, Nat.pow_add, Nat.mod_mul]

theorem packWord_slice (w : Word) (ws : List Nat) (fs : List (Nat × Nat)) (e : fs = sliceBits ws w.toNat) (h : ws.sum = 64) :
    packWord fs = w := by
  subst e
  apply BitVec.eq_of_toNat_eq
  rw [packWord, packBits_slice, h, BitVec.toNat_ofNat, Nat.mod_mod, Nat.mod_eq_of_lt w.isLt]

theorem bitNum_getLsbD (w : Word) (k : Nat) : bitNum (w.getLsbD k) = w.toNat / 2 ^ k % 2 := by
  rw [BitVec.getLsbD, Nat.testBit_eq_decide_div_mod_eq]
  rcases Nat.mod_two_eq_zero_or_one (w.toNat / 2 ^ k) with h | h <;> simp [h, bitNum]

theorem bitNum_getElem (w : Word) (k : Nat) (h : k < 64) : bitNum w[k] = w.toNat / 2 ^ k % 2 := by
  rw [← BitVec.getLsbD_eq_getElem, bitNum_getLsbD]


theorem fmtSA_of_word {op : Nat} (hop : op < 256) (f : FmtSA) : FmtSA.of (FmtSA.word op f) = f := by
  obtain ⟨⟨inv0, p0, set0⟩, d0, a0, i0, b0, sub0, imm0⟩ := f
  have fit := fits_cons imm0.isLt <| fits_cons sub0.isLt <| fits_cons b0.isLt <| fits_bit (b := i0) <| fits_cons a0.isLt <| fits_cons
    d0.isLt <| fits_hd hop ⟨inv0, p0, set0⟩
  simp only [FmtSA.of, Head.of, FmtSA.word, List.cons_append, List.nil_append]
  simp only [Head.fields] at fit ⊢
  have hw : widthBits [(32, imm0.toNat), (3, sub0.toNat), (5, b0.toNat), (1, bitNum i0), (5, a0.toNat), (5, d0.toNat), (1, bitNum set0),
    (3, p0.toNat), (1, bitNum inv0), (8, op)] = 64 := by simp [widthBits]
  have g0 := packWord_extract fit hw [] [(3, sub0.toNat), (5, b0.toNat), (1, bitNum i0), (5, a0.toNat), (5, d0.toNat), (1, bitNum set0),
    (3, p0.toNat), (1, bitNum inv0), (8, op)] imm0 0 rfl (by simp [widthBits])
  have g1 := packWord_extract fit hw [(32, imm0.toNat)] [(5, b0.toNat), (1, bitNum i0), (5, a0.toNat), (5, d0.toNat), (1, bitNum set0),
    (3, p0.toNat), (1, bitNum inv0), (8, op)] sub0 32 rfl (by simp [widthBits])
  have g2 := packWord_extract fit hw [(32, imm0.toNat), (3, sub0.toNat)] [(1, bitNum i0), (5, a0.toNat), (5, d0.toNat), (1, bitNum
    set0), (3, p0.toNat), (1, bitNum inv0), (8, op)] b0 35 rfl (by simp [widthBits])
  have g3 := packWord_bit fit hw [(32, imm0.toNat), (3, sub0.toNat), (5, b0.toNat)] [(5, a0.toNat), (5, d0.toNat), (1, bitNum set0), (3,
    p0.toNat), (1, bitNum inv0), (8, op)] i0 40 rfl (by simp [widthBits])
  have g4 := packWord_extract fit hw [(32, imm0.toNat), (3, sub0.toNat), (5, b0.toNat), (1, bitNum i0)] [(5, d0.toNat), (1, bitNum
    set0), (3, p0.toNat), (1, bitNum inv0), (8, op)] a0 41 rfl (by simp [widthBits])
  have g5 := packWord_extract fit hw [(32, imm0.toNat), (3, sub0.toNat), (5, b0.toNat), (1, bitNum i0), (5, a0.toNat)] [(1, bitNum
    set0), (3, p0.toNat), (1, bitNum inv0), (8, op)] d0 46 rfl (by simp [widthBits])
  have g6 := packWord_bit fit hw [(32, imm0.toNat), (3, sub0.toNat), (5, b0.toNat), (1, bitNum i0), (5, a0.toNat), (5, d0.toNat)] [(3,
    p0.toNat), (1, bitNum inv0), (8, op)] set0 51 rfl (by simp [widthBits])
  have g7 := packWord_extract fit hw [(32, imm0.toNat), (3, sub0.toNat), (5, b0.toNat), (1, bitNum i0), (5, a0.toNat), (5, d0.toNat),
    (1, bitNum set0)] [(1, bitNum inv0), (8, op)] p0 52 rfl (by simp [widthBits])
  have g8 := packWord_bit fit hw [(32, imm0.toNat), (3, sub0.toNat), (5, b0.toNat), (1, bitNum i0), (5, a0.toNat), (5, d0.toNat), (1,
    bitNum set0), (3, p0.toNat)] [(8, op)] inv0 55 rfl (by simp [widthBits])
  rw [g0, g1, g2, g3, g4, g5, g6, g7, g8]

theorem fmtSA_op {op : Nat} (hop : op < 256) (f : FmtSA) : ((FmtSA.word op f).extractLsb' 56 8).toNat = op := by
  obtain ⟨⟨inv0, p0, set0⟩, d0, a0, i0, b0, sub0, imm0⟩ := f
  have fit := fits_cons imm0.isLt <| fits_cons sub0.isLt <| fits_cons b0.isLt <| fits_bit (b := i0) <| fits_cons a0.isLt <| fits_cons
    d0.isLt <| fits_hd hop ⟨inv0, p0, set0⟩
  simp only [FmtSA.word, List.cons_append, List.nil_append]
  simp only [Head.fields] at fit ⊢
  have hw : widthBits [(32, imm0.toNat), (3, sub0.toNat), (5, b0.toNat), (1, bitNum i0), (5, a0.toNat), (5, d0.toNat), (1, bitNum set0),
    (3, p0.toNat), (1, bitNum inv0), (8, op)] = 64 := by simp [widthBits]
  exact packWord_num fit hw [(32, imm0.toNat), (3, sub0.toNat), (5, b0.toNat), (1, bitNum i0), (5, a0.toNat), (5, d0.toNat), (1, bitNum
    set0), (3, p0.toNat), (1, bitNum inv0)] [] 8 op 56 rfl (by simp [widthBits])

theorem fmtSA_word_of (w : Word) : FmtSA.word (w.extractLsb' 56 8).toNat (FmtSA.of w) = w := by
  refine packWord_slice w [32, 3, 5, 1, 5, 5, 1, 3, 1, 8] _ ?_ (by simp)
  simp [FmtSA.of, Head.of, Head.fields, sliceBits, bitNum_getElem, BitVec.extractLsb'_toNat, Nat.shiftRight_eq_div_pow, Nat.div_div_eq_div_mul]

theorem fmtSM_of_word {op : Nat} (hop : op < 256) (f : FmtSM) : FmtSM.of (FmtSM.word op f) = f := by
  obtain ⟨⟨inv0, p0, set0⟩, space0, upd0, d0, b0, x0, sh0, w0, sx0, cond0, disp0⟩ := f
  have fit := fits_cons disp0.isLt <| fits_cons cond0.isLt <| fits_bit (b := sx0) <| fits_cons w0.isLt <| fits_cons sh0.isLt <|
    fits_cons x0.isLt <| fits_cons b0.isLt <| fits_cons d0.isLt <| fits_cons upd0.isLt <| fits_cons space0.isLt <| fits_hd hop ⟨inv0,
    p0, set0⟩
  simp only [FmtSM.of, Head.of, FmtSM.word, List.cons_append, List.nil_append]
  simp only [Head.fields] at fit ⊢
  have hw : widthBits [(24, disp0.toNat), (2, cond0.toNat), (1, bitNum sx0), (2, w0.toNat), (3, sh0.toNat), (5, x0.toNat), (5,
    b0.toNat), (5, d0.toNat), (2, upd0.toNat), (2, space0.toNat), (1, bitNum set0), (3, p0.toNat), (1, bitNum inv0), (8, op)] = 64 := by
    simp [widthBits]
  have g0 := packWord_extract fit hw [] [(2, cond0.toNat), (1, bitNum sx0), (2, w0.toNat), (3, sh0.toNat), (5, x0.toNat), (5, b0.toNat),
    (5, d0.toNat), (2, upd0.toNat), (2, space0.toNat), (1, bitNum set0), (3, p0.toNat), (1, bitNum inv0), (8, op)] disp0 0 rfl (by simp
    [widthBits])
  have g1 := packWord_extract fit hw [(24, disp0.toNat)] [(1, bitNum sx0), (2, w0.toNat), (3, sh0.toNat), (5, x0.toNat), (5, b0.toNat),
    (5, d0.toNat), (2, upd0.toNat), (2, space0.toNat), (1, bitNum set0), (3, p0.toNat), (1, bitNum inv0), (8, op)] cond0 24 rfl (by simp
    [widthBits])
  have g2 := packWord_bit fit hw [(24, disp0.toNat), (2, cond0.toNat)] [(2, w0.toNat), (3, sh0.toNat), (5, x0.toNat), (5, b0.toNat), (5,
    d0.toNat), (2, upd0.toNat), (2, space0.toNat), (1, bitNum set0), (3, p0.toNat), (1, bitNum inv0), (8, op)] sx0 26 rfl (by simp
    [widthBits])
  have g3 := packWord_extract fit hw [(24, disp0.toNat), (2, cond0.toNat), (1, bitNum sx0)] [(3, sh0.toNat), (5, x0.toNat), (5,
    b0.toNat), (5, d0.toNat), (2, upd0.toNat), (2, space0.toNat), (1, bitNum set0), (3, p0.toNat), (1, bitNum inv0), (8, op)] w0 27 rfl
    (by simp [widthBits])
  have g4 := packWord_extract fit hw [(24, disp0.toNat), (2, cond0.toNat), (1, bitNum sx0), (2, w0.toNat)] [(5, x0.toNat), (5,
    b0.toNat), (5, d0.toNat), (2, upd0.toNat), (2, space0.toNat), (1, bitNum set0), (3, p0.toNat), (1, bitNum inv0), (8, op)] sh0 29 rfl
    (by simp [widthBits])
  have g5 := packWord_extract fit hw [(24, disp0.toNat), (2, cond0.toNat), (1, bitNum sx0), (2, w0.toNat), (3, sh0.toNat)] [(5,
    b0.toNat), (5, d0.toNat), (2, upd0.toNat), (2, space0.toNat), (1, bitNum set0), (3, p0.toNat), (1, bitNum inv0), (8, op)] x0 32 rfl
    (by simp [widthBits])
  have g6 := packWord_extract fit hw [(24, disp0.toNat), (2, cond0.toNat), (1, bitNum sx0), (2, w0.toNat), (3, sh0.toNat), (5,
    x0.toNat)] [(5, d0.toNat), (2, upd0.toNat), (2, space0.toNat), (1, bitNum set0), (3, p0.toNat), (1, bitNum inv0), (8, op)] b0 37 rfl
    (by simp [widthBits])
  have g7 := packWord_extract fit hw [(24, disp0.toNat), (2, cond0.toNat), (1, bitNum sx0), (2, w0.toNat), (3, sh0.toNat), (5,
    x0.toNat), (5, b0.toNat)] [(2, upd0.toNat), (2, space0.toNat), (1, bitNum set0), (3, p0.toNat), (1, bitNum inv0), (8, op)] d0 42 rfl
    (by simp [widthBits])
  have g8 := packWord_extract fit hw [(24, disp0.toNat), (2, cond0.toNat), (1, bitNum sx0), (2, w0.toNat), (3, sh0.toNat), (5,
    x0.toNat), (5, b0.toNat), (5, d0.toNat)] [(2, space0.toNat), (1, bitNum set0), (3, p0.toNat), (1, bitNum inv0), (8, op)] upd0 47 rfl
    (by simp [widthBits])
  have g9 := packWord_extract fit hw [(24, disp0.toNat), (2, cond0.toNat), (1, bitNum sx0), (2, w0.toNat), (3, sh0.toNat), (5,
    x0.toNat), (5, b0.toNat), (5, d0.toNat), (2, upd0.toNat)] [(1, bitNum set0), (3, p0.toNat), (1, bitNum inv0), (8, op)] space0 49 rfl
    (by simp [widthBits])
  have g10 := packWord_bit fit hw [(24, disp0.toNat), (2, cond0.toNat), (1, bitNum sx0), (2, w0.toNat), (3, sh0.toNat), (5, x0.toNat),
    (5, b0.toNat), (5, d0.toNat), (2, upd0.toNat), (2, space0.toNat)] [(3, p0.toNat), (1, bitNum inv0), (8, op)] set0 51 rfl (by simp
    [widthBits])
  have g11 := packWord_extract fit hw [(24, disp0.toNat), (2, cond0.toNat), (1, bitNum sx0), (2, w0.toNat), (3, sh0.toNat), (5,
    x0.toNat), (5, b0.toNat), (5, d0.toNat), (2, upd0.toNat), (2, space0.toNat), (1, bitNum set0)] [(1, bitNum inv0), (8, op)] p0 52 rfl
    (by simp [widthBits])
  have g12 := packWord_bit fit hw [(24, disp0.toNat), (2, cond0.toNat), (1, bitNum sx0), (2, w0.toNat), (3, sh0.toNat), (5, x0.toNat),
    (5, b0.toNat), (5, d0.toNat), (2, upd0.toNat), (2, space0.toNat), (1, bitNum set0), (3, p0.toNat)] [(8, op)] inv0 55 rfl (by simp
    [widthBits])
  rw [g0, g1, g2, g3, g4, g5, g6, g7, g8, g9, g10, g11, g12]

theorem fmtSM_op {op : Nat} (hop : op < 256) (f : FmtSM) : ((FmtSM.word op f).extractLsb' 56 8).toNat = op := by
  obtain ⟨⟨inv0, p0, set0⟩, space0, upd0, d0, b0, x0, sh0, w0, sx0, cond0, disp0⟩ := f
  have fit := fits_cons disp0.isLt <| fits_cons cond0.isLt <| fits_bit (b := sx0) <| fits_cons w0.isLt <| fits_cons sh0.isLt <|
    fits_cons x0.isLt <| fits_cons b0.isLt <| fits_cons d0.isLt <| fits_cons upd0.isLt <| fits_cons space0.isLt <| fits_hd hop ⟨inv0,
    p0, set0⟩
  simp only [FmtSM.word, List.cons_append, List.nil_append]
  simp only [Head.fields] at fit ⊢
  have hw : widthBits [(24, disp0.toNat), (2, cond0.toNat), (1, bitNum sx0), (2, w0.toNat), (3, sh0.toNat), (5, x0.toNat), (5,
    b0.toNat), (5, d0.toNat), (2, upd0.toNat), (2, space0.toNat), (1, bitNum set0), (3, p0.toNat), (1, bitNum inv0), (8, op)] = 64 := by
    simp [widthBits]
  exact packWord_num fit hw [(24, disp0.toNat), (2, cond0.toNat), (1, bitNum sx0), (2, w0.toNat), (3, sh0.toNat), (5, x0.toNat), (5,
    b0.toNat), (5, d0.toNat), (2, upd0.toNat), (2, space0.toNat), (1, bitNum set0), (3, p0.toNat), (1, bitNum inv0)] [] 8 op 56 rfl (by
    simp [widthBits])

theorem fmtSM_word_of (w : Word) : FmtSM.word (w.extractLsb' 56 8).toNat (FmtSM.of w) = w := by
  refine packWord_slice w [24, 2, 1, 2, 3, 5, 5, 5, 2, 2, 1, 3, 1, 8] _ ?_ (by simp)
  simp [FmtSM.of, Head.of, Head.fields, sliceBits, bitNum_getElem, BitVec.extractLsb'_toNat, Nat.shiftRight_eq_div_pow, Nat.div_div_eq_div_mul]

theorem fmtSX_of_word {op : Nat} {aop : Nat} (hop : op < 256) (hc : aop < 8) (f : FmtSX) : FmtSX.of (FmtSX.word op aop f) = f := by
  obtain ⟨⟨inv0, p0, set0⟩, space0, upd0, d0, b0, v0, c0, w640, fp0, disp0⟩ := f
  have fit := fits_cons disp0.isLt <| fits_bit (b := fp0) <| fits_bit (b := w640) <| fits_code hc <| fits_cons c0.isLt <| fits_cons
    v0.isLt <| fits_cons b0.isLt <| fits_cons d0.isLt <| fits_cons upd0.isLt <| fits_cons space0.isLt <| fits_hd hop ⟨inv0, p0, set0⟩
  simp only [FmtSX.of, Head.of, FmtSX.word, List.cons_append, List.nil_append]
  simp only [Head.fields] at fit ⊢
  have hw : widthBits [(22, disp0.toNat), (1, bitNum fp0), (1, bitNum w640), (3, aop), (5, c0.toNat), (5, v0.toNat), (5, b0.toNat), (5,
    d0.toNat), (2, upd0.toNat), (2, space0.toNat), (1, bitNum set0), (3, p0.toNat), (1, bitNum inv0), (8, op)] = 64 := by simp
    [widthBits]
  have g0 := packWord_extract fit hw [] [(1, bitNum fp0), (1, bitNum w640), (3, aop), (5, c0.toNat), (5, v0.toNat), (5, b0.toNat), (5,
    d0.toNat), (2, upd0.toNat), (2, space0.toNat), (1, bitNum set0), (3, p0.toNat), (1, bitNum inv0), (8, op)] disp0 0 rfl (by simp
    [widthBits])
  have g1 := packWord_bit fit hw [(22, disp0.toNat)] [(1, bitNum w640), (3, aop), (5, c0.toNat), (5, v0.toNat), (5, b0.toNat), (5,
    d0.toNat), (2, upd0.toNat), (2, space0.toNat), (1, bitNum set0), (3, p0.toNat), (1, bitNum inv0), (8, op)] fp0 22 rfl (by simp
    [widthBits])
  have g2 := packWord_bit fit hw [(22, disp0.toNat), (1, bitNum fp0)] [(3, aop), (5, c0.toNat), (5, v0.toNat), (5, b0.toNat), (5,
    d0.toNat), (2, upd0.toNat), (2, space0.toNat), (1, bitNum set0), (3, p0.toNat), (1, bitNum inv0), (8, op)] w640 23 rfl (by simp
    [widthBits])
  have g4 := packWord_extract fit hw [(22, disp0.toNat), (1, bitNum fp0), (1, bitNum w640), (3, aop)] [(5, v0.toNat), (5, b0.toNat), (5,
    d0.toNat), (2, upd0.toNat), (2, space0.toNat), (1, bitNum set0), (3, p0.toNat), (1, bitNum inv0), (8, op)] c0 27 rfl (by simp
    [widthBits])
  have g5 := packWord_extract fit hw [(22, disp0.toNat), (1, bitNum fp0), (1, bitNum w640), (3, aop), (5, c0.toNat)] [(5, b0.toNat), (5,
    d0.toNat), (2, upd0.toNat), (2, space0.toNat), (1, bitNum set0), (3, p0.toNat), (1, bitNum inv0), (8, op)] v0 32 rfl (by simp
    [widthBits])
  have g6 := packWord_extract fit hw [(22, disp0.toNat), (1, bitNum fp0), (1, bitNum w640), (3, aop), (5, c0.toNat), (5, v0.toNat)] [(5,
    d0.toNat), (2, upd0.toNat), (2, space0.toNat), (1, bitNum set0), (3, p0.toNat), (1, bitNum inv0), (8, op)] b0 37 rfl (by simp
    [widthBits])
  have g7 := packWord_extract fit hw [(22, disp0.toNat), (1, bitNum fp0), (1, bitNum w640), (3, aop), (5, c0.toNat), (5, v0.toNat), (5,
    b0.toNat)] [(2, upd0.toNat), (2, space0.toNat), (1, bitNum set0), (3, p0.toNat), (1, bitNum inv0), (8, op)] d0 42 rfl (by simp
    [widthBits])
  have g8 := packWord_extract fit hw [(22, disp0.toNat), (1, bitNum fp0), (1, bitNum w640), (3, aop), (5, c0.toNat), (5, v0.toNat), (5,
    b0.toNat), (5, d0.toNat)] [(2, space0.toNat), (1, bitNum set0), (3, p0.toNat), (1, bitNum inv0), (8, op)] upd0 47 rfl (by simp
    [widthBits])
  have g9 := packWord_extract fit hw [(22, disp0.toNat), (1, bitNum fp0), (1, bitNum w640), (3, aop), (5, c0.toNat), (5, v0.toNat), (5,
    b0.toNat), (5, d0.toNat), (2, upd0.toNat)] [(1, bitNum set0), (3, p0.toNat), (1, bitNum inv0), (8, op)] space0 49 rfl (by simp
    [widthBits])
  have g10 := packWord_bit fit hw [(22, disp0.toNat), (1, bitNum fp0), (1, bitNum w640), (3, aop), (5, c0.toNat), (5, v0.toNat), (5,
    b0.toNat), (5, d0.toNat), (2, upd0.toNat), (2, space0.toNat)] [(3, p0.toNat), (1, bitNum inv0), (8, op)] set0 51 rfl (by simp
    [widthBits])
  have g11 := packWord_extract fit hw [(22, disp0.toNat), (1, bitNum fp0), (1, bitNum w640), (3, aop), (5, c0.toNat), (5, v0.toNat), (5,
    b0.toNat), (5, d0.toNat), (2, upd0.toNat), (2, space0.toNat), (1, bitNum set0)] [(1, bitNum inv0), (8, op)] p0 52 rfl (by simp
    [widthBits])
  have g12 := packWord_bit fit hw [(22, disp0.toNat), (1, bitNum fp0), (1, bitNum w640), (3, aop), (5, c0.toNat), (5, v0.toNat), (5,
    b0.toNat), (5, d0.toNat), (2, upd0.toNat), (2, space0.toNat), (1, bitNum set0), (3, p0.toNat)] [(8, op)] inv0 55 rfl (by simp
    [widthBits])
  rw [g0, g1, g2, g4, g5, g6, g7, g8, g9, g10, g11, g12]

theorem fmtSX_op {op : Nat} {aop : Nat} (hop : op < 256) (hc : aop < 8) (f : FmtSX) : ((FmtSX.word op aop f).extractLsb' 56 8).toNat =
    op := by
  obtain ⟨⟨inv0, p0, set0⟩, space0, upd0, d0, b0, v0, c0, w640, fp0, disp0⟩ := f
  have fit := fits_cons disp0.isLt <| fits_bit (b := fp0) <| fits_bit (b := w640) <| fits_code hc <| fits_cons c0.isLt <| fits_cons
    v0.isLt <| fits_cons b0.isLt <| fits_cons d0.isLt <| fits_cons upd0.isLt <| fits_cons space0.isLt <| fits_hd hop ⟨inv0, p0, set0⟩
  simp only [FmtSX.word, List.cons_append, List.nil_append]
  simp only [Head.fields] at fit ⊢
  have hw : widthBits [(22, disp0.toNat), (1, bitNum fp0), (1, bitNum w640), (3, aop), (5, c0.toNat), (5, v0.toNat), (5, b0.toNat), (5,
    d0.toNat), (2, upd0.toNat), (2, space0.toNat), (1, bitNum set0), (3, p0.toNat), (1, bitNum inv0), (8, op)] = 64 := by simp
    [widthBits]
  exact packWord_num fit hw [(22, disp0.toNat), (1, bitNum fp0), (1, bitNum w640), (3, aop), (5, c0.toNat), (5, v0.toNat), (5,
    b0.toNat), (5, d0.toNat), (2, upd0.toNat), (2, space0.toNat), (1, bitNum set0), (3, p0.toNat), (1, bitNum inv0)] [] 8 op 56 rfl (by
    simp [widthBits])

theorem fmtSX_code {op : Nat} {aop : Nat} (hop : op < 256) (hc : aop < 8) (f : FmtSX) : ((FmtSX.word op aop f).extractLsb' 24 3).toNat =
    aop := by
  obtain ⟨⟨inv0, p0, set0⟩, space0, upd0, d0, b0, v0, c0, w640, fp0, disp0⟩ := f
  have fit := fits_cons disp0.isLt <| fits_bit (b := fp0) <| fits_bit (b := w640) <| fits_code hc <| fits_cons c0.isLt <| fits_cons
    v0.isLt <| fits_cons b0.isLt <| fits_cons d0.isLt <| fits_cons upd0.isLt <| fits_cons space0.isLt <| fits_hd hop ⟨inv0, p0, set0⟩
  simp only [FmtSX.word, List.cons_append, List.nil_append]
  simp only [Head.fields] at fit ⊢
  have hw : widthBits [(22, disp0.toNat), (1, bitNum fp0), (1, bitNum w640), (3, aop), (5, c0.toNat), (5, v0.toNat), (5, b0.toNat), (5,
    d0.toNat), (2, upd0.toNat), (2, space0.toNat), (1, bitNum set0), (3, p0.toNat), (1, bitNum inv0), (8, op)] = 64 := by simp
    [widthBits]
  exact packWord_num fit hw [(22, disp0.toNat), (1, bitNum fp0), (1, bitNum w640)] [(5, c0.toNat), (5, v0.toNat), (5, b0.toNat), (5,
    d0.toNat), (2, upd0.toNat), (2, space0.toNat), (1, bitNum set0), (3, p0.toNat), (1, bitNum inv0), (8, op)] 3 aop 24 rfl (by simp
    [widthBits])

theorem fmtSX_word_of (w : Word) : FmtSX.word (w.extractLsb' 56 8).toNat (w.extractLsb' 24 3).toNat (FmtSX.of w) = w := by
  refine packWord_slice w [22, 1, 1, 3, 5, 5, 5, 5, 2, 2, 1, 3, 1, 8] _ ?_ (by simp)
  simp [FmtSX.of, Head.of, Head.fields, sliceBits, bitNum_getElem, BitVec.extractLsb'_toNat, Nat.shiftRight_eq_div_pow, Nat.div_div_eq_div_mul]

theorem fmtSB_of_word {op : Nat} (hop : op < 256) (f : FmtSB) : FmtSB.of (FmtSB.word op f) = f := by
  obtain ⟨⟨inv0, p0, set0⟩, rsv0, t0⟩ := f
  have fit := fits_cons t0.isLt <| fits_cons rsv0.isLt <| fits_hd hop ⟨inv0, p0, set0⟩
  simp only [FmtSB.of, Head.of, FmtSB.word, List.cons_append, List.nil_append]
  simp only [Head.fields] at fit ⊢
  have hw : widthBits [(11, t0.toNat), (40, rsv0.toNat), (1, bitNum set0), (3, p0.toNat), (1, bitNum inv0), (8, op)] = 64 := by simp
    [widthBits]
  have g0 := packWord_extract fit hw [] [(40, rsv0.toNat), (1, bitNum set0), (3, p0.toNat), (1, bitNum inv0), (8, op)] t0 0 rfl (by simp
    [widthBits])
  have g1 := packWord_extract fit hw [(11, t0.toNat)] [(1, bitNum set0), (3, p0.toNat), (1, bitNum inv0), (8, op)] rsv0 11 rfl (by simp
    [widthBits])
  have g2 := packWord_bit fit hw [(11, t0.toNat), (40, rsv0.toNat)] [(3, p0.toNat), (1, bitNum inv0), (8, op)] set0 51 rfl (by simp
    [widthBits])
  have g3 := packWord_extract fit hw [(11, t0.toNat), (40, rsv0.toNat), (1, bitNum set0)] [(1, bitNum inv0), (8, op)] p0 52 rfl (by simp
    [widthBits])
  have g4 := packWord_bit fit hw [(11, t0.toNat), (40, rsv0.toNat), (1, bitNum set0), (3, p0.toNat)] [(8, op)] inv0 55 rfl (by simp
    [widthBits])
  rw [g0, g1, g2, g3, g4]

theorem fmtSB_op {op : Nat} (hop : op < 256) (f : FmtSB) : ((FmtSB.word op f).extractLsb' 56 8).toNat = op := by
  obtain ⟨⟨inv0, p0, set0⟩, rsv0, t0⟩ := f
  have fit := fits_cons t0.isLt <| fits_cons rsv0.isLt <| fits_hd hop ⟨inv0, p0, set0⟩
  simp only [FmtSB.word, List.cons_append, List.nil_append]
  simp only [Head.fields] at fit ⊢
  have hw : widthBits [(11, t0.toNat), (40, rsv0.toNat), (1, bitNum set0), (3, p0.toNat), (1, bitNum inv0), (8, op)] = 64 := by simp
    [widthBits]
  exact packWord_num fit hw [(11, t0.toNat), (40, rsv0.toNat), (1, bitNum set0), (3, p0.toNat), (1, bitNum inv0)] [] 8 op 56 rfl (by
    simp [widthBits])

theorem fmtSB_word_of (w : Word) : FmtSB.word (w.extractLsb' 56 8).toNat (FmtSB.of w) = w := by
  refine packWord_slice w [11, 40, 1, 3, 1, 8] _ ?_ (by simp)
  simp [FmtSB.of, Head.of, Head.fields, sliceBits, bitNum_getElem, BitVec.extractLsb'_toNat, Nat.shiftRight_eq_div_pow, Nat.div_div_eq_div_mul]

theorem fmtSL_of_word {op : Nat} (hop : op < 256) (f : FmtSL) : FmtSL.of (FmtSL.word op f) = f := by
  obtain ⟨⟨inv0, p0, set0⟩, reg0, n0, rsv0, l0, cnt0⟩ := f
  have fit := fits_cons cnt0.isLt <| fits_cons l0.isLt <| fits_cons rsv0.isLt <| fits_cons n0.isLt <| fits_bit (b := reg0) <| fits_hd
    hop ⟨inv0, p0, set0⟩
  simp only [FmtSL.of, Head.of, FmtSL.word, List.cons_append, List.nil_append]
  simp only [Head.fields] at fit ⊢
  have hw : widthBits [(32, cnt0.toNat), (11, l0.toNat), (2, rsv0.toNat), (5, n0.toNat), (1, bitNum reg0), (1, bitNum set0), (3,
    p0.toNat), (1, bitNum inv0), (8, op)] = 64 := by simp [widthBits]
  have g0 := packWord_extract fit hw [] [(11, l0.toNat), (2, rsv0.toNat), (5, n0.toNat), (1, bitNum reg0), (1, bitNum set0), (3,
    p0.toNat), (1, bitNum inv0), (8, op)] cnt0 0 rfl (by simp [widthBits])
  have g1 := packWord_extract fit hw [(32, cnt0.toNat)] [(2, rsv0.toNat), (5, n0.toNat), (1, bitNum reg0), (1, bitNum set0), (3,
    p0.toNat), (1, bitNum inv0), (8, op)] l0 32 rfl (by simp [widthBits])
  have g2 := packWord_extract fit hw [(32, cnt0.toNat), (11, l0.toNat)] [(5, n0.toNat), (1, bitNum reg0), (1, bitNum set0), (3,
    p0.toNat), (1, bitNum inv0), (8, op)] rsv0 43 rfl (by simp [widthBits])
  have g3 := packWord_extract fit hw [(32, cnt0.toNat), (11, l0.toNat), (2, rsv0.toNat)] [(1, bitNum reg0), (1, bitNum set0), (3,
    p0.toNat), (1, bitNum inv0), (8, op)] n0 45 rfl (by simp [widthBits])
  have g4 := packWord_bit fit hw [(32, cnt0.toNat), (11, l0.toNat), (2, rsv0.toNat), (5, n0.toNat)] [(1, bitNum set0), (3, p0.toNat),
    (1, bitNum inv0), (8, op)] reg0 50 rfl (by simp [widthBits])
  have g5 := packWord_bit fit hw [(32, cnt0.toNat), (11, l0.toNat), (2, rsv0.toNat), (5, n0.toNat), (1, bitNum reg0)] [(3, p0.toNat),
    (1, bitNum inv0), (8, op)] set0 51 rfl (by simp [widthBits])
  have g6 := packWord_extract fit hw [(32, cnt0.toNat), (11, l0.toNat), (2, rsv0.toNat), (5, n0.toNat), (1, bitNum reg0), (1, bitNum
    set0)] [(1, bitNum inv0), (8, op)] p0 52 rfl (by simp [widthBits])
  have g7 := packWord_bit fit hw [(32, cnt0.toNat), (11, l0.toNat), (2, rsv0.toNat), (5, n0.toNat), (1, bitNum reg0), (1, bitNum set0),
    (3, p0.toNat)] [(8, op)] inv0 55 rfl (by simp [widthBits])
  rw [g0, g1, g2, g3, g4, g5, g6, g7]

theorem fmtSL_op {op : Nat} (hop : op < 256) (f : FmtSL) : ((FmtSL.word op f).extractLsb' 56 8).toNat = op := by
  obtain ⟨⟨inv0, p0, set0⟩, reg0, n0, rsv0, l0, cnt0⟩ := f
  have fit := fits_cons cnt0.isLt <| fits_cons l0.isLt <| fits_cons rsv0.isLt <| fits_cons n0.isLt <| fits_bit (b := reg0) <| fits_hd
    hop ⟨inv0, p0, set0⟩
  simp only [FmtSL.word, List.cons_append, List.nil_append]
  simp only [Head.fields] at fit ⊢
  have hw : widthBits [(32, cnt0.toNat), (11, l0.toNat), (2, rsv0.toNat), (5, n0.toNat), (1, bitNum reg0), (1, bitNum set0), (3,
    p0.toNat), (1, bitNum inv0), (8, op)] = 64 := by simp [widthBits]
  exact packWord_num fit hw [(32, cnt0.toNat), (11, l0.toNat), (2, rsv0.toNat), (5, n0.toNat), (1, bitNum reg0), (1, bitNum set0), (3,
    p0.toNat), (1, bitNum inv0)] [] 8 op 56 rfl (by simp [widthBits])

theorem fmtSL_word_of (w : Word) : FmtSL.word (w.extractLsb' 56 8).toNat (FmtSL.of w) = w := by
  refine packWord_slice w [32, 11, 2, 5, 1, 1, 3, 1, 8] _ ?_ (by simp)
  simp [FmtSL.of, Head.of, Head.fields, sliceBits, bitNum_getElem, BitVec.extractLsb'_toNat, Nat.shiftRight_eq_div_pow, Nat.div_div_eq_div_mul]

theorem fmtSW_of_word {op : Nat} (hop : op < 256) (f : FmtSW) : FmtSW.of (FmtSW.word op f) = f := by
  obtain ⟨⟨inv0, p0, set0⟩, reg0, n0, rsv0, cnt0⟩ := f
  have fit := fits_cons cnt0.isLt <| fits_cons rsv0.isLt <| fits_cons n0.isLt <| fits_bit (b := reg0) <| fits_hd hop ⟨inv0, p0, set0⟩
  simp only [FmtSW.of, Head.of, FmtSW.word, List.cons_append, List.nil_append]
  simp only [Head.fields] at fit ⊢
  have hw : widthBits [(16, cnt0.toNat), (29, rsv0.toNat), (5, n0.toNat), (1, bitNum reg0), (1, bitNum set0), (3, p0.toNat), (1, bitNum
    inv0), (8, op)] = 64 := by simp [widthBits]
  have g0 := packWord_extract fit hw [] [(29, rsv0.toNat), (5, n0.toNat), (1, bitNum reg0), (1, bitNum set0), (3, p0.toNat), (1, bitNum
    inv0), (8, op)] cnt0 0 rfl (by simp [widthBits])
  have g1 := packWord_extract fit hw [(16, cnt0.toNat)] [(5, n0.toNat), (1, bitNum reg0), (1, bitNum set0), (3, p0.toNat), (1, bitNum
    inv0), (8, op)] rsv0 16 rfl (by simp [widthBits])
  have g2 := packWord_extract fit hw [(16, cnt0.toNat), (29, rsv0.toNat)] [(1, bitNum reg0), (1, bitNum set0), (3, p0.toNat), (1, bitNum
    inv0), (8, op)] n0 45 rfl (by simp [widthBits])
  have g3 := packWord_bit fit hw [(16, cnt0.toNat), (29, rsv0.toNat), (5, n0.toNat)] [(1, bitNum set0), (3, p0.toNat), (1, bitNum inv0),
    (8, op)] reg0 50 rfl (by simp [widthBits])
  have g4 := packWord_bit fit hw [(16, cnt0.toNat), (29, rsv0.toNat), (5, n0.toNat), (1, bitNum reg0)] [(3, p0.toNat), (1, bitNum inv0),
    (8, op)] set0 51 rfl (by simp [widthBits])
  have g5 := packWord_extract fit hw [(16, cnt0.toNat), (29, rsv0.toNat), (5, n0.toNat), (1, bitNum reg0), (1, bitNum set0)] [(1, bitNum
    inv0), (8, op)] p0 52 rfl (by simp [widthBits])
  have g6 := packWord_bit fit hw [(16, cnt0.toNat), (29, rsv0.toNat), (5, n0.toNat), (1, bitNum reg0), (1, bitNum set0), (3, p0.toNat)]
    [(8, op)] inv0 55 rfl (by simp [widthBits])
  rw [g0, g1, g2, g3, g4, g5, g6]

theorem fmtSW_op {op : Nat} (hop : op < 256) (f : FmtSW) : ((FmtSW.word op f).extractLsb' 56 8).toNat = op := by
  obtain ⟨⟨inv0, p0, set0⟩, reg0, n0, rsv0, cnt0⟩ := f
  have fit := fits_cons cnt0.isLt <| fits_cons rsv0.isLt <| fits_cons n0.isLt <| fits_bit (b := reg0) <| fits_hd hop ⟨inv0, p0, set0⟩
  simp only [FmtSW.word, List.cons_append, List.nil_append]
  simp only [Head.fields] at fit ⊢
  have hw : widthBits [(16, cnt0.toNat), (29, rsv0.toNat), (5, n0.toNat), (1, bitNum reg0), (1, bitNum set0), (3, p0.toNat), (1, bitNum
    inv0), (8, op)] = 64 := by simp [widthBits]
  exact packWord_num fit hw [(16, cnt0.toNat), (29, rsv0.toNat), (5, n0.toNat), (1, bitNum reg0), (1, bitNum set0), (3, p0.toNat), (1,
    bitNum inv0)] [] 8 op 56 rfl (by simp [widthBits])

theorem fmtSW_word_of (w : Word) : FmtSW.word (w.extractLsb' 56 8).toNat (FmtSW.of w) = w := by
  refine packWord_slice w [16, 29, 5, 1, 1, 3, 1, 8] _ ?_ (by simp)
  simp [FmtSW.of, Head.of, Head.fields, sliceBits, bitNum_getElem, BitVec.extractLsb'_toNat, Nat.shiftRight_eq_div_pow, Nat.div_div_eq_div_mul]

theorem fmtSY_of_word {op : Nat} {form : Nat} (hop : op < 256) (hc : form < 8) (f : FmtSY) : FmtSY.of (FmtSY.word op form f) = f := by
  obtain ⟨⟨inv0, p0, set0⟩, mask0, rsv0⟩ := f
  have fit := fits_cons rsv0.isLt <| fits_cons mask0.isLt <| fits_code hc <| fits_hd hop ⟨inv0, p0, set0⟩
  simp only [FmtSY.of, Head.of, FmtSY.word, List.cons_append, List.nil_append]
  simp only [Head.fields] at fit ⊢
  have hw : widthBits [(45, rsv0.toNat), (3, mask0.toNat), (3, form), (1, bitNum set0), (3, p0.toNat), (1, bitNum inv0), (8, op)] = 64
    := by simp [widthBits]
  have g0 := packWord_extract fit hw [] [(3, mask0.toNat), (3, form), (1, bitNum set0), (3, p0.toNat), (1, bitNum inv0), (8, op)] rsv0 0
    rfl (by simp [widthBits])
  have g1 := packWord_extract fit hw [(45, rsv0.toNat)] [(3, form), (1, bitNum set0), (3, p0.toNat), (1, bitNum inv0), (8, op)] mask0 45
    rfl (by simp [widthBits])
  have g3 := packWord_bit fit hw [(45, rsv0.toNat), (3, mask0.toNat), (3, form)] [(3, p0.toNat), (1, bitNum inv0), (8, op)] set0 51 rfl
    (by simp [widthBits])
  have g4 := packWord_extract fit hw [(45, rsv0.toNat), (3, mask0.toNat), (3, form), (1, bitNum set0)] [(1, bitNum inv0), (8, op)] p0 52
    rfl (by simp [widthBits])
  have g5 := packWord_bit fit hw [(45, rsv0.toNat), (3, mask0.toNat), (3, form), (1, bitNum set0), (3, p0.toNat)] [(8, op)] inv0 55 rfl
    (by simp [widthBits])
  rw [g0, g1, g3, g4, g5]

theorem fmtSY_op {op : Nat} {form : Nat} (hop : op < 256) (hc : form < 8) (f : FmtSY) : ((FmtSY.word op form f).extractLsb' 56 8).toNat
    = op := by
  obtain ⟨⟨inv0, p0, set0⟩, mask0, rsv0⟩ := f
  have fit := fits_cons rsv0.isLt <| fits_cons mask0.isLt <| fits_code hc <| fits_hd hop ⟨inv0, p0, set0⟩
  simp only [FmtSY.word, List.cons_append, List.nil_append]
  simp only [Head.fields] at fit ⊢
  have hw : widthBits [(45, rsv0.toNat), (3, mask0.toNat), (3, form), (1, bitNum set0), (3, p0.toNat), (1, bitNum inv0), (8, op)] = 64
    := by simp [widthBits]
  exact packWord_num fit hw [(45, rsv0.toNat), (3, mask0.toNat), (3, form), (1, bitNum set0), (3, p0.toNat), (1, bitNum inv0)] [] 8 op
    56 rfl (by simp [widthBits])

theorem fmtSY_code {op : Nat} {form : Nat} (hop : op < 256) (hc : form < 8) (f : FmtSY) : ((FmtSY.word op form f).extractLsb' 48
    3).toNat = form := by
  obtain ⟨⟨inv0, p0, set0⟩, mask0, rsv0⟩ := f
  have fit := fits_cons rsv0.isLt <| fits_cons mask0.isLt <| fits_code hc <| fits_hd hop ⟨inv0, p0, set0⟩
  simp only [FmtSY.word, List.cons_append, List.nil_append]
  simp only [Head.fields] at fit ⊢
  have hw : widthBits [(45, rsv0.toNat), (3, mask0.toNat), (3, form), (1, bitNum set0), (3, p0.toNat), (1, bitNum inv0), (8, op)] = 64
    := by simp [widthBits]
  exact packWord_num fit hw [(45, rsv0.toNat), (3, mask0.toNat)] [(1, bitNum set0), (3, p0.toNat), (1, bitNum inv0), (8, op)] 3 form 48
    rfl (by simp [widthBits])

theorem fmtSY_word_of (w : Word) : FmtSY.word (w.extractLsb' 56 8).toNat (w.extractLsb' 48 3).toNat (FmtSY.of w) = w := by
  refine packWord_slice w [45, 3, 3, 1, 3, 1, 8] _ ?_ (by simp)
  simp [FmtSY.of, Head.of, Head.fields, sliceBits, bitNum_getElem, BitVec.extractLsb'_toNat, Nat.shiftRight_eq_div_pow, Nat.div_div_eq_div_mul]

theorem fmtS0_of_word {op : Nat} (hop : op < 256) (f : FmtS0) : FmtS0.of (FmtS0.word op f) = f := by
  obtain ⟨⟨inv0, p0, set0⟩, rsv0⟩ := f
  have fit := fits_cons rsv0.isLt <| fits_hd hop ⟨inv0, p0, set0⟩
  simp only [FmtS0.of, Head.of, FmtS0.word, List.cons_append, List.nil_append]
  simp only [Head.fields] at fit ⊢
  have hw : widthBits [(51, rsv0.toNat), (1, bitNum set0), (3, p0.toNat), (1, bitNum inv0), (8, op)] = 64 := by simp [widthBits]
  have g0 := packWord_extract fit hw [] [(1, bitNum set0), (3, p0.toNat), (1, bitNum inv0), (8, op)] rsv0 0 rfl (by simp [widthBits])
  have g1 := packWord_bit fit hw [(51, rsv0.toNat)] [(3, p0.toNat), (1, bitNum inv0), (8, op)] set0 51 rfl (by simp [widthBits])
  have g2 := packWord_extract fit hw [(51, rsv0.toNat), (1, bitNum set0)] [(1, bitNum inv0), (8, op)] p0 52 rfl (by simp [widthBits])
  have g3 := packWord_bit fit hw [(51, rsv0.toNat), (1, bitNum set0), (3, p0.toNat)] [(8, op)] inv0 55 rfl (by simp [widthBits])
  rw [g0, g1, g2, g3]

theorem fmtS0_op {op : Nat} (hop : op < 256) (f : FmtS0) : ((FmtS0.word op f).extractLsb' 56 8).toNat = op := by
  obtain ⟨⟨inv0, p0, set0⟩, rsv0⟩ := f
  have fit := fits_cons rsv0.isLt <| fits_hd hop ⟨inv0, p0, set0⟩
  simp only [FmtS0.word, List.cons_append, List.nil_append]
  simp only [Head.fields] at fit ⊢
  have hw : widthBits [(51, rsv0.toNat), (1, bitNum set0), (3, p0.toNat), (1, bitNum inv0), (8, op)] = 64 := by simp [widthBits]
  exact packWord_num fit hw [(51, rsv0.toNat), (1, bitNum set0), (3, p0.toNat), (1, bitNum inv0)] [] 8 op 56 rfl (by simp [widthBits])

theorem fmtS0_word_of (w : Word) : FmtS0.word (w.extractLsb' 56 8).toNat (FmtS0.of w) = w := by
  refine packWord_slice w [51, 1, 3, 1, 8] _ ?_ (by simp)
  simp [FmtS0.of, Head.of, Head.fields, sliceBits, bitNum_getElem, BitVec.extractLsb'_toNat, Nat.shiftRight_eq_div_pow, Nat.div_div_eq_div_mul]

theorem fmtVA_of_word {op : Nat} (hop : op < 256) (f : FmtVA) : FmtVA.of (FmtVA.word op f) = f := by
  obtain ⟨⟨inv0, p0, set0⟩, beats0, d0, a0, b0, c0, fmt0, fmt20, sat0, sr0, bs0, sub0, lane0⟩ := f
  have fit := fits_cons lane0.isLt <| fits_cons sub0.isLt <| fits_bit (b := bs0) <| fits_bit (b := sr0) <| fits_bit (b := sat0) <|
    fits_cons fmt20.isLt <| fits_cons fmt0.isLt <| fits_cons c0.isLt <| fits_cons b0.isLt <| fits_cons a0.isLt <| fits_cons d0.isLt <|
    fits_cons beats0.isLt <| fits_hd hop ⟨inv0, p0, set0⟩
  simp only [FmtVA.of, Head.of, FmtVA.word, List.cons_append, List.nil_append]
  simp only [Head.fields] at fit ⊢
  have hw : widthBits [(10, lane0.toNat), (3, sub0.toNat), (1, bitNum bs0), (1, bitNum sr0), (1, bitNum sat0), (4, fmt20.toNat), (4,
    fmt0.toNat), (6, c0.toNat), (6, b0.toNat), (6, a0.toNat), (6, d0.toNat), (3, beats0.toNat), (1, bitNum set0), (3, p0.toNat), (1,
    bitNum inv0), (8, op)] = 64 := by simp [widthBits]
  have g0 := packWord_extract fit hw [] [(3, sub0.toNat), (1, bitNum bs0), (1, bitNum sr0), (1, bitNum sat0), (4, fmt20.toNat), (4,
    fmt0.toNat), (6, c0.toNat), (6, b0.toNat), (6, a0.toNat), (6, d0.toNat), (3, beats0.toNat), (1, bitNum set0), (3, p0.toNat), (1,
    bitNum inv0), (8, op)] lane0 0 rfl (by simp [widthBits])
  have g1 := packWord_extract fit hw [(10, lane0.toNat)] [(1, bitNum bs0), (1, bitNum sr0), (1, bitNum sat0), (4, fmt20.toNat), (4,
    fmt0.toNat), (6, c0.toNat), (6, b0.toNat), (6, a0.toNat), (6, d0.toNat), (3, beats0.toNat), (1, bitNum set0), (3, p0.toNat), (1,
    bitNum inv0), (8, op)] sub0 10 rfl (by simp [widthBits])
  have g2 := packWord_bit fit hw [(10, lane0.toNat), (3, sub0.toNat)] [(1, bitNum sr0), (1, bitNum sat0), (4, fmt20.toNat), (4,
    fmt0.toNat), (6, c0.toNat), (6, b0.toNat), (6, a0.toNat), (6, d0.toNat), (3, beats0.toNat), (1, bitNum set0), (3, p0.toNat), (1,
    bitNum inv0), (8, op)] bs0 13 rfl (by simp [widthBits])
  have g3 := packWord_bit fit hw [(10, lane0.toNat), (3, sub0.toNat), (1, bitNum bs0)] [(1, bitNum sat0), (4, fmt20.toNat), (4,
    fmt0.toNat), (6, c0.toNat), (6, b0.toNat), (6, a0.toNat), (6, d0.toNat), (3, beats0.toNat), (1, bitNum set0), (3, p0.toNat), (1,
    bitNum inv0), (8, op)] sr0 14 rfl (by simp [widthBits])
  have g4 := packWord_bit fit hw [(10, lane0.toNat), (3, sub0.toNat), (1, bitNum bs0), (1, bitNum sr0)] [(4, fmt20.toNat), (4,
    fmt0.toNat), (6, c0.toNat), (6, b0.toNat), (6, a0.toNat), (6, d0.toNat), (3, beats0.toNat), (1, bitNum set0), (3, p0.toNat), (1,
    bitNum inv0), (8, op)] sat0 15 rfl (by simp [widthBits])
  have g5 := packWord_extract fit hw [(10, lane0.toNat), (3, sub0.toNat), (1, bitNum bs0), (1, bitNum sr0), (1, bitNum sat0)] [(4,
    fmt0.toNat), (6, c0.toNat), (6, b0.toNat), (6, a0.toNat), (6, d0.toNat), (3, beats0.toNat), (1, bitNum set0), (3, p0.toNat), (1,
    bitNum inv0), (8, op)] fmt20 16 rfl (by simp [widthBits])
  have g6 := packWord_extract fit hw [(10, lane0.toNat), (3, sub0.toNat), (1, bitNum bs0), (1, bitNum sr0), (1, bitNum sat0), (4,
    fmt20.toNat)] [(6, c0.toNat), (6, b0.toNat), (6, a0.toNat), (6, d0.toNat), (3, beats0.toNat), (1, bitNum set0), (3, p0.toNat), (1,
    bitNum inv0), (8, op)] fmt0 20 rfl (by simp [widthBits])
  have g7 := packWord_extract fit hw [(10, lane0.toNat), (3, sub0.toNat), (1, bitNum bs0), (1, bitNum sr0), (1, bitNum sat0), (4,
    fmt20.toNat), (4, fmt0.toNat)] [(6, b0.toNat), (6, a0.toNat), (6, d0.toNat), (3, beats0.toNat), (1, bitNum set0), (3, p0.toNat), (1,
    bitNum inv0), (8, op)] c0 24 rfl (by simp [widthBits])
  have g8 := packWord_extract fit hw [(10, lane0.toNat), (3, sub0.toNat), (1, bitNum bs0), (1, bitNum sr0), (1, bitNum sat0), (4,
    fmt20.toNat), (4, fmt0.toNat), (6, c0.toNat)] [(6, a0.toNat), (6, d0.toNat), (3, beats0.toNat), (1, bitNum set0), (3, p0.toNat), (1,
    bitNum inv0), (8, op)] b0 30 rfl (by simp [widthBits])
  have g9 := packWord_extract fit hw [(10, lane0.toNat), (3, sub0.toNat), (1, bitNum bs0), (1, bitNum sr0), (1, bitNum sat0), (4,
    fmt20.toNat), (4, fmt0.toNat), (6, c0.toNat), (6, b0.toNat)] [(6, d0.toNat), (3, beats0.toNat), (1, bitNum set0), (3, p0.toNat), (1,
    bitNum inv0), (8, op)] a0 36 rfl (by simp [widthBits])
  have g10 := packWord_extract fit hw [(10, lane0.toNat), (3, sub0.toNat), (1, bitNum bs0), (1, bitNum sr0), (1, bitNum sat0), (4,
    fmt20.toNat), (4, fmt0.toNat), (6, c0.toNat), (6, b0.toNat), (6, a0.toNat)] [(3, beats0.toNat), (1, bitNum set0), (3, p0.toNat), (1,
    bitNum inv0), (8, op)] d0 42 rfl (by simp [widthBits])
  have g11 := packWord_extract fit hw [(10, lane0.toNat), (3, sub0.toNat), (1, bitNum bs0), (1, bitNum sr0), (1, bitNum sat0), (4,
    fmt20.toNat), (4, fmt0.toNat), (6, c0.toNat), (6, b0.toNat), (6, a0.toNat), (6, d0.toNat)] [(1, bitNum set0), (3, p0.toNat), (1,
    bitNum inv0), (8, op)] beats0 48 rfl (by simp [widthBits])
  have g12 := packWord_bit fit hw [(10, lane0.toNat), (3, sub0.toNat), (1, bitNum bs0), (1, bitNum sr0), (1, bitNum sat0), (4,
    fmt20.toNat), (4, fmt0.toNat), (6, c0.toNat), (6, b0.toNat), (6, a0.toNat), (6, d0.toNat), (3, beats0.toNat)] [(3, p0.toNat), (1,
    bitNum inv0), (8, op)] set0 51 rfl (by simp [widthBits])
  have g13 := packWord_extract fit hw [(10, lane0.toNat), (3, sub0.toNat), (1, bitNum bs0), (1, bitNum sr0), (1, bitNum sat0), (4,
    fmt20.toNat), (4, fmt0.toNat), (6, c0.toNat), (6, b0.toNat), (6, a0.toNat), (6, d0.toNat), (3, beats0.toNat), (1, bitNum set0)] [(1,
    bitNum inv0), (8, op)] p0 52 rfl (by simp [widthBits])
  have g14 := packWord_bit fit hw [(10, lane0.toNat), (3, sub0.toNat), (1, bitNum bs0), (1, bitNum sr0), (1, bitNum sat0), (4,
    fmt20.toNat), (4, fmt0.toNat), (6, c0.toNat), (6, b0.toNat), (6, a0.toNat), (6, d0.toNat), (3, beats0.toNat), (1, bitNum set0), (3,
    p0.toNat)] [(8, op)] inv0 55 rfl (by simp [widthBits])
  rw [g0, g1, g2, g3, g4, g5, g6, g7, g8, g9, g10, g11, g12, g13, g14]

theorem fmtVA_op {op : Nat} (hop : op < 256) (f : FmtVA) : ((FmtVA.word op f).extractLsb' 56 8).toNat = op := by
  obtain ⟨⟨inv0, p0, set0⟩, beats0, d0, a0, b0, c0, fmt0, fmt20, sat0, sr0, bs0, sub0, lane0⟩ := f
  have fit := fits_cons lane0.isLt <| fits_cons sub0.isLt <| fits_bit (b := bs0) <| fits_bit (b := sr0) <| fits_bit (b := sat0) <|
    fits_cons fmt20.isLt <| fits_cons fmt0.isLt <| fits_cons c0.isLt <| fits_cons b0.isLt <| fits_cons a0.isLt <| fits_cons d0.isLt <|
    fits_cons beats0.isLt <| fits_hd hop ⟨inv0, p0, set0⟩
  simp only [FmtVA.word, List.cons_append, List.nil_append]
  simp only [Head.fields] at fit ⊢
  have hw : widthBits [(10, lane0.toNat), (3, sub0.toNat), (1, bitNum bs0), (1, bitNum sr0), (1, bitNum sat0), (4, fmt20.toNat), (4,
    fmt0.toNat), (6, c0.toNat), (6, b0.toNat), (6, a0.toNat), (6, d0.toNat), (3, beats0.toNat), (1, bitNum set0), (3, p0.toNat), (1,
    bitNum inv0), (8, op)] = 64 := by simp [widthBits]
  exact packWord_num fit hw [(10, lane0.toNat), (3, sub0.toNat), (1, bitNum bs0), (1, bitNum sr0), (1, bitNum sat0), (4, fmt20.toNat),
    (4, fmt0.toNat), (6, c0.toNat), (6, b0.toNat), (6, a0.toNat), (6, d0.toNat), (3, beats0.toNat), (1, bitNum set0), (3, p0.toNat), (1,
    bitNum inv0)] [] 8 op 56 rfl (by simp [widthBits])

theorem fmtVA_word_of (w : Word) : FmtVA.word (w.extractLsb' 56 8).toNat (FmtVA.of w) = w := by
  refine packWord_slice w [10, 3, 1, 1, 1, 4, 4, 6, 6, 6, 6, 3, 1, 3, 1, 8] _ ?_ (by simp)
  simp [FmtVA.of, Head.of, Head.fields, sliceBits, bitNum_getElem, BitVec.extractLsb'_toNat, Nat.shiftRight_eq_div_pow, Nat.div_div_eq_div_mul]

theorem fmtVM_of_word {op : Nat} (hop : op < 256) (f : FmtVM) : FmtVM.of (FmtVM.word op f) = f := by
  obtain ⟨⟨inv0, p0, set0⟩, beats0, v0, rsv0, upd0, b0, x0, sh0, disp0⟩ := f
  have fit := fits_cons disp0.isLt <| fits_cons sh0.isLt <| fits_cons x0.isLt <| fits_cons b0.isLt <| fits_cons upd0.isLt <| fits_cons
    rsv0.isLt <| fits_cons v0.isLt <| fits_cons beats0.isLt <| fits_hd hop ⟨inv0, p0, set0⟩
  simp only [FmtVM.of, Head.of, FmtVM.word, List.cons_append, List.nil_append]
  simp only [Head.fields] at fit ⊢
  have hw : widthBits [(25, disp0.toNat), (3, sh0.toNat), (5, x0.toNat), (5, b0.toNat), (2, upd0.toNat), (2, rsv0.toNat), (6, v0.toNat),
    (3, beats0.toNat), (1, bitNum set0), (3, p0.toNat), (1, bitNum inv0), (8, op)] = 64 := by simp [widthBits]
  have g0 := packWord_extract fit hw [] [(3, sh0.toNat), (5, x0.toNat), (5, b0.toNat), (2, upd0.toNat), (2, rsv0.toNat), (6, v0.toNat),
    (3, beats0.toNat), (1, bitNum set0), (3, p0.toNat), (1, bitNum inv0), (8, op)] disp0 0 rfl (by simp [widthBits])
  have g1 := packWord_extract fit hw [(25, disp0.toNat)] [(5, x0.toNat), (5, b0.toNat), (2, upd0.toNat), (2, rsv0.toNat), (6, v0.toNat),
    (3, beats0.toNat), (1, bitNum set0), (3, p0.toNat), (1, bitNum inv0), (8, op)] sh0 25 rfl (by simp [widthBits])
  have g2 := packWord_extract fit hw [(25, disp0.toNat), (3, sh0.toNat)] [(5, b0.toNat), (2, upd0.toNat), (2, rsv0.toNat), (6,
    v0.toNat), (3, beats0.toNat), (1, bitNum set0), (3, p0.toNat), (1, bitNum inv0), (8, op)] x0 28 rfl (by simp [widthBits])
  have g3 := packWord_extract fit hw [(25, disp0.toNat), (3, sh0.toNat), (5, x0.toNat)] [(2, upd0.toNat), (2, rsv0.toNat), (6,
    v0.toNat), (3, beats0.toNat), (1, bitNum set0), (3, p0.toNat), (1, bitNum inv0), (8, op)] b0 33 rfl (by simp [widthBits])
  have g4 := packWord_extract fit hw [(25, disp0.toNat), (3, sh0.toNat), (5, x0.toNat), (5, b0.toNat)] [(2, rsv0.toNat), (6, v0.toNat),
    (3, beats0.toNat), (1, bitNum set0), (3, p0.toNat), (1, bitNum inv0), (8, op)] upd0 38 rfl (by simp [widthBits])
  have g5 := packWord_extract fit hw [(25, disp0.toNat), (3, sh0.toNat), (5, x0.toNat), (5, b0.toNat), (2, upd0.toNat)] [(6, v0.toNat),
    (3, beats0.toNat), (1, bitNum set0), (3, p0.toNat), (1, bitNum inv0), (8, op)] rsv0 40 rfl (by simp [widthBits])
  have g6 := packWord_extract fit hw [(25, disp0.toNat), (3, sh0.toNat), (5, x0.toNat), (5, b0.toNat), (2, upd0.toNat), (2, rsv0.toNat)]
    [(3, beats0.toNat), (1, bitNum set0), (3, p0.toNat), (1, bitNum inv0), (8, op)] v0 42 rfl (by simp [widthBits])
  have g7 := packWord_extract fit hw [(25, disp0.toNat), (3, sh0.toNat), (5, x0.toNat), (5, b0.toNat), (2, upd0.toNat), (2, rsv0.toNat),
    (6, v0.toNat)] [(1, bitNum set0), (3, p0.toNat), (1, bitNum inv0), (8, op)] beats0 48 rfl (by simp [widthBits])
  have g8 := packWord_bit fit hw [(25, disp0.toNat), (3, sh0.toNat), (5, x0.toNat), (5, b0.toNat), (2, upd0.toNat), (2, rsv0.toNat), (6,
    v0.toNat), (3, beats0.toNat)] [(3, p0.toNat), (1, bitNum inv0), (8, op)] set0 51 rfl (by simp [widthBits])
  have g9 := packWord_extract fit hw [(25, disp0.toNat), (3, sh0.toNat), (5, x0.toNat), (5, b0.toNat), (2, upd0.toNat), (2, rsv0.toNat),
    (6, v0.toNat), (3, beats0.toNat), (1, bitNum set0)] [(1, bitNum inv0), (8, op)] p0 52 rfl (by simp [widthBits])
  have g10 := packWord_bit fit hw [(25, disp0.toNat), (3, sh0.toNat), (5, x0.toNat), (5, b0.toNat), (2, upd0.toNat), (2, rsv0.toNat),
    (6, v0.toNat), (3, beats0.toNat), (1, bitNum set0), (3, p0.toNat)] [(8, op)] inv0 55 rfl (by simp [widthBits])
  rw [g0, g1, g2, g3, g4, g5, g6, g7, g8, g9, g10]

theorem fmtVM_op {op : Nat} (hop : op < 256) (f : FmtVM) : ((FmtVM.word op f).extractLsb' 56 8).toNat = op := by
  obtain ⟨⟨inv0, p0, set0⟩, beats0, v0, rsv0, upd0, b0, x0, sh0, disp0⟩ := f
  have fit := fits_cons disp0.isLt <| fits_cons sh0.isLt <| fits_cons x0.isLt <| fits_cons b0.isLt <| fits_cons upd0.isLt <| fits_cons
    rsv0.isLt <| fits_cons v0.isLt <| fits_cons beats0.isLt <| fits_hd hop ⟨inv0, p0, set0⟩
  simp only [FmtVM.word, List.cons_append, List.nil_append]
  simp only [Head.fields] at fit ⊢
  have hw : widthBits [(25, disp0.toNat), (3, sh0.toNat), (5, x0.toNat), (5, b0.toNat), (2, upd0.toNat), (2, rsv0.toNat), (6, v0.toNat),
    (3, beats0.toNat), (1, bitNum set0), (3, p0.toNat), (1, bitNum inv0), (8, op)] = 64 := by simp [widthBits]
  exact packWord_num fit hw [(25, disp0.toNat), (3, sh0.toNat), (5, x0.toNat), (5, b0.toNat), (2, upd0.toNat), (2, rsv0.toNat), (6,
    v0.toNat), (3, beats0.toNat), (1, bitNum set0), (3, p0.toNat), (1, bitNum inv0)] [] 8 op 56 rfl (by simp [widthBits])

theorem fmtVM_word_of (w : Word) : FmtVM.word (w.extractLsb' 56 8).toNat (FmtVM.of w) = w := by
  refine packWord_slice w [25, 3, 5, 5, 2, 2, 6, 3, 1, 3, 1, 8] _ ?_ (by simp)
  simp [FmtVM.of, Head.of, Head.fields, sliceBits, bitNum_getElem, BitVec.extractLsb'_toNat, Nat.shiftRight_eq_div_pow, Nat.div_div_eq_div_mul]

theorem fmtVC_of_word {op : Nat} (hop : op < 256) (f : FmtVC) : FmtVC.of (FmtVC.word op f) = f := by
  obtain ⟨⟨inv0, p0, set0⟩, beats0, v0, r0, row0, rsv0⟩ := f
  have fit := fits_cons rsv0.isLt <| fits_cons row0.isLt <| fits_cons r0.isLt <| fits_cons v0.isLt <| fits_cons beats0.isLt <| fits_hd
    hop ⟨inv0, p0, set0⟩
  simp only [FmtVC.of, Head.of, FmtVC.word, List.cons_append, List.nil_append]
  simp only [Head.fields] at fit ⊢
  have hw : widthBits [(26, rsv0.toNat), (11, row0.toNat), (5, r0.toNat), (6, v0.toNat), (3, beats0.toNat), (1, bitNum set0), (3,
    p0.toNat), (1, bitNum inv0), (8, op)] = 64 := by simp [widthBits]
  have g0 := packWord_extract fit hw [] [(11, row0.toNat), (5, r0.toNat), (6, v0.toNat), (3, beats0.toNat), (1, bitNum set0), (3,
    p0.toNat), (1, bitNum inv0), (8, op)] rsv0 0 rfl (by simp [widthBits])
  have g1 := packWord_extract fit hw [(26, rsv0.toNat)] [(5, r0.toNat), (6, v0.toNat), (3, beats0.toNat), (1, bitNum set0), (3,
    p0.toNat), (1, bitNum inv0), (8, op)] row0 26 rfl (by simp [widthBits])
  have g2 := packWord_extract fit hw [(26, rsv0.toNat), (11, row0.toNat)] [(6, v0.toNat), (3, beats0.toNat), (1, bitNum set0), (3,
    p0.toNat), (1, bitNum inv0), (8, op)] r0 37 rfl (by simp [widthBits])
  have g3 := packWord_extract fit hw [(26, rsv0.toNat), (11, row0.toNat), (5, r0.toNat)] [(3, beats0.toNat), (1, bitNum set0), (3,
    p0.toNat), (1, bitNum inv0), (8, op)] v0 42 rfl (by simp [widthBits])
  have g4 := packWord_extract fit hw [(26, rsv0.toNat), (11, row0.toNat), (5, r0.toNat), (6, v0.toNat)] [(1, bitNum set0), (3,
    p0.toNat), (1, bitNum inv0), (8, op)] beats0 48 rfl (by simp [widthBits])
  have g5 := packWord_bit fit hw [(26, rsv0.toNat), (11, row0.toNat), (5, r0.toNat), (6, v0.toNat), (3, beats0.toNat)] [(3, p0.toNat),
    (1, bitNum inv0), (8, op)] set0 51 rfl (by simp [widthBits])
  have g6 := packWord_extract fit hw [(26, rsv0.toNat), (11, row0.toNat), (5, r0.toNat), (6, v0.toNat), (3, beats0.toNat), (1, bitNum
    set0)] [(1, bitNum inv0), (8, op)] p0 52 rfl (by simp [widthBits])
  have g7 := packWord_bit fit hw [(26, rsv0.toNat), (11, row0.toNat), (5, r0.toNat), (6, v0.toNat), (3, beats0.toNat), (1, bitNum set0),
    (3, p0.toNat)] [(8, op)] inv0 55 rfl (by simp [widthBits])
  rw [g0, g1, g2, g3, g4, g5, g6, g7]

theorem fmtVC_op {op : Nat} (hop : op < 256) (f : FmtVC) : ((FmtVC.word op f).extractLsb' 56 8).toNat = op := by
  obtain ⟨⟨inv0, p0, set0⟩, beats0, v0, r0, row0, rsv0⟩ := f
  have fit := fits_cons rsv0.isLt <| fits_cons row0.isLt <| fits_cons r0.isLt <| fits_cons v0.isLt <| fits_cons beats0.isLt <| fits_hd
    hop ⟨inv0, p0, set0⟩
  simp only [FmtVC.word, List.cons_append, List.nil_append]
  simp only [Head.fields] at fit ⊢
  have hw : widthBits [(26, rsv0.toNat), (11, row0.toNat), (5, r0.toNat), (6, v0.toNat), (3, beats0.toNat), (1, bitNum set0), (3,
    p0.toNat), (1, bitNum inv0), (8, op)] = 64 := by simp [widthBits]
  exact packWord_num fit hw [(26, rsv0.toNat), (11, row0.toNat), (5, r0.toNat), (6, v0.toNat), (3, beats0.toNat), (1, bitNum set0), (3,
    p0.toNat), (1, bitNum inv0)] [] 8 op 56 rfl (by simp [widthBits])

theorem fmtVC_word_of (w : Word) : FmtVC.word (w.extractLsb' 56 8).toNat (FmtVC.of w) = w := by
  refine packWord_slice w [26, 11, 5, 6, 3, 1, 3, 1, 8] _ ?_ (by simp)
  simp [FmtVC.of, Head.of, Head.fields, sliceBits, bitNum_getElem, BitVec.extractLsb'_toNat, Nat.shiftRight_eq_div_pow, Nat.div_div_eq_div_mul]

theorem fmtML_of_word {op : Nat} (hop : op < 256) (f : FmtML) : FmtML.of (FmtML.word op f) = f := by
  obtain ⟨⟨inv0, p0, set0⟩, k20, b0, x0, sh0, upd0, fmt0, klen0, nlen0, disp0⟩ := f
  have fit := fits_cons disp0.isLt <| fits_cons nlen0.isLt <| fits_cons klen0.isLt <| fits_cons fmt0.isLt <| fits_cons upd0.isLt <|
    fits_cons sh0.isLt <| fits_cons x0.isLt <| fits_cons b0.isLt <| fits_bit (b := k20) <| fits_hd hop ⟨inv0, p0, set0⟩
  simp only [FmtML.of, Head.of, FmtML.word, List.cons_append, List.nil_append]
  simp only [Head.fields] at fit ⊢
  have hw : widthBits [(17, disp0.toNat), (7, nlen0.toNat), (7, klen0.toNat), (4, fmt0.toNat), (2, upd0.toNat), (3, sh0.toNat), (5,
    x0.toNat), (5, b0.toNat), (1, bitNum k20), (1, bitNum set0), (3, p0.toNat), (1, bitNum inv0), (8, op)] = 64 := by simp [widthBits]
  have g0 := packWord_extract fit hw [] [(7, nlen0.toNat), (7, klen0.toNat), (4, fmt0.toNat), (2, upd0.toNat), (3, sh0.toNat), (5,
    x0.toNat), (5, b0.toNat), (1, bitNum k20), (1, bitNum set0), (3, p0.toNat), (1, bitNum inv0), (8, op)] disp0 0 rfl (by simp
    [widthBits])
  have g1 := packWord_extract fit hw [(17, disp0.toNat)] [(7, klen0.toNat), (4, fmt0.toNat), (2, upd0.toNat), (3, sh0.toNat), (5,
    x0.toNat), (5, b0.toNat), (1, bitNum k20), (1, bitNum set0), (3, p0.toNat), (1, bitNum inv0), (8, op)] nlen0 17 rfl (by simp
    [widthBits])
  have g2 := packWord_extract fit hw [(17, disp0.toNat), (7, nlen0.toNat)] [(4, fmt0.toNat), (2, upd0.toNat), (3, sh0.toNat), (5,
    x0.toNat), (5, b0.toNat), (1, bitNum k20), (1, bitNum set0), (3, p0.toNat), (1, bitNum inv0), (8, op)] klen0 24 rfl (by simp
    [widthBits])
  have g3 := packWord_extract fit hw [(17, disp0.toNat), (7, nlen0.toNat), (7, klen0.toNat)] [(2, upd0.toNat), (3, sh0.toNat), (5,
    x0.toNat), (5, b0.toNat), (1, bitNum k20), (1, bitNum set0), (3, p0.toNat), (1, bitNum inv0), (8, op)] fmt0 31 rfl (by simp
    [widthBits])
  have g4 := packWord_extract fit hw [(17, disp0.toNat), (7, nlen0.toNat), (7, klen0.toNat), (4, fmt0.toNat)] [(3, sh0.toNat), (5,
    x0.toNat), (5, b0.toNat), (1, bitNum k20), (1, bitNum set0), (3, p0.toNat), (1, bitNum inv0), (8, op)] upd0 35 rfl (by simp
    [widthBits])
  have g5 := packWord_extract fit hw [(17, disp0.toNat), (7, nlen0.toNat), (7, klen0.toNat), (4, fmt0.toNat), (2, upd0.toNat)] [(5,
    x0.toNat), (5, b0.toNat), (1, bitNum k20), (1, bitNum set0), (3, p0.toNat), (1, bitNum inv0), (8, op)] sh0 37 rfl (by simp
    [widthBits])
  have g6 := packWord_extract fit hw [(17, disp0.toNat), (7, nlen0.toNat), (7, klen0.toNat), (4, fmt0.toNat), (2, upd0.toNat), (3,
    sh0.toNat)] [(5, b0.toNat), (1, bitNum k20), (1, bitNum set0), (3, p0.toNat), (1, bitNum inv0), (8, op)] x0 40 rfl (by simp
    [widthBits])
  have g7 := packWord_extract fit hw [(17, disp0.toNat), (7, nlen0.toNat), (7, klen0.toNat), (4, fmt0.toNat), (2, upd0.toNat), (3,
    sh0.toNat), (5, x0.toNat)] [(1, bitNum k20), (1, bitNum set0), (3, p0.toNat), (1, bitNum inv0), (8, op)] b0 45 rfl (by simp
    [widthBits])
  have g8 := packWord_bit fit hw [(17, disp0.toNat), (7, nlen0.toNat), (7, klen0.toNat), (4, fmt0.toNat), (2, upd0.toNat), (3,
    sh0.toNat), (5, x0.toNat), (5, b0.toNat)] [(1, bitNum set0), (3, p0.toNat), (1, bitNum inv0), (8, op)] k20 50 rfl (by simp
    [widthBits])
  have g9 := packWord_bit fit hw [(17, disp0.toNat), (7, nlen0.toNat), (7, klen0.toNat), (4, fmt0.toNat), (2, upd0.toNat), (3,
    sh0.toNat), (5, x0.toNat), (5, b0.toNat), (1, bitNum k20)] [(3, p0.toNat), (1, bitNum inv0), (8, op)] set0 51 rfl (by simp
    [widthBits])
  have g10 := packWord_extract fit hw [(17, disp0.toNat), (7, nlen0.toNat), (7, klen0.toNat), (4, fmt0.toNat), (2, upd0.toNat), (3,
    sh0.toNat), (5, x0.toNat), (5, b0.toNat), (1, bitNum k20), (1, bitNum set0)] [(1, bitNum inv0), (8, op)] p0 52 rfl (by simp
    [widthBits])
  have g11 := packWord_bit fit hw [(17, disp0.toNat), (7, nlen0.toNat), (7, klen0.toNat), (4, fmt0.toNat), (2, upd0.toNat), (3,
    sh0.toNat), (5, x0.toNat), (5, b0.toNat), (1, bitNum k20), (1, bitNum set0), (3, p0.toNat)] [(8, op)] inv0 55 rfl (by simp
    [widthBits])
  rw [g0, g1, g2, g3, g4, g5, g6, g7, g8, g9, g10, g11]

theorem fmtML_op {op : Nat} (hop : op < 256) (f : FmtML) : ((FmtML.word op f).extractLsb' 56 8).toNat = op := by
  obtain ⟨⟨inv0, p0, set0⟩, k20, b0, x0, sh0, upd0, fmt0, klen0, nlen0, disp0⟩ := f
  have fit := fits_cons disp0.isLt <| fits_cons nlen0.isLt <| fits_cons klen0.isLt <| fits_cons fmt0.isLt <| fits_cons upd0.isLt <|
    fits_cons sh0.isLt <| fits_cons x0.isLt <| fits_cons b0.isLt <| fits_bit (b := k20) <| fits_hd hop ⟨inv0, p0, set0⟩
  simp only [FmtML.word, List.cons_append, List.nil_append]
  simp only [Head.fields] at fit ⊢
  have hw : widthBits [(17, disp0.toNat), (7, nlen0.toNat), (7, klen0.toNat), (4, fmt0.toNat), (2, upd0.toNat), (3, sh0.toNat), (5,
    x0.toNat), (5, b0.toNat), (1, bitNum k20), (1, bitNum set0), (3, p0.toNat), (1, bitNum inv0), (8, op)] = 64 := by simp [widthBits]
  exact packWord_num fit hw [(17, disp0.toNat), (7, nlen0.toNat), (7, klen0.toNat), (4, fmt0.toNat), (2, upd0.toNat), (3, sh0.toNat),
    (5, x0.toNat), (5, b0.toNat), (1, bitNum k20), (1, bitNum set0), (3, p0.toNat), (1, bitNum inv0)] [] 8 op 56 rfl (by simp
    [widthBits])

theorem fmtML_word_of (w : Word) : FmtML.word (w.extractLsb' 56 8).toNat (FmtML.of w) = w := by
  refine packWord_slice w [17, 7, 7, 4, 2, 3, 5, 5, 1, 1, 3, 1, 8] _ ?_ (by simp)
  simp [FmtML.of, Head.of, Head.fields, sliceBits, bitNum_getElem, BitVec.extractLsb'_toNat, Nat.shiftRight_eq_div_pow, Nat.div_div_eq_div_mul]

theorem fmtMS_of_word {op : Nat} (hop : op < 256) (f : FmtMS) : FmtMS.of (FmtMS.word op f) = f := by
  obtain ⟨⟨inv0, p0, set0⟩, acc0, b0, x0, sh0, upd0, fmt0, m0, r0, stride0, disp0⟩ := f
  have fit := fits_cons disp0.isLt <| fits_cons stride0.isLt <| fits_cons r0.isLt <| fits_cons m0.isLt <| fits_cons fmt0.isLt <|
    fits_cons upd0.isLt <| fits_cons sh0.isLt <| fits_cons x0.isLt <| fits_cons b0.isLt <| fits_bit (b := acc0) <| fits_hd hop ⟨inv0,
    p0, set0⟩
  simp only [FmtMS.of, Head.of, FmtMS.word, List.cons_append, List.nil_append]
  simp only [Head.fields] at fit ⊢
  have hw : widthBits [(15, disp0.toNat), (6, stride0.toNat), (5, r0.toNat), (5, m0.toNat), (4, fmt0.toNat), (2, upd0.toNat), (3,
    sh0.toNat), (5, x0.toNat), (5, b0.toNat), (1, bitNum acc0), (1, bitNum set0), (3, p0.toNat), (1, bitNum inv0), (8, op)] = 64 := by
    simp [widthBits]
  have g0 := packWord_extract fit hw [] [(6, stride0.toNat), (5, r0.toNat), (5, m0.toNat), (4, fmt0.toNat), (2, upd0.toNat), (3,
    sh0.toNat), (5, x0.toNat), (5, b0.toNat), (1, bitNum acc0), (1, bitNum set0), (3, p0.toNat), (1, bitNum inv0), (8, op)] disp0 0 rfl
    (by simp [widthBits])
  have g1 := packWord_extract fit hw [(15, disp0.toNat)] [(5, r0.toNat), (5, m0.toNat), (4, fmt0.toNat), (2, upd0.toNat), (3,
    sh0.toNat), (5, x0.toNat), (5, b0.toNat), (1, bitNum acc0), (1, bitNum set0), (3, p0.toNat), (1, bitNum inv0), (8, op)] stride0 15
    rfl (by simp [widthBits])
  have g2 := packWord_extract fit hw [(15, disp0.toNat), (6, stride0.toNat)] [(5, m0.toNat), (4, fmt0.toNat), (2, upd0.toNat), (3,
    sh0.toNat), (5, x0.toNat), (5, b0.toNat), (1, bitNum acc0), (1, bitNum set0), (3, p0.toNat), (1, bitNum inv0), (8, op)] r0 21 rfl
    (by simp [widthBits])
  have g3 := packWord_extract fit hw [(15, disp0.toNat), (6, stride0.toNat), (5, r0.toNat)] [(4, fmt0.toNat), (2, upd0.toNat), (3,
    sh0.toNat), (5, x0.toNat), (5, b0.toNat), (1, bitNum acc0), (1, bitNum set0), (3, p0.toNat), (1, bitNum inv0), (8, op)] m0 26 rfl
    (by simp [widthBits])
  have g4 := packWord_extract fit hw [(15, disp0.toNat), (6, stride0.toNat), (5, r0.toNat), (5, m0.toNat)] [(2, upd0.toNat), (3,
    sh0.toNat), (5, x0.toNat), (5, b0.toNat), (1, bitNum acc0), (1, bitNum set0), (3, p0.toNat), (1, bitNum inv0), (8, op)] fmt0 31 rfl
    (by simp [widthBits])
  have g5 := packWord_extract fit hw [(15, disp0.toNat), (6, stride0.toNat), (5, r0.toNat), (5, m0.toNat), (4, fmt0.toNat)] [(3,
    sh0.toNat), (5, x0.toNat), (5, b0.toNat), (1, bitNum acc0), (1, bitNum set0), (3, p0.toNat), (1, bitNum inv0), (8, op)] upd0 35 rfl
    (by simp [widthBits])
  have g6 := packWord_extract fit hw [(15, disp0.toNat), (6, stride0.toNat), (5, r0.toNat), (5, m0.toNat), (4, fmt0.toNat), (2,
    upd0.toNat)] [(5, x0.toNat), (5, b0.toNat), (1, bitNum acc0), (1, bitNum set0), (3, p0.toNat), (1, bitNum inv0), (8, op)] sh0 37 rfl
    (by simp [widthBits])
  have g7 := packWord_extract fit hw [(15, disp0.toNat), (6, stride0.toNat), (5, r0.toNat), (5, m0.toNat), (4, fmt0.toNat), (2,
    upd0.toNat), (3, sh0.toNat)] [(5, b0.toNat), (1, bitNum acc0), (1, bitNum set0), (3, p0.toNat), (1, bitNum inv0), (8, op)] x0 40 rfl
    (by simp [widthBits])
  have g8 := packWord_extract fit hw [(15, disp0.toNat), (6, stride0.toNat), (5, r0.toNat), (5, m0.toNat), (4, fmt0.toNat), (2,
    upd0.toNat), (3, sh0.toNat), (5, x0.toNat)] [(1, bitNum acc0), (1, bitNum set0), (3, p0.toNat), (1, bitNum inv0), (8, op)] b0 45 rfl
    (by simp [widthBits])
  have g9 := packWord_bit fit hw [(15, disp0.toNat), (6, stride0.toNat), (5, r0.toNat), (5, m0.toNat), (4, fmt0.toNat), (2, upd0.toNat),
    (3, sh0.toNat), (5, x0.toNat), (5, b0.toNat)] [(1, bitNum set0), (3, p0.toNat), (1, bitNum inv0), (8, op)] acc0 50 rfl (by simp
    [widthBits])
  have g10 := packWord_bit fit hw [(15, disp0.toNat), (6, stride0.toNat), (5, r0.toNat), (5, m0.toNat), (4, fmt0.toNat), (2,
    upd0.toNat), (3, sh0.toNat), (5, x0.toNat), (5, b0.toNat), (1, bitNum acc0)] [(3, p0.toNat), (1, bitNum inv0), (8, op)] set0 51 rfl
    (by simp [widthBits])
  have g11 := packWord_extract fit hw [(15, disp0.toNat), (6, stride0.toNat), (5, r0.toNat), (5, m0.toNat), (4, fmt0.toNat), (2,
    upd0.toNat), (3, sh0.toNat), (5, x0.toNat), (5, b0.toNat), (1, bitNum acc0), (1, bitNum set0)] [(1, bitNum inv0), (8, op)] p0 52 rfl
    (by simp [widthBits])
  have g12 := packWord_bit fit hw [(15, disp0.toNat), (6, stride0.toNat), (5, r0.toNat), (5, m0.toNat), (4, fmt0.toNat), (2,
    upd0.toNat), (3, sh0.toNat), (5, x0.toNat), (5, b0.toNat), (1, bitNum acc0), (1, bitNum set0), (3, p0.toNat)] [(8, op)] inv0 55 rfl
    (by simp [widthBits])
  rw [g0, g1, g2, g3, g4, g5, g6, g7, g8, g9, g10, g11, g12]

theorem fmtMS_op {op : Nat} (hop : op < 256) (f : FmtMS) : ((FmtMS.word op f).extractLsb' 56 8).toNat = op := by
  obtain ⟨⟨inv0, p0, set0⟩, acc0, b0, x0, sh0, upd0, fmt0, m0, r0, stride0, disp0⟩ := f
  have fit := fits_cons disp0.isLt <| fits_cons stride0.isLt <| fits_cons r0.isLt <| fits_cons m0.isLt <| fits_cons fmt0.isLt <|
    fits_cons upd0.isLt <| fits_cons sh0.isLt <| fits_cons x0.isLt <| fits_cons b0.isLt <| fits_bit (b := acc0) <| fits_hd hop ⟨inv0,
    p0, set0⟩
  simp only [FmtMS.word, List.cons_append, List.nil_append]
  simp only [Head.fields] at fit ⊢
  have hw : widthBits [(15, disp0.toNat), (6, stride0.toNat), (5, r0.toNat), (5, m0.toNat), (4, fmt0.toNat), (2, upd0.toNat), (3,
    sh0.toNat), (5, x0.toNat), (5, b0.toNat), (1, bitNum acc0), (1, bitNum set0), (3, p0.toNat), (1, bitNum inv0), (8, op)] = 64 := by
    simp [widthBits]
  exact packWord_num fit hw [(15, disp0.toNat), (6, stride0.toNat), (5, r0.toNat), (5, m0.toNat), (4, fmt0.toNat), (2, upd0.toNat), (3,
    sh0.toNat), (5, x0.toNat), (5, b0.toNat), (1, bitNum acc0), (1, bitNum set0), (3, p0.toNat), (1, bitNum inv0)] [] 8 op 56 rfl (by
    simp [widthBits])

theorem fmtMS_word_of (w : Word) : FmtMS.word (w.extractLsb' 56 8).toNat (FmtMS.of w) = w := by
  refine packWord_slice w [15, 6, 5, 5, 4, 2, 3, 5, 5, 1, 1, 3, 1, 8] _ ?_ (by simp)
  simp [FmtMS.of, Head.of, Head.fields, sliceBits, bitNum_getElem, BitVec.extractLsb'_toNat, Nat.shiftRight_eq_div_pow, Nat.div_div_eq_div_mul]

theorem fmtMD_of_word {op : Nat} (hop : op < 256) (f : FmtMD) : FmtMD.of (FmtMD.word op f) = f := by
  obtain ⟨⟨inv0, p0, set0⟩, acc0, b0, x0, sh0, upd0, fmt0, m0, r0, stride0, form0, disp0⟩ := f
  have fit := fits_cons disp0.isLt <| fits_cons form0.isLt <| fits_cons stride0.isLt <| fits_cons r0.isLt <| fits_cons m0.isLt <|
    fits_cons fmt0.isLt <| fits_cons upd0.isLt <| fits_cons sh0.isLt <| fits_cons x0.isLt <| fits_cons b0.isLt <| fits_bit (b := acc0)
    <| fits_hd hop ⟨inv0, p0, set0⟩
  simp only [FmtMD.of, Head.of, FmtMD.word, List.cons_append, List.nil_append]
  simp only [Head.fields] at fit ⊢
  have hw : widthBits [(12, disp0.toNat), (3, form0.toNat), (6, stride0.toNat), (5, r0.toNat), (5, m0.toNat), (4, fmt0.toNat), (2,
    upd0.toNat), (3, sh0.toNat), (5, x0.toNat), (5, b0.toNat), (1, bitNum acc0), (1, bitNum set0), (3, p0.toNat), (1, bitNum inv0), (8,
    op)] = 64 := by simp [widthBits]
  have g0 := packWord_extract fit hw [] [(3, form0.toNat), (6, stride0.toNat), (5, r0.toNat), (5, m0.toNat), (4, fmt0.toNat), (2,
    upd0.toNat), (3, sh0.toNat), (5, x0.toNat), (5, b0.toNat), (1, bitNum acc0), (1, bitNum set0), (3, p0.toNat), (1, bitNum inv0), (8,
    op)] disp0 0 rfl (by simp [widthBits])
  have g1 := packWord_extract fit hw [(12, disp0.toNat)] [(6, stride0.toNat), (5, r0.toNat), (5, m0.toNat), (4, fmt0.toNat), (2,
    upd0.toNat), (3, sh0.toNat), (5, x0.toNat), (5, b0.toNat), (1, bitNum acc0), (1, bitNum set0), (3, p0.toNat), (1, bitNum inv0), (8,
    op)] form0 12 rfl (by simp [widthBits])
  have g2 := packWord_extract fit hw [(12, disp0.toNat), (3, form0.toNat)] [(5, r0.toNat), (5, m0.toNat), (4, fmt0.toNat), (2,
    upd0.toNat), (3, sh0.toNat), (5, x0.toNat), (5, b0.toNat), (1, bitNum acc0), (1, bitNum set0), (3, p0.toNat), (1, bitNum inv0), (8,
    op)] stride0 15 rfl (by simp [widthBits])
  have g3 := packWord_extract fit hw [(12, disp0.toNat), (3, form0.toNat), (6, stride0.toNat)] [(5, m0.toNat), (4, fmt0.toNat), (2,
    upd0.toNat), (3, sh0.toNat), (5, x0.toNat), (5, b0.toNat), (1, bitNum acc0), (1, bitNum set0), (3, p0.toNat), (1, bitNum inv0), (8,
    op)] r0 21 rfl (by simp [widthBits])
  have g4 := packWord_extract fit hw [(12, disp0.toNat), (3, form0.toNat), (6, stride0.toNat), (5, r0.toNat)] [(4, fmt0.toNat), (2,
    upd0.toNat), (3, sh0.toNat), (5, x0.toNat), (5, b0.toNat), (1, bitNum acc0), (1, bitNum set0), (3, p0.toNat), (1, bitNum inv0), (8,
    op)] m0 26 rfl (by simp [widthBits])
  have g5 := packWord_extract fit hw [(12, disp0.toNat), (3, form0.toNat), (6, stride0.toNat), (5, r0.toNat), (5, m0.toNat)] [(2,
    upd0.toNat), (3, sh0.toNat), (5, x0.toNat), (5, b0.toNat), (1, bitNum acc0), (1, bitNum set0), (3, p0.toNat), (1, bitNum inv0), (8,
    op)] fmt0 31 rfl (by simp [widthBits])
  have g6 := packWord_extract fit hw [(12, disp0.toNat), (3, form0.toNat), (6, stride0.toNat), (5, r0.toNat), (5, m0.toNat), (4,
    fmt0.toNat)] [(3, sh0.toNat), (5, x0.toNat), (5, b0.toNat), (1, bitNum acc0), (1, bitNum set0), (3, p0.toNat), (1, bitNum inv0), (8,
    op)] upd0 35 rfl (by simp [widthBits])
  have g7 := packWord_extract fit hw [(12, disp0.toNat), (3, form0.toNat), (6, stride0.toNat), (5, r0.toNat), (5, m0.toNat), (4,
    fmt0.toNat), (2, upd0.toNat)] [(5, x0.toNat), (5, b0.toNat), (1, bitNum acc0), (1, bitNum set0), (3, p0.toNat), (1, bitNum inv0),
    (8, op)] sh0 37 rfl (by simp [widthBits])
  have g8 := packWord_extract fit hw [(12, disp0.toNat), (3, form0.toNat), (6, stride0.toNat), (5, r0.toNat), (5, m0.toNat), (4,
    fmt0.toNat), (2, upd0.toNat), (3, sh0.toNat)] [(5, b0.toNat), (1, bitNum acc0), (1, bitNum set0), (3, p0.toNat), (1, bitNum inv0),
    (8, op)] x0 40 rfl (by simp [widthBits])
  have g9 := packWord_extract fit hw [(12, disp0.toNat), (3, form0.toNat), (6, stride0.toNat), (5, r0.toNat), (5, m0.toNat), (4,
    fmt0.toNat), (2, upd0.toNat), (3, sh0.toNat), (5, x0.toNat)] [(1, bitNum acc0), (1, bitNum set0), (3, p0.toNat), (1, bitNum inv0),
    (8, op)] b0 45 rfl (by simp [widthBits])
  have g10 := packWord_bit fit hw [(12, disp0.toNat), (3, form0.toNat), (6, stride0.toNat), (5, r0.toNat), (5, m0.toNat), (4,
    fmt0.toNat), (2, upd0.toNat), (3, sh0.toNat), (5, x0.toNat), (5, b0.toNat)] [(1, bitNum set0), (3, p0.toNat), (1, bitNum inv0), (8,
    op)] acc0 50 rfl (by simp [widthBits])
  have g11 := packWord_bit fit hw [(12, disp0.toNat), (3, form0.toNat), (6, stride0.toNat), (5, r0.toNat), (5, m0.toNat), (4,
    fmt0.toNat), (2, upd0.toNat), (3, sh0.toNat), (5, x0.toNat), (5, b0.toNat), (1, bitNum acc0)] [(3, p0.toNat), (1, bitNum inv0), (8,
    op)] set0 51 rfl (by simp [widthBits])
  have g12 := packWord_extract fit hw [(12, disp0.toNat), (3, form0.toNat), (6, stride0.toNat), (5, r0.toNat), (5, m0.toNat), (4,
    fmt0.toNat), (2, upd0.toNat), (3, sh0.toNat), (5, x0.toNat), (5, b0.toNat), (1, bitNum acc0), (1, bitNum set0)] [(1, bitNum inv0),
    (8, op)] p0 52 rfl (by simp [widthBits])
  have g13 := packWord_bit fit hw [(12, disp0.toNat), (3, form0.toNat), (6, stride0.toNat), (5, r0.toNat), (5, m0.toNat), (4,
    fmt0.toNat), (2, upd0.toNat), (3, sh0.toNat), (5, x0.toNat), (5, b0.toNat), (1, bitNum acc0), (1, bitNum set0), (3, p0.toNat)] [(8,
    op)] inv0 55 rfl (by simp [widthBits])
  rw [g0, g1, g2, g3, g4, g5, g6, g7, g8, g9, g10, g11, g12, g13]

theorem fmtMD_op {op : Nat} (hop : op < 256) (f : FmtMD) : ((FmtMD.word op f).extractLsb' 56 8).toNat = op := by
  obtain ⟨⟨inv0, p0, set0⟩, acc0, b0, x0, sh0, upd0, fmt0, m0, r0, stride0, form0, disp0⟩ := f
  have fit := fits_cons disp0.isLt <| fits_cons form0.isLt <| fits_cons stride0.isLt <| fits_cons r0.isLt <| fits_cons m0.isLt <|
    fits_cons fmt0.isLt <| fits_cons upd0.isLt <| fits_cons sh0.isLt <| fits_cons x0.isLt <| fits_cons b0.isLt <| fits_bit (b := acc0)
    <| fits_hd hop ⟨inv0, p0, set0⟩
  simp only [FmtMD.word, List.cons_append, List.nil_append]
  simp only [Head.fields] at fit ⊢
  have hw : widthBits [(12, disp0.toNat), (3, form0.toNat), (6, stride0.toNat), (5, r0.toNat), (5, m0.toNat), (4, fmt0.toNat), (2,
    upd0.toNat), (3, sh0.toNat), (5, x0.toNat), (5, b0.toNat), (1, bitNum acc0), (1, bitNum set0), (3, p0.toNat), (1, bitNum inv0), (8,
    op)] = 64 := by simp [widthBits]
  exact packWord_num fit hw [(12, disp0.toNat), (3, form0.toNat), (6, stride0.toNat), (5, r0.toNat), (5, m0.toNat), (4, fmt0.toNat), (2,
    upd0.toNat), (3, sh0.toNat), (5, x0.toNat), (5, b0.toNat), (1, bitNum acc0), (1, bitNum set0), (3, p0.toNat), (1, bitNum inv0)] [] 8
    op 56 rfl (by simp [widthBits])

theorem fmtMD_word_of (w : Word) : FmtMD.word (w.extractLsb' 56 8).toNat (FmtMD.of w) = w := by
  refine packWord_slice w [12, 3, 6, 5, 5, 4, 2, 3, 5, 5, 1, 1, 3, 1, 8] _ ?_ (by simp)
  simp [FmtMD.of, Head.of, Head.fields, sliceBits, bitNum_getElem, BitVec.extractLsb'_toNat, Nat.shiftRight_eq_div_pow, Nat.div_div_eq_div_mul]

theorem fmtMO_of_word {op : Nat} (hop : op < 256) (f : FmtMO) : FmtMO.of (FmtMO.word op f) = f := by
  obtain ⟨⟨inv0, p0, set0⟩, acc0, a0, b0, fmta0, fmtb0, k0, r0, stride0, rsv0⟩ := f
  have fit := fits_cons rsv0.isLt <| fits_cons stride0.isLt <| fits_cons r0.isLt <| fits_cons k0.isLt <| fits_cons fmtb0.isLt <|
    fits_cons fmta0.isLt <| fits_cons b0.isLt <| fits_cons a0.isLt <| fits_bit (b := acc0) <| fits_hd hop ⟨inv0, p0, set0⟩
  simp only [FmtMO.of, Head.of, FmtMO.word, List.cons_append, List.nil_append]
  simp only [Head.fields] at fit ⊢
  have hw : widthBits [(16, rsv0.toNat), (6, stride0.toNat), (5, r0.toNat), (5, k0.toNat), (4, fmtb0.toNat), (4, fmta0.toNat), (5,
    b0.toNat), (5, a0.toNat), (1, bitNum acc0), (1, bitNum set0), (3, p0.toNat), (1, bitNum inv0), (8, op)] = 64 := by simp [widthBits]
  have g0 := packWord_extract fit hw [] [(6, stride0.toNat), (5, r0.toNat), (5, k0.toNat), (4, fmtb0.toNat), (4, fmta0.toNat), (5,
    b0.toNat), (5, a0.toNat), (1, bitNum acc0), (1, bitNum set0), (3, p0.toNat), (1, bitNum inv0), (8, op)] rsv0 0 rfl (by simp
    [widthBits])
  have g1 := packWord_extract fit hw [(16, rsv0.toNat)] [(5, r0.toNat), (5, k0.toNat), (4, fmtb0.toNat), (4, fmta0.toNat), (5,
    b0.toNat), (5, a0.toNat), (1, bitNum acc0), (1, bitNum set0), (3, p0.toNat), (1, bitNum inv0), (8, op)] stride0 16 rfl (by simp
    [widthBits])
  have g2 := packWord_extract fit hw [(16, rsv0.toNat), (6, stride0.toNat)] [(5, k0.toNat), (4, fmtb0.toNat), (4, fmta0.toNat), (5,
    b0.toNat), (5, a0.toNat), (1, bitNum acc0), (1, bitNum set0), (3, p0.toNat), (1, bitNum inv0), (8, op)] r0 22 rfl (by simp
    [widthBits])
  have g3 := packWord_extract fit hw [(16, rsv0.toNat), (6, stride0.toNat), (5, r0.toNat)] [(4, fmtb0.toNat), (4, fmta0.toNat), (5,
    b0.toNat), (5, a0.toNat), (1, bitNum acc0), (1, bitNum set0), (3, p0.toNat), (1, bitNum inv0), (8, op)] k0 27 rfl (by simp
    [widthBits])
  have g4 := packWord_extract fit hw [(16, rsv0.toNat), (6, stride0.toNat), (5, r0.toNat), (5, k0.toNat)] [(4, fmta0.toNat), (5,
    b0.toNat), (5, a0.toNat), (1, bitNum acc0), (1, bitNum set0), (3, p0.toNat), (1, bitNum inv0), (8, op)] fmtb0 32 rfl (by simp
    [widthBits])
  have g5 := packWord_extract fit hw [(16, rsv0.toNat), (6, stride0.toNat), (5, r0.toNat), (5, k0.toNat), (4, fmtb0.toNat)] [(5,
    b0.toNat), (5, a0.toNat), (1, bitNum acc0), (1, bitNum set0), (3, p0.toNat), (1, bitNum inv0), (8, op)] fmta0 36 rfl (by simp
    [widthBits])
  have g6 := packWord_extract fit hw [(16, rsv0.toNat), (6, stride0.toNat), (5, r0.toNat), (5, k0.toNat), (4, fmtb0.toNat), (4,
    fmta0.toNat)] [(5, a0.toNat), (1, bitNum acc0), (1, bitNum set0), (3, p0.toNat), (1, bitNum inv0), (8, op)] b0 40 rfl (by simp
    [widthBits])
  have g7 := packWord_extract fit hw [(16, rsv0.toNat), (6, stride0.toNat), (5, r0.toNat), (5, k0.toNat), (4, fmtb0.toNat), (4,
    fmta0.toNat), (5, b0.toNat)] [(1, bitNum acc0), (1, bitNum set0), (3, p0.toNat), (1, bitNum inv0), (8, op)] a0 45 rfl (by simp
    [widthBits])
  have g8 := packWord_bit fit hw [(16, rsv0.toNat), (6, stride0.toNat), (5, r0.toNat), (5, k0.toNat), (4, fmtb0.toNat), (4,
    fmta0.toNat), (5, b0.toNat), (5, a0.toNat)] [(1, bitNum set0), (3, p0.toNat), (1, bitNum inv0), (8, op)] acc0 50 rfl (by simp
    [widthBits])
  have g9 := packWord_bit fit hw [(16, rsv0.toNat), (6, stride0.toNat), (5, r0.toNat), (5, k0.toNat), (4, fmtb0.toNat), (4,
    fmta0.toNat), (5, b0.toNat), (5, a0.toNat), (1, bitNum acc0)] [(3, p0.toNat), (1, bitNum inv0), (8, op)] set0 51 rfl (by simp
    [widthBits])
  have g10 := packWord_extract fit hw [(16, rsv0.toNat), (6, stride0.toNat), (5, r0.toNat), (5, k0.toNat), (4, fmtb0.toNat), (4,
    fmta0.toNat), (5, b0.toNat), (5, a0.toNat), (1, bitNum acc0), (1, bitNum set0)] [(1, bitNum inv0), (8, op)] p0 52 rfl (by simp
    [widthBits])
  have g11 := packWord_bit fit hw [(16, rsv0.toNat), (6, stride0.toNat), (5, r0.toNat), (5, k0.toNat), (4, fmtb0.toNat), (4,
    fmta0.toNat), (5, b0.toNat), (5, a0.toNat), (1, bitNum acc0), (1, bitNum set0), (3, p0.toNat)] [(8, op)] inv0 55 rfl (by simp
    [widthBits])
  rw [g0, g1, g2, g3, g4, g5, g6, g7, g8, g9, g10, g11]

theorem fmtMO_op {op : Nat} (hop : op < 256) (f : FmtMO) : ((FmtMO.word op f).extractLsb' 56 8).toNat = op := by
  obtain ⟨⟨inv0, p0, set0⟩, acc0, a0, b0, fmta0, fmtb0, k0, r0, stride0, rsv0⟩ := f
  have fit := fits_cons rsv0.isLt <| fits_cons stride0.isLt <| fits_cons r0.isLt <| fits_cons k0.isLt <| fits_cons fmtb0.isLt <|
    fits_cons fmta0.isLt <| fits_cons b0.isLt <| fits_cons a0.isLt <| fits_bit (b := acc0) <| fits_hd hop ⟨inv0, p0, set0⟩
  simp only [FmtMO.word, List.cons_append, List.nil_append]
  simp only [Head.fields] at fit ⊢
  have hw : widthBits [(16, rsv0.toNat), (6, stride0.toNat), (5, r0.toNat), (5, k0.toNat), (4, fmtb0.toNat), (4, fmta0.toNat), (5,
    b0.toNat), (5, a0.toNat), (1, bitNum acc0), (1, bitNum set0), (3, p0.toNat), (1, bitNum inv0), (8, op)] = 64 := by simp [widthBits]
  exact packWord_num fit hw [(16, rsv0.toNat), (6, stride0.toNat), (5, r0.toNat), (5, k0.toNat), (4, fmtb0.toNat), (4, fmta0.toNat), (5,
    b0.toNat), (5, a0.toNat), (1, bitNum acc0), (1, bitNum set0), (3, p0.toNat), (1, bitNum inv0)] [] 8 op 56 rfl (by simp [widthBits])

theorem fmtMO_word_of (w : Word) : FmtMO.word (w.extractLsb' 56 8).toNat (FmtMO.of w) = w := by
  refine packWord_slice w [16, 6, 5, 5, 4, 4, 5, 5, 1, 1, 3, 1, 8] _ ?_ (by simp)
  simp [FmtMO.of, Head.of, Head.fields, sliceBits, bitNum_getElem, BitVec.extractLsb'_toNat, Nat.shiftRight_eq_div_pow, Nat.div_div_eq_div_mul]

theorem fmtMR_of_word {op : Nat} (hop : op < 256) (f : FmtMR) : FmtMR.of (FmtMR.word op f) = f := by
  obtain ⟨⟨inv0, p0, set0⟩, sat0, b0, r0, n0, ofmt0, sr0, stride0, disp0⟩ := f
  have fit := fits_cons disp0.isLt <| fits_cons stride0.isLt <| fits_bit (b := sr0) <| fits_cons ofmt0.isLt <| fits_cons n0.isLt <|
    fits_cons r0.isLt <| fits_cons b0.isLt <| fits_bit (b := sat0) <| fits_hd hop ⟨inv0, p0, set0⟩
  simp only [FmtMR.of, Head.of, FmtMR.word, List.cons_append, List.nil_append]
  simp only [Head.fields] at fit ⊢
  have hw : widthBits [(24, disp0.toNat), (6, stride0.toNat), (1, bitNum sr0), (4, ofmt0.toNat), (5, n0.toNat), (5, r0.toNat), (5,
    b0.toNat), (1, bitNum sat0), (1, bitNum set0), (3, p0.toNat), (1, bitNum inv0), (8, op)] = 64 := by simp [widthBits]
  have g0 := packWord_extract fit hw [] [(6, stride0.toNat), (1, bitNum sr0), (4, ofmt0.toNat), (5, n0.toNat), (5, r0.toNat), (5,
    b0.toNat), (1, bitNum sat0), (1, bitNum set0), (3, p0.toNat), (1, bitNum inv0), (8, op)] disp0 0 rfl (by simp [widthBits])
  have g1 := packWord_extract fit hw [(24, disp0.toNat)] [(1, bitNum sr0), (4, ofmt0.toNat), (5, n0.toNat), (5, r0.toNat), (5,
    b0.toNat), (1, bitNum sat0), (1, bitNum set0), (3, p0.toNat), (1, bitNum inv0), (8, op)] stride0 24 rfl (by simp [widthBits])
  have g2 := packWord_bit fit hw [(24, disp0.toNat), (6, stride0.toNat)] [(4, ofmt0.toNat), (5, n0.toNat), (5, r0.toNat), (5, b0.toNat),
    (1, bitNum sat0), (1, bitNum set0), (3, p0.toNat), (1, bitNum inv0), (8, op)] sr0 30 rfl (by simp [widthBits])
  have g3 := packWord_extract fit hw [(24, disp0.toNat), (6, stride0.toNat), (1, bitNum sr0)] [(5, n0.toNat), (5, r0.toNat), (5,
    b0.toNat), (1, bitNum sat0), (1, bitNum set0), (3, p0.toNat), (1, bitNum inv0), (8, op)] ofmt0 31 rfl (by simp [widthBits])
  have g4 := packWord_extract fit hw [(24, disp0.toNat), (6, stride0.toNat), (1, bitNum sr0), (4, ofmt0.toNat)] [(5, r0.toNat), (5,
    b0.toNat), (1, bitNum sat0), (1, bitNum set0), (3, p0.toNat), (1, bitNum inv0), (8, op)] n0 35 rfl (by simp [widthBits])
  have g5 := packWord_extract fit hw [(24, disp0.toNat), (6, stride0.toNat), (1, bitNum sr0), (4, ofmt0.toNat), (5, n0.toNat)] [(5,
    b0.toNat), (1, bitNum sat0), (1, bitNum set0), (3, p0.toNat), (1, bitNum inv0), (8, op)] r0 40 rfl (by simp [widthBits])
  have g6 := packWord_extract fit hw [(24, disp0.toNat), (6, stride0.toNat), (1, bitNum sr0), (4, ofmt0.toNat), (5, n0.toNat), (5,
    r0.toNat)] [(1, bitNum sat0), (1, bitNum set0), (3, p0.toNat), (1, bitNum inv0), (8, op)] b0 45 rfl (by simp [widthBits])
  have g7 := packWord_bit fit hw [(24, disp0.toNat), (6, stride0.toNat), (1, bitNum sr0), (4, ofmt0.toNat), (5, n0.toNat), (5,
    r0.toNat), (5, b0.toNat)] [(1, bitNum set0), (3, p0.toNat), (1, bitNum inv0), (8, op)] sat0 50 rfl (by simp [widthBits])
  have g8 := packWord_bit fit hw [(24, disp0.toNat), (6, stride0.toNat), (1, bitNum sr0), (4, ofmt0.toNat), (5, n0.toNat), (5,
    r0.toNat), (5, b0.toNat), (1, bitNum sat0)] [(3, p0.toNat), (1, bitNum inv0), (8, op)] set0 51 rfl (by simp [widthBits])
  have g9 := packWord_extract fit hw [(24, disp0.toNat), (6, stride0.toNat), (1, bitNum sr0), (4, ofmt0.toNat), (5, n0.toNat), (5,
    r0.toNat), (5, b0.toNat), (1, bitNum sat0), (1, bitNum set0)] [(1, bitNum inv0), (8, op)] p0 52 rfl (by simp [widthBits])
  have g10 := packWord_bit fit hw [(24, disp0.toNat), (6, stride0.toNat), (1, bitNum sr0), (4, ofmt0.toNat), (5, n0.toNat), (5,
    r0.toNat), (5, b0.toNat), (1, bitNum sat0), (1, bitNum set0), (3, p0.toNat)] [(8, op)] inv0 55 rfl (by simp [widthBits])
  rw [g0, g1, g2, g3, g4, g5, g6, g7, g8, g9, g10]

theorem fmtMR_op {op : Nat} (hop : op < 256) (f : FmtMR) : ((FmtMR.word op f).extractLsb' 56 8).toNat = op := by
  obtain ⟨⟨inv0, p0, set0⟩, sat0, b0, r0, n0, ofmt0, sr0, stride0, disp0⟩ := f
  have fit := fits_cons disp0.isLt <| fits_cons stride0.isLt <| fits_bit (b := sr0) <| fits_cons ofmt0.isLt <| fits_cons n0.isLt <|
    fits_cons r0.isLt <| fits_cons b0.isLt <| fits_bit (b := sat0) <| fits_hd hop ⟨inv0, p0, set0⟩
  simp only [FmtMR.word, List.cons_append, List.nil_append]
  simp only [Head.fields] at fit ⊢
  have hw : widthBits [(24, disp0.toNat), (6, stride0.toNat), (1, bitNum sr0), (4, ofmt0.toNat), (5, n0.toNat), (5, r0.toNat), (5,
    b0.toNat), (1, bitNum sat0), (1, bitNum set0), (3, p0.toNat), (1, bitNum inv0), (8, op)] = 64 := by simp [widthBits]
  exact packWord_num fit hw [(24, disp0.toNat), (6, stride0.toNat), (1, bitNum sr0), (4, ofmt0.toNat), (5, n0.toNat), (5, r0.toNat), (5,
    b0.toNat), (1, bitNum sat0), (1, bitNum set0), (3, p0.toNat), (1, bitNum inv0)] [] 8 op 56 rfl (by simp [widthBits])

theorem fmtMR_word_of (w : Word) : FmtMR.word (w.extractLsb' 56 8).toNat (FmtMR.of w) = w := by
  refine packWord_slice w [24, 6, 1, 4, 5, 5, 5, 1, 1, 3, 1, 8] _ ?_ (by simp)
  simp [FmtMR.of, Head.of, Head.fields, sliceBits, bitNum_getElem, BitVec.extractLsb'_toNat, Nat.shiftRight_eq_div_pow, Nat.div_div_eq_div_mul]

theorem fmtDC_of_word {op : Nat} (hop : op < 256) (f : FmtDC) : FmtDC.of (FmtDC.word op f) = f := by
  obtain ⟨⟨inv0, p0, set0⟩, d0, s0, n0, rsv0⟩ := f
  have fit := fits_cons rsv0.isLt <| fits_cons n0.isLt <| fits_cons s0.isLt <| fits_cons d0.isLt <| fits_hd hop ⟨inv0, p0, set0⟩
  simp only [FmtDC.of, Head.of, FmtDC.word, List.cons_append, List.nil_append]
  simp only [Head.fields] at fit ⊢
  have hw : widthBits [(36, rsv0.toNat), (5, n0.toNat), (5, s0.toNat), (5, d0.toNat), (1, bitNum set0), (3, p0.toNat), (1, bitNum inv0),
    (8, op)] = 64 := by simp [widthBits]
  have g0 := packWord_extract fit hw [] [(5, n0.toNat), (5, s0.toNat), (5, d0.toNat), (1, bitNum set0), (3, p0.toNat), (1, bitNum inv0),
    (8, op)] rsv0 0 rfl (by simp [widthBits])
  have g1 := packWord_extract fit hw [(36, rsv0.toNat)] [(5, s0.toNat), (5, d0.toNat), (1, bitNum set0), (3, p0.toNat), (1, bitNum
    inv0), (8, op)] n0 36 rfl (by simp [widthBits])
  have g2 := packWord_extract fit hw [(36, rsv0.toNat), (5, n0.toNat)] [(5, d0.toNat), (1, bitNum set0), (3, p0.toNat), (1, bitNum
    inv0), (8, op)] s0 41 rfl (by simp [widthBits])
  have g3 := packWord_extract fit hw [(36, rsv0.toNat), (5, n0.toNat), (5, s0.toNat)] [(1, bitNum set0), (3, p0.toNat), (1, bitNum
    inv0), (8, op)] d0 46 rfl (by simp [widthBits])
  have g4 := packWord_bit fit hw [(36, rsv0.toNat), (5, n0.toNat), (5, s0.toNat), (5, d0.toNat)] [(3, p0.toNat), (1, bitNum inv0), (8,
    op)] set0 51 rfl (by simp [widthBits])
  have g5 := packWord_extract fit hw [(36, rsv0.toNat), (5, n0.toNat), (5, s0.toNat), (5, d0.toNat), (1, bitNum set0)] [(1, bitNum
    inv0), (8, op)] p0 52 rfl (by simp [widthBits])
  have g6 := packWord_bit fit hw [(36, rsv0.toNat), (5, n0.toNat), (5, s0.toNat), (5, d0.toNat), (1, bitNum set0), (3, p0.toNat)] [(8,
    op)] inv0 55 rfl (by simp [widthBits])
  rw [g0, g1, g2, g3, g4, g5, g6]

theorem fmtDC_op {op : Nat} (hop : op < 256) (f : FmtDC) : ((FmtDC.word op f).extractLsb' 56 8).toNat = op := by
  obtain ⟨⟨inv0, p0, set0⟩, d0, s0, n0, rsv0⟩ := f
  have fit := fits_cons rsv0.isLt <| fits_cons n0.isLt <| fits_cons s0.isLt <| fits_cons d0.isLt <| fits_hd hop ⟨inv0, p0, set0⟩
  simp only [FmtDC.word, List.cons_append, List.nil_append]
  simp only [Head.fields] at fit ⊢
  have hw : widthBits [(36, rsv0.toNat), (5, n0.toNat), (5, s0.toNat), (5, d0.toNat), (1, bitNum set0), (3, p0.toNat), (1, bitNum inv0),
    (8, op)] = 64 := by simp [widthBits]
  exact packWord_num fit hw [(36, rsv0.toNat), (5, n0.toNat), (5, s0.toNat), (5, d0.toNat), (1, bitNum set0), (3, p0.toNat), (1, bitNum
    inv0)] [] 8 op 56 rfl (by simp [widthBits])

theorem fmtDC_word_of (w : Word) : FmtDC.word (w.extractLsb' 56 8).toNat (FmtDC.of w) = w := by
  refine packWord_slice w [36, 5, 5, 5, 1, 3, 1, 8] _ ?_ (by simp)
  simp [FmtDC.of, Head.of, Head.fields, sliceBits, bitNum_getElem, BitVec.extractLsb'_toNat, Nat.shiftRight_eq_div_pow, Nat.div_div_eq_div_mul]

theorem fmtDM_of_word {op : Nat} (hop : op < 256) (f : FmtDM) : FmtDM.of (FmtDM.word op f) = f := by
  obtain ⟨⟨inv0, p0, set0⟩, dspace0, sspace0, d0, s0, n0, dc0, rsv0⟩ := f
  have fit := fits_cons rsv0.isLt <| fits_cons dc0.isLt <| fits_cons n0.isLt <| fits_cons s0.isLt <| fits_cons d0.isLt <| fits_cons
    sspace0.isLt <| fits_cons dspace0.isLt <| fits_hd hop ⟨inv0, p0, set0⟩
  simp only [FmtDM.of, Head.of, FmtDM.word, List.cons_append, List.nil_append]
  simp only [Head.fields] at fit ⊢
  have hw : widthBits [(29, rsv0.toNat), (3, dc0.toNat), (5, n0.toNat), (5, s0.toNat), (5, d0.toNat), (2, sspace0.toNat), (2,
    dspace0.toNat), (1, bitNum set0), (3, p0.toNat), (1, bitNum inv0), (8, op)] = 64 := by simp [widthBits]
  have g0 := packWord_extract fit hw [] [(3, dc0.toNat), (5, n0.toNat), (5, s0.toNat), (5, d0.toNat), (2, sspace0.toNat), (2,
    dspace0.toNat), (1, bitNum set0), (3, p0.toNat), (1, bitNum inv0), (8, op)] rsv0 0 rfl (by simp [widthBits])
  have g1 := packWord_extract fit hw [(29, rsv0.toNat)] [(5, n0.toNat), (5, s0.toNat), (5, d0.toNat), (2, sspace0.toNat), (2,
    dspace0.toNat), (1, bitNum set0), (3, p0.toNat), (1, bitNum inv0), (8, op)] dc0 29 rfl (by simp [widthBits])
  have g2 := packWord_extract fit hw [(29, rsv0.toNat), (3, dc0.toNat)] [(5, s0.toNat), (5, d0.toNat), (2, sspace0.toNat), (2,
    dspace0.toNat), (1, bitNum set0), (3, p0.toNat), (1, bitNum inv0), (8, op)] n0 32 rfl (by simp [widthBits])
  have g3 := packWord_extract fit hw [(29, rsv0.toNat), (3, dc0.toNat), (5, n0.toNat)] [(5, d0.toNat), (2, sspace0.toNat), (2,
    dspace0.toNat), (1, bitNum set0), (3, p0.toNat), (1, bitNum inv0), (8, op)] s0 37 rfl (by simp [widthBits])
  have g4 := packWord_extract fit hw [(29, rsv0.toNat), (3, dc0.toNat), (5, n0.toNat), (5, s0.toNat)] [(2, sspace0.toNat), (2,
    dspace0.toNat), (1, bitNum set0), (3, p0.toNat), (1, bitNum inv0), (8, op)] d0 42 rfl (by simp [widthBits])
  have g5 := packWord_extract fit hw [(29, rsv0.toNat), (3, dc0.toNat), (5, n0.toNat), (5, s0.toNat), (5, d0.toNat)] [(2,
    dspace0.toNat), (1, bitNum set0), (3, p0.toNat), (1, bitNum inv0), (8, op)] sspace0 47 rfl (by simp [widthBits])
  have g6 := packWord_extract fit hw [(29, rsv0.toNat), (3, dc0.toNat), (5, n0.toNat), (5, s0.toNat), (5, d0.toNat), (2, sspace0.toNat)]
    [(1, bitNum set0), (3, p0.toNat), (1, bitNum inv0), (8, op)] dspace0 49 rfl (by simp [widthBits])
  have g7 := packWord_bit fit hw [(29, rsv0.toNat), (3, dc0.toNat), (5, n0.toNat), (5, s0.toNat), (5, d0.toNat), (2, sspace0.toNat), (2,
    dspace0.toNat)] [(3, p0.toNat), (1, bitNum inv0), (8, op)] set0 51 rfl (by simp [widthBits])
  have g8 := packWord_extract fit hw [(29, rsv0.toNat), (3, dc0.toNat), (5, n0.toNat), (5, s0.toNat), (5, d0.toNat), (2, sspace0.toNat),
    (2, dspace0.toNat), (1, bitNum set0)] [(1, bitNum inv0), (8, op)] p0 52 rfl (by simp [widthBits])
  have g9 := packWord_bit fit hw [(29, rsv0.toNat), (3, dc0.toNat), (5, n0.toNat), (5, s0.toNat), (5, d0.toNat), (2, sspace0.toNat), (2,
    dspace0.toNat), (1, bitNum set0), (3, p0.toNat)] [(8, op)] inv0 55 rfl (by simp [widthBits])
  rw [g0, g1, g2, g3, g4, g5, g6, g7, g8, g9]

theorem fmtDM_op {op : Nat} (hop : op < 256) (f : FmtDM) : ((FmtDM.word op f).extractLsb' 56 8).toNat = op := by
  obtain ⟨⟨inv0, p0, set0⟩, dspace0, sspace0, d0, s0, n0, dc0, rsv0⟩ := f
  have fit := fits_cons rsv0.isLt <| fits_cons dc0.isLt <| fits_cons n0.isLt <| fits_cons s0.isLt <| fits_cons d0.isLt <| fits_cons
    sspace0.isLt <| fits_cons dspace0.isLt <| fits_hd hop ⟨inv0, p0, set0⟩
  simp only [FmtDM.word, List.cons_append, List.nil_append]
  simp only [Head.fields] at fit ⊢
  have hw : widthBits [(29, rsv0.toNat), (3, dc0.toNat), (5, n0.toNat), (5, s0.toNat), (5, d0.toNat), (2, sspace0.toNat), (2,
    dspace0.toNat), (1, bitNum set0), (3, p0.toNat), (1, bitNum inv0), (8, op)] = 64 := by simp [widthBits]
  exact packWord_num fit hw [(29, rsv0.toNat), (3, dc0.toNat), (5, n0.toNat), (5, s0.toNat), (5, d0.toNat), (2, sspace0.toNat), (2,
    dspace0.toNat), (1, bitNum set0), (3, p0.toNat), (1, bitNum inv0)] [] 8 op 56 rfl (by simp [widthBits])

theorem fmtDM_word_of (w : Word) : FmtDM.word (w.extractLsb' 56 8).toNat (FmtDM.of w) = w := by
  refine packWord_slice w [29, 3, 5, 5, 5, 2, 2, 1, 3, 1, 8] _ ?_ (by simp)
  simp [FmtDM.of, Head.of, Head.fields, sliceBits, bitNum_getElem, BitVec.extractLsb'_toNat, Nat.shiftRight_eq_div_pow, Nat.div_div_eq_div_mul]

theorem fmtDS_of_word {op : Nat} {sub : Nat} (hop : op < 256) (hc : sub < 8) (f : FmtDS) : FmtDS.of (FmtDS.word op sub f) = f := by
  obtain ⟨⟨inv0, p0, set0⟩, h0, dc0, rsv0⟩ := f
  have fit := fits_cons rsv0.isLt <| fits_cons dc0.isLt <| fits_code hc <| fits_cons h0.isLt <| fits_hd hop ⟨inv0, p0, set0⟩
  simp only [FmtDS.of, Head.of, FmtDS.word, List.cons_append, List.nil_append]
  simp only [Head.fields] at fit ⊢
  have hw : widthBits [(40, rsv0.toNat), (3, dc0.toNat), (3, sub), (5, h0.toNat), (1, bitNum set0), (3, p0.toNat), (1, bitNum inv0), (8,
    op)] = 64 := by simp [widthBits]
  have g0 := packWord_extract fit hw [] [(3, dc0.toNat), (3, sub), (5, h0.toNat), (1, bitNum set0), (3, p0.toNat), (1, bitNum inv0), (8,
    op)] rsv0 0 rfl (by simp [widthBits])
  have g1 := packWord_extract fit hw [(40, rsv0.toNat)] [(3, sub), (5, h0.toNat), (1, bitNum set0), (3, p0.toNat), (1, bitNum inv0), (8,
    op)] dc0 40 rfl (by simp [widthBits])
  have g3 := packWord_extract fit hw [(40, rsv0.toNat), (3, dc0.toNat), (3, sub)] [(1, bitNum set0), (3, p0.toNat), (1, bitNum inv0),
    (8, op)] h0 46 rfl (by simp [widthBits])
  have g4 := packWord_bit fit hw [(40, rsv0.toNat), (3, dc0.toNat), (3, sub), (5, h0.toNat)] [(3, p0.toNat), (1, bitNum inv0), (8, op)]
    set0 51 rfl (by simp [widthBits])
  have g5 := packWord_extract fit hw [(40, rsv0.toNat), (3, dc0.toNat), (3, sub), (5, h0.toNat), (1, bitNum set0)] [(1, bitNum inv0),
    (8, op)] p0 52 rfl (by simp [widthBits])
  have g6 := packWord_bit fit hw [(40, rsv0.toNat), (3, dc0.toNat), (3, sub), (5, h0.toNat), (1, bitNum set0), (3, p0.toNat)] [(8, op)]
    inv0 55 rfl (by simp [widthBits])
  rw [g0, g1, g3, g4, g5, g6]

theorem fmtDS_op {op : Nat} {sub : Nat} (hop : op < 256) (hc : sub < 8) (f : FmtDS) : ((FmtDS.word op sub f).extractLsb' 56 8).toNat =
    op := by
  obtain ⟨⟨inv0, p0, set0⟩, h0, dc0, rsv0⟩ := f
  have fit := fits_cons rsv0.isLt <| fits_cons dc0.isLt <| fits_code hc <| fits_cons h0.isLt <| fits_hd hop ⟨inv0, p0, set0⟩
  simp only [FmtDS.word, List.cons_append, List.nil_append]
  simp only [Head.fields] at fit ⊢
  have hw : widthBits [(40, rsv0.toNat), (3, dc0.toNat), (3, sub), (5, h0.toNat), (1, bitNum set0), (3, p0.toNat), (1, bitNum inv0), (8,
    op)] = 64 := by simp [widthBits]
  exact packWord_num fit hw [(40, rsv0.toNat), (3, dc0.toNat), (3, sub), (5, h0.toNat), (1, bitNum set0), (3, p0.toNat), (1, bitNum
    inv0)] [] 8 op 56 rfl (by simp [widthBits])

theorem fmtDS_code {op : Nat} {sub : Nat} (hop : op < 256) (hc : sub < 8) (f : FmtDS) : ((FmtDS.word op sub f).extractLsb' 43 3).toNat =
    sub := by
  obtain ⟨⟨inv0, p0, set0⟩, h0, dc0, rsv0⟩ := f
  have fit := fits_cons rsv0.isLt <| fits_cons dc0.isLt <| fits_code hc <| fits_cons h0.isLt <| fits_hd hop ⟨inv0, p0, set0⟩
  simp only [FmtDS.word, List.cons_append, List.nil_append]
  simp only [Head.fields] at fit ⊢
  have hw : widthBits [(40, rsv0.toNat), (3, dc0.toNat), (3, sub), (5, h0.toNat), (1, bitNum set0), (3, p0.toNat), (1, bitNum inv0), (8,
    op)] = 64 := by simp [widthBits]
  exact packWord_num fit hw [(40, rsv0.toNat), (3, dc0.toNat)] [(5, h0.toNat), (1, bitNum set0), (3, p0.toNat), (1, bitNum inv0), (8,
    op)] 3 sub 43 rfl (by simp [widthBits])

theorem fmtDS_word_of (w : Word) : FmtDS.word (w.extractLsb' 56 8).toNat (w.extractLsb' 43 3).toNat (FmtDS.of w) = w := by
  refine packWord_slice w [40, 3, 3, 5, 1, 3, 1, 8] _ ?_ (by simp)
  simp [FmtDS.of, Head.of, Head.fields, sliceBits, bitNum_getElem, BitVec.extractLsb'_toNat, Nat.shiftRight_eq_div_pow, Nat.div_div_eq_div_mul]

theorem fmtDW_of_word {op : Nat} (hop : op < 256) (f : FmtDW) : FmtDW.of (FmtDW.word op f) = f := by
  obtain ⟨⟨inv0, p0, set0⟩, dc0, i0, a0, rsv0, imm0⟩ := f
  have fit := fits_cons imm0.isLt <| fits_cons rsv0.isLt <| fits_cons a0.isLt <| fits_bit (b := i0) <| fits_cons dc0.isLt <| fits_hd hop
    ⟨inv0, p0, set0⟩
  simp only [FmtDW.of, Head.of, FmtDW.word, List.cons_append, List.nil_append]
  simp only [Head.fields] at fit ⊢
  have hw : widthBits [(32, imm0.toNat), (10, rsv0.toNat), (5, a0.toNat), (1, bitNum i0), (3, dc0.toNat), (1, bitNum set0), (3,
    p0.toNat), (1, bitNum inv0), (8, op)] = 64 := by simp [widthBits]
  have g0 := packWord_extract fit hw [] [(10, rsv0.toNat), (5, a0.toNat), (1, bitNum i0), (3, dc0.toNat), (1, bitNum set0), (3,
    p0.toNat), (1, bitNum inv0), (8, op)] imm0 0 rfl (by simp [widthBits])
  have g1 := packWord_extract fit hw [(32, imm0.toNat)] [(5, a0.toNat), (1, bitNum i0), (3, dc0.toNat), (1, bitNum set0), (3, p0.toNat),
    (1, bitNum inv0), (8, op)] rsv0 32 rfl (by simp [widthBits])
  have g2 := packWord_extract fit hw [(32, imm0.toNat), (10, rsv0.toNat)] [(1, bitNum i0), (3, dc0.toNat), (1, bitNum set0), (3,
    p0.toNat), (1, bitNum inv0), (8, op)] a0 42 rfl (by simp [widthBits])
  have g3 := packWord_bit fit hw [(32, imm0.toNat), (10, rsv0.toNat), (5, a0.toNat)] [(3, dc0.toNat), (1, bitNum set0), (3, p0.toNat),
    (1, bitNum inv0), (8, op)] i0 47 rfl (by simp [widthBits])
  have g4 := packWord_extract fit hw [(32, imm0.toNat), (10, rsv0.toNat), (5, a0.toNat), (1, bitNum i0)] [(1, bitNum set0), (3,
    p0.toNat), (1, bitNum inv0), (8, op)] dc0 48 rfl (by simp [widthBits])
  have g5 := packWord_bit fit hw [(32, imm0.toNat), (10, rsv0.toNat), (5, a0.toNat), (1, bitNum i0), (3, dc0.toNat)] [(3, p0.toNat), (1,
    bitNum inv0), (8, op)] set0 51 rfl (by simp [widthBits])
  have g6 := packWord_extract fit hw [(32, imm0.toNat), (10, rsv0.toNat), (5, a0.toNat), (1, bitNum i0), (3, dc0.toNat), (1, bitNum
    set0)] [(1, bitNum inv0), (8, op)] p0 52 rfl (by simp [widthBits])
  have g7 := packWord_bit fit hw [(32, imm0.toNat), (10, rsv0.toNat), (5, a0.toNat), (1, bitNum i0), (3, dc0.toNat), (1, bitNum set0),
    (3, p0.toNat)] [(8, op)] inv0 55 rfl (by simp [widthBits])
  rw [g0, g1, g2, g3, g4, g5, g6, g7]

theorem fmtDW_op {op : Nat} (hop : op < 256) (f : FmtDW) : ((FmtDW.word op f).extractLsb' 56 8).toNat = op := by
  obtain ⟨⟨inv0, p0, set0⟩, dc0, i0, a0, rsv0, imm0⟩ := f
  have fit := fits_cons imm0.isLt <| fits_cons rsv0.isLt <| fits_cons a0.isLt <| fits_bit (b := i0) <| fits_cons dc0.isLt <| fits_hd hop
    ⟨inv0, p0, set0⟩
  simp only [FmtDW.word, List.cons_append, List.nil_append]
  simp only [Head.fields] at fit ⊢
  have hw : widthBits [(32, imm0.toNat), (10, rsv0.toNat), (5, a0.toNat), (1, bitNum i0), (3, dc0.toNat), (1, bitNum set0), (3,
    p0.toNat), (1, bitNum inv0), (8, op)] = 64 := by simp [widthBits]
  exact packWord_num fit hw [(32, imm0.toNat), (10, rsv0.toNat), (5, a0.toNat), (1, bitNum i0), (3, dc0.toNat), (1, bitNum set0), (3,
    p0.toNat), (1, bitNum inv0)] [] 8 op 56 rfl (by simp [widthBits])

theorem fmtDW_word_of (w : Word) : FmtDW.word (w.extractLsb' 56 8).toNat (FmtDW.of w) = w := by
  refine packWord_slice w [32, 10, 5, 1, 3, 1, 3, 1, 8] _ ?_ (by simp)
  simp [FmtDW.of, Head.of, Head.fields, sliceBits, bitNum_getElem, BitVec.extractLsb'_toNat, Nat.shiftRight_eq_div_pow, Nat.div_div_eq_div_mul]

theorem fmtDF_of_word {op : Nat} (hop : op < 256) (f : FmtDF) : FmtDF.of (FmtDF.word op f) = f := by
  obtain ⟨⟨inv0, p0, set0⟩, h0, flag0, val0, slot0, rsv0⟩ := f
  have fit := fits_cons rsv0.isLt <| fits_cons slot0.isLt <| fits_bit (b := val0) <| fits_cons flag0.isLt <| fits_cons h0.isLt <|
    fits_hd hop ⟨inv0, p0, set0⟩
  simp only [FmtDF.of, Head.of, FmtDF.word, List.cons_append, List.nil_append]
  simp only [Head.fields] at fit ⊢
  have hw : widthBits [(36, rsv0.toNat), (6, slot0.toNat), (1, bitNum val0), (3, flag0.toNat), (5, h0.toNat), (1, bitNum set0), (3,
    p0.toNat), (1, bitNum inv0), (8, op)] = 64 := by simp [widthBits]
  have g0 := packWord_extract fit hw [] [(6, slot0.toNat), (1, bitNum val0), (3, flag0.toNat), (5, h0.toNat), (1, bitNum set0), (3,
    p0.toNat), (1, bitNum inv0), (8, op)] rsv0 0 rfl (by simp [widthBits])
  have g1 := packWord_extract fit hw [(36, rsv0.toNat)] [(1, bitNum val0), (3, flag0.toNat), (5, h0.toNat), (1, bitNum set0), (3,
    p0.toNat), (1, bitNum inv0), (8, op)] slot0 36 rfl (by simp [widthBits])
  have g2 := packWord_bit fit hw [(36, rsv0.toNat), (6, slot0.toNat)] [(3, flag0.toNat), (5, h0.toNat), (1, bitNum set0), (3, p0.toNat),
    (1, bitNum inv0), (8, op)] val0 42 rfl (by simp [widthBits])
  have g3 := packWord_extract fit hw [(36, rsv0.toNat), (6, slot0.toNat), (1, bitNum val0)] [(5, h0.toNat), (1, bitNum set0), (3,
    p0.toNat), (1, bitNum inv0), (8, op)] flag0 43 rfl (by simp [widthBits])
  have g4 := packWord_extract fit hw [(36, rsv0.toNat), (6, slot0.toNat), (1, bitNum val0), (3, flag0.toNat)] [(1, bitNum set0), (3,
    p0.toNat), (1, bitNum inv0), (8, op)] h0 46 rfl (by simp [widthBits])
  have g5 := packWord_bit fit hw [(36, rsv0.toNat), (6, slot0.toNat), (1, bitNum val0), (3, flag0.toNat), (5, h0.toNat)] [(3, p0.toNat),
    (1, bitNum inv0), (8, op)] set0 51 rfl (by simp [widthBits])
  have g6 := packWord_extract fit hw [(36, rsv0.toNat), (6, slot0.toNat), (1, bitNum val0), (3, flag0.toNat), (5, h0.toNat), (1, bitNum
    set0)] [(1, bitNum inv0), (8, op)] p0 52 rfl (by simp [widthBits])
  have g7 := packWord_bit fit hw [(36, rsv0.toNat), (6, slot0.toNat), (1, bitNum val0), (3, flag0.toNat), (5, h0.toNat), (1, bitNum
    set0), (3, p0.toNat)] [(8, op)] inv0 55 rfl (by simp [widthBits])
  rw [g0, g1, g2, g3, g4, g5, g6, g7]

theorem fmtDF_op {op : Nat} (hop : op < 256) (f : FmtDF) : ((FmtDF.word op f).extractLsb' 56 8).toNat = op := by
  obtain ⟨⟨inv0, p0, set0⟩, h0, flag0, val0, slot0, rsv0⟩ := f
  have fit := fits_cons rsv0.isLt <| fits_cons slot0.isLt <| fits_bit (b := val0) <| fits_cons flag0.isLt <| fits_cons h0.isLt <|
    fits_hd hop ⟨inv0, p0, set0⟩
  simp only [FmtDF.word, List.cons_append, List.nil_append]
  simp only [Head.fields] at fit ⊢
  have hw : widthBits [(36, rsv0.toNat), (6, slot0.toNat), (1, bitNum val0), (3, flag0.toNat), (5, h0.toNat), (1, bitNum set0), (3,
    p0.toNat), (1, bitNum inv0), (8, op)] = 64 := by simp [widthBits]
  exact packWord_num fit hw [(36, rsv0.toNat), (6, slot0.toNat), (1, bitNum val0), (3, flag0.toNat), (5, h0.toNat), (1, bitNum set0),
    (3, p0.toNat), (1, bitNum inv0)] [] 8 op 56 rfl (by simp [widthBits])

theorem fmtDF_word_of (w : Word) : FmtDF.word (w.extractLsb' 56 8).toNat (FmtDF.of w) = w := by
  refine packWord_slice w [36, 6, 1, 3, 5, 1, 3, 1, 8] _ ?_ (by simp)
  simp [FmtDF.of, Head.of, Head.fields, sliceBits, bitNum_getElem, BitVec.extractLsb'_toNat, Nat.shiftRight_eq_div_pow, Nat.div_div_eq_div_mul]

end Sys2Proof
end

