-- ==== Sys2Proof/Laws/Store.lean ====
section
/-! SUPPORT. Sparse stores: a read after a write, and the canonical form, which every operation keeps. -/

namespace Sys2Proof.Machine

variable {α : Type} {dflt : Nat → α}

theorem Store.rising_mono : ∀ (m : Store α) {a b : Nat}, b ≤ a → Store.rising m a = true → Store.rising m b = true
  | [], _, _, _, _ => rfl
  | (j, _) :: m, a, b, h, r => by
    simp only [Store.rising, Bool.and_eq_true, decide_eq_true_eq] at r ⊢
    exact ⟨le_trans h r.1, r.2⟩

theorem Store.get_insert : ∀ (m : Store α) (k : Nat) (v : α) (j : Nat),
    Store.get dflt (Store.insert m k v) j = if j = k then v else Store.get dflt m j
  | [], _, _, _ => rfl
  | (i, w) :: m, k, v, j => by
    by_cases h1 : k < i
    · simp [Store.insert, h1, Store.get]
    · by_cases h2 : k = i
      · subst h2; by_cases h3 : j = k <;> simp [Store.insert, Store.get, h3]
      · simp only [Store.insert, h1, h2, if_false, Store.get, Store.get_insert m k v j]
        by_cases h3 : j = i
        · have h4 : i ≠ k := fun e => h2 e.symm
          simp [h3, h4]
        · simp [h3]

theorem Store.get_drop : ∀ (m : Store α) (k j : Nat), Store.get dflt (Store.drop m k) j = if j = k then dflt k else Store.get dflt m j
  | [], k, j => by by_cases e : j = k <;> simp [Store.drop, Store.get, e]
  | (i, w) :: m, k, j => by
    by_cases h2 : k = i
    · subst h2
      have := Store.get_drop m k j
      by_cases h3 : j = k
      · rw [if_pos h3] at this; rw [if_pos h3, ← this]; simp [Store.drop]
      · rw [if_neg h3] at this; simp [Store.drop, Store.get, this, h3]
    · by_cases h3 : j = i
      · have h4 : i ≠ k := fun e => h2 e.symm
        simp [Store.drop, Store.get, h2, h3, h4]
      · simp [Store.drop, Store.get, Store.get_drop m k j, h2, h3]

/-- What every key reads as after a write. -/
theorem Store.get_put [DecidableEq α] (m : Store α) (k : Nat) (v : α) (j : Nat) :
    Store.get dflt (Store.put dflt m k v) j = if j = k then v else Store.get dflt m j := by
  unfold Store.put
  split
  · rename_i e; rw [Store.get_drop, e]
  · exact Store.get_insert m k v j

theorem Store.insert_rising : ∀ (m : Store α) (k : Nat) (v : α) {b : Nat}, Store.rising m b = true → b ≤ k →
    Store.rising (Store.insert m k v) b = true
  | [], k, v, b, _, h => by simp [Store.insert, Store.rising, h]
  | (i, w) :: m, k, v, b, r, h => by
    simp only [Store.rising, Bool.and_eq_true, decide_eq_true_eq] at r
    by_cases h1 : k < i
    · simp only [Store.insert, h1, if_true, Store.rising, Bool.and_eq_true, decide_eq_true_eq]
      exact ⟨h, by omega, r.2⟩
    · by_cases h2 : k = i
      · subst h2; simp [Store.insert, Store.rising, r.1, r.2]
      · simp only [Store.insert, h1, h2, if_false, Store.rising, Bool.and_eq_true, decide_eq_true_eq]
        exact ⟨r.1, Store.insert_rising m k v r.2 (by omega)⟩

theorem Store.drop_rising : ∀ (m : Store α) (k : Nat) {b : Nat}, Store.rising m b = true → Store.rising (Store.drop m k) b = true
  | [], _, _, _ => rfl
  | (i, w) :: m, k, b, r => by
    simp only [Store.rising, Bool.and_eq_true, decide_eq_true_eq] at r
    by_cases h2 : k = i
    · simp only [Store.drop, h2, if_true]; exact Store.rising_mono _ (by omega) (Store.drop_rising m i r.2)
    · simp only [Store.drop, h2, if_false, Store.rising, Bool.and_eq_true, decide_eq_true_eq]
      exact ⟨r.1, Store.drop_rising m k r.2⟩

theorem Store.insert_lean [DecidableEq α] : ∀ (m : Store α) (k : Nat) (v : α), Store.lean dflt m = true → v ≠ dflt k →
    Store.lean dflt (Store.insert m k v) = true
  | [], k, v, _, h => by simp [Store.insert, Store.lean, h]
  | (i, w) :: m, k, v, r, h => by
    have r' := r
    simp only [Store.lean, Bool.and_eq_true, decide_eq_true_eq] at r
    by_cases h1 : k < i
    · simp [Store.insert, h1, Store.lean, h, r.1, r.2]
    · by_cases h2 : k = i
      · subst h2; simp [Store.insert, Store.lean, h, r.2]
      · simp [Store.insert, h1, h2, Store.lean, r.1, Store.insert_lean m k v r.2 h]

theorem Store.drop_lean [DecidableEq α] : ∀ (m : Store α) (k : Nat), Store.lean dflt m = true → Store.lean dflt (Store.drop m k) = true
  | [], _, _ => rfl
  | (i, w) :: m, k, r => by
    simp only [Store.lean, Bool.and_eq_true, decide_eq_true_eq] at r
    by_cases h2 : k = i
    · simp [Store.drop, h2, Store.drop_lean m i r.2]
    · simp [Store.drop, h2, Store.lean, r.1, Store.drop_lean m k r.2]

/-- A write keeps the canonical form. -/
theorem Store.put_wf [DecidableEq α] (m : Store α) (k : Nat) (v : α) (h : Store.wf dflt m = true) : Store.wf dflt (Store.put dflt m k v) = true := by
  simp only [Store.wf, Bool.and_eq_true] at h ⊢
  unfold Store.put
  split
  · exact ⟨Store.drop_rising m k h.1, Store.drop_lean m k h.2⟩
  · exact ⟨Store.insert_rising m k v h.1 (Nat.zero_le k), Store.insert_lean m k v h.2 ‹_›⟩

theorem Store.filter_rising (q : Nat × α → Bool) : ∀ (m : Store α) {b : Nat}, Store.rising m b = true → Store.rising (m.filter q) b = true
  | [], _, _ => rfl
  | (i, w) :: m, b, r => by
    simp only [Store.rising, Bool.and_eq_true, decide_eq_true_eq] at r
    rw [List.filter_cons]
    split
    · simp only [Store.rising, Bool.and_eq_true, decide_eq_true_eq]; exact ⟨r.1, Store.filter_rising q m r.2⟩
    · exact Store.filter_rising q m (Store.rising_mono m (by omega) r.2)

theorem Store.filter_lean [DecidableEq α] (q : Nat × α → Bool) : ∀ (m : Store α), Store.lean dflt m = true → Store.lean dflt (m.filter q) = true
  | [], _ => rfl
  | (i, w) :: m, r => by
    simp only [Store.lean, Bool.and_eq_true, decide_eq_true_eq] at r
    rw [List.filter_cons]
    split
    · simp only [Store.lean, Bool.and_eq_true, decide_eq_true_eq]; exact ⟨r.1, Store.filter_lean q m r.2⟩
    · exact Store.filter_lean q m r.2

/-- Taking entries out keeps the canonical form. -/
theorem Store.filter_wf [DecidableEq α] (q : Nat × α → Bool) (m : Store α) (h : Store.wf dflt m = true) : Store.wf dflt (m.filter q) = true := by
  simp only [Store.wf, Bool.and_eq_true] at h ⊢
  exact ⟨Store.filter_rising q m h.1, Store.filter_lean q m h.2⟩

end Sys2Proof.Machine
end

