-- ==== Sys2Proof/Laws/State.lean ====
section
/-! SUPPORT. What each named update of the state leaves alone: one lemma per field and update. -/

namespace Sys2Proof.Machine

theorem Dev.record_parts (d : Dev) (f : Fld) (u c : Nat) :
    ∃ r t, d.record f u c = { d with regs := r, tel := t } := by
  unfold Dev.record
  split
  · exact ⟨_, _, rfl⟩
  · have h : ∃ r, d.satStep F.TEL_ERR_COUNT_DROPS = { d with regs := r } := by
      unfold Dev.satStep
      split
      · exact ⟨d.regs, rfl⟩
      · exact ⟨_, rfl⟩
    obtain ⟨r, h⟩ := h
    dsimp only
    split
    · rw [h]; exact ⟨_, _, rfl⟩
    · rw [h]; exact ⟨_, _, rfl⟩

theorem Dev.satStep_parts (d : Dev) (f : Fld) : ∃ r t, d.satStep f = { d with regs := r, tel := t } := by
  unfold Dev.satStep
  split
  · exact ⟨d.regs, d.tel, rfl⟩
  · exact ⟨_, d.tel, rfl⟩

theorem Dev.raise_parts (d : Dev) (f : Fld) (u c : Nat) : ∃ r t, d.raise f u c = { d with regs := r, tel := t } := by
  unfold Dev.raise
  split
  · exact ⟨d.regs, d.tel, rfl⟩
  · obtain ⟨r, t, h⟩ := (d.setFld f 1).record_parts f u c
    rw [h]; exact ⟨r, t, rfl⟩

theorem Dev.countErr_parts (d : Dev) (f sat : Fld) (u : Nat) : ∃ r t, d.countErr f sat u = { d with regs := r, tel := t } := by
  obtain ⟨r, t, h⟩ := d.satStep_parts f
  unfold Dev.countErr
  split
  · dsimp only
    obtain ⟨r2, t2, h2⟩ := ({ d.satStep f with tel := { (d.satStep f).tel with satSpent := (f.reg, f.lo) :: (d.satStep f).tel.satSpent } } : Dev).raise_parts sat u clsInfo
    rw [h2, h]; exact ⟨r2, t2, rfl⟩
  · exact ⟨r, t, h⟩

theorem Dev.monitor_parts (d : Dev) (e u n : Nat) : ∃ r t, d.monitor e u n = { d with regs := r, tel := t } := by
  unfold Dev.monitor
  generalize List.range 16 = l
  induction l generalizing d with
  | nil => exact ⟨d.regs, d.tel, rfl⟩
  | cons k l ih =>
    rw [List.foldl_cons]
    split
    · obtain ⟨r, t, h⟩ := ih (d.count (F.TEL_PMC_COUNT k) n); rw [h]; exact ⟨r, t, rfl⟩
    · exact ih d

@[simp] theorem Dev.setReg_time (d : Dev) (k : Nat) (w : Word) : (d.setReg k w).time = d.time := rfl
@[simp] theorem Dev.setReg_free (d : Dev) (k : Nat) (w : Word) : (d.setReg k w).free = d.free := rfl
@[simp] theorem Dev.setReg_mem (d : Dev) (k : Nat) (w : Word) : (d.setReg k w).mem = d.mem := rfl
@[simp] theorem Dev.setReg_tick (d : Dev) (k : Nat) (w : Word) : (d.setReg k w).tick = d.tick := rfl
@[simp] theorem Dev.setReg_links (d : Dev) (k : Nat) (w : Word) : (d.setReg k w).links = d.links := rfl
@[simp] theorem Dev.setReg_ring (d : Dev) (k : Nat) (w : Word) : (d.setReg k w).ring = d.ring := rfl
@[simp] theorem Dev.setReg_cores (d : Dev) (k : Nat) (w : Word) : (d.setReg k w).cores = d.cores := rfl
@[simp] theorem Dev.setReg_home (d : Dev) (k : Nat) (w : Word) : (d.setReg k w).home = d.home := rfl
@[simp] theorem Dev.setReg_str (d : Dev) (k : Nat) (w : Word) : (d.setReg k w).str = d.str := rfl
@[simp] theorem Dev.setReg_keel (d : Dev) (k : Nat) (w : Word) : (d.setReg k w).keel = d.keel := rfl
@[simp] theorem Dev.setReg_codec (d : Dev) (k : Nat) (w : Word) : (d.setReg k w).codec = d.codec := rfl
@[simp] theorem Dev.setReg_sec (d : Dev) (k : Nat) (w : Word) : (d.setReg k w).sec = d.sec := rfl
@[simp] theorem Dev.setReg_eth (d : Dev) (k : Nat) (w : Word) : (d.setReg k w).eth = d.eth := rfl
@[simp] theorem Dev.setReg_gnd (d : Dev) (k : Nat) (w : Word) : (d.setReg k w).gnd = d.gnd := rfl
@[simp] theorem Dev.setReg_tel (d : Dev) (k : Nat) (w : Word) : (d.setReg k w).tel = d.tel := rfl
@[simp] theorem Dev.setReg_pwr (d : Dev) (k : Nat) (w : Word) : (d.setReg k w).pwr = d.pwr := rfl
@[simp] theorem Dev.setReg_nvs (d : Dev) (k : Nat) (w : Word) : (d.setReg k w).nvs = d.nvs := rfl
@[simp] theorem Dev.setReg_mgmt (d : Dev) (k : Nat) (w : Word) : (d.setReg k w).mgmt = d.mgmt := rfl

@[simp] theorem Dev.setFld_time (d : Dev) (f : Fld) (v : Nat) : (d.setFld f v).time = d.time := rfl
@[simp] theorem Dev.setFld_free (d : Dev) (f : Fld) (v : Nat) : (d.setFld f v).free = d.free := rfl
@[simp] theorem Dev.setFld_mem (d : Dev) (f : Fld) (v : Nat) : (d.setFld f v).mem = d.mem := rfl
@[simp] theorem Dev.setFld_tick (d : Dev) (f : Fld) (v : Nat) : (d.setFld f v).tick = d.tick := rfl
@[simp] theorem Dev.setFld_links (d : Dev) (f : Fld) (v : Nat) : (d.setFld f v).links = d.links := rfl
@[simp] theorem Dev.setFld_ring (d : Dev) (f : Fld) (v : Nat) : (d.setFld f v).ring = d.ring := rfl
@[simp] theorem Dev.setFld_cores (d : Dev) (f : Fld) (v : Nat) : (d.setFld f v).cores = d.cores := rfl
@[simp] theorem Dev.setFld_home (d : Dev) (f : Fld) (v : Nat) : (d.setFld f v).home = d.home := rfl
@[simp] theorem Dev.setFld_str (d : Dev) (f : Fld) (v : Nat) : (d.setFld f v).str = d.str := rfl
@[simp] theorem Dev.setFld_keel (d : Dev) (f : Fld) (v : Nat) : (d.setFld f v).keel = d.keel := rfl
@[simp] theorem Dev.setFld_codec (d : Dev) (f : Fld) (v : Nat) : (d.setFld f v).codec = d.codec := rfl
@[simp] theorem Dev.setFld_sec (d : Dev) (f : Fld) (v : Nat) : (d.setFld f v).sec = d.sec := rfl
@[simp] theorem Dev.setFld_eth (d : Dev) (f : Fld) (v : Nat) : (d.setFld f v).eth = d.eth := rfl
@[simp] theorem Dev.setFld_gnd (d : Dev) (f : Fld) (v : Nat) : (d.setFld f v).gnd = d.gnd := rfl
@[simp] theorem Dev.setFld_tel (d : Dev) (f : Fld) (v : Nat) : (d.setFld f v).tel = d.tel := rfl
@[simp] theorem Dev.setFld_pwr (d : Dev) (f : Fld) (v : Nat) : (d.setFld f v).pwr = d.pwr := rfl
@[simp] theorem Dev.setFld_nvs (d : Dev) (f : Fld) (v : Nat) : (d.setFld f v).nvs = d.nvs := rfl
@[simp] theorem Dev.setFld_mgmt (d : Dev) (f : Fld) (v : Nat) : (d.setFld f v).mgmt = d.mgmt := rfl

@[simp] theorem Dev.count_time (d : Dev) (f : Fld) (n : Nat) : (d.count f n).time = d.time := rfl
@[simp] theorem Dev.count_free (d : Dev) (f : Fld) (n : Nat) : (d.count f n).free = d.free := rfl
@[simp] theorem Dev.count_mem (d : Dev) (f : Fld) (n : Nat) : (d.count f n).mem = d.mem := rfl
@[simp] theorem Dev.count_tick (d : Dev) (f : Fld) (n : Nat) : (d.count f n).tick = d.tick := rfl
@[simp] theorem Dev.count_links (d : Dev) (f : Fld) (n : Nat) : (d.count f n).links = d.links := rfl
@[simp] theorem Dev.count_ring (d : Dev) (f : Fld) (n : Nat) : (d.count f n).ring = d.ring := rfl
@[simp] theorem Dev.count_cores (d : Dev) (f : Fld) (n : Nat) : (d.count f n).cores = d.cores := rfl
@[simp] theorem Dev.count_home (d : Dev) (f : Fld) (n : Nat) : (d.count f n).home = d.home := rfl
@[simp] theorem Dev.count_str (d : Dev) (f : Fld) (n : Nat) : (d.count f n).str = d.str := rfl
@[simp] theorem Dev.count_keel (d : Dev) (f : Fld) (n : Nat) : (d.count f n).keel = d.keel := rfl
@[simp] theorem Dev.count_codec (d : Dev) (f : Fld) (n : Nat) : (d.count f n).codec = d.codec := rfl
@[simp] theorem Dev.count_sec (d : Dev) (f : Fld) (n : Nat) : (d.count f n).sec = d.sec := rfl
@[simp] theorem Dev.count_eth (d : Dev) (f : Fld) (n : Nat) : (d.count f n).eth = d.eth := rfl
@[simp] theorem Dev.count_gnd (d : Dev) (f : Fld) (n : Nat) : (d.count f n).gnd = d.gnd := rfl
@[simp] theorem Dev.count_tel (d : Dev) (f : Fld) (n : Nat) : (d.count f n).tel = d.tel := rfl
@[simp] theorem Dev.count_pwr (d : Dev) (f : Fld) (n : Nat) : (d.count f n).pwr = d.pwr := rfl
@[simp] theorem Dev.count_nvs (d : Dev) (f : Fld) (n : Nat) : (d.count f n).nvs = d.nvs := rfl
@[simp] theorem Dev.count_mgmt (d : Dev) (f : Fld) (n : Nat) : (d.count f n).mgmt = d.mgmt := rfl

@[simp] theorem Dev.setMb_time (d : Dev) (a : Nat) (b : Byte) : (d.setMb a b).time = d.time := rfl
@[simp] theorem Dev.setMb_free (d : Dev) (a : Nat) (b : Byte) : (d.setMb a b).free = d.free := rfl
@[simp] theorem Dev.setMb_regs (d : Dev) (a : Nat) (b : Byte) : (d.setMb a b).regs = d.regs := rfl
@[simp] theorem Dev.setMb_tick (d : Dev) (a : Nat) (b : Byte) : (d.setMb a b).tick = d.tick := rfl
@[simp] theorem Dev.setMb_links (d : Dev) (a : Nat) (b : Byte) : (d.setMb a b).links = d.links := rfl
@[simp] theorem Dev.setMb_ring (d : Dev) (a : Nat) (b : Byte) : (d.setMb a b).ring = d.ring := rfl
@[simp] theorem Dev.setMb_cores (d : Dev) (a : Nat) (b : Byte) : (d.setMb a b).cores = d.cores := rfl
@[simp] theorem Dev.setMb_home (d : Dev) (a : Nat) (b : Byte) : (d.setMb a b).home = d.home := rfl
@[simp] theorem Dev.setMb_str (d : Dev) (a : Nat) (b : Byte) : (d.setMb a b).str = d.str := rfl
@[simp] theorem Dev.setMb_keel (d : Dev) (a : Nat) (b : Byte) : (d.setMb a b).keel = d.keel := rfl
@[simp] theorem Dev.setMb_codec (d : Dev) (a : Nat) (b : Byte) : (d.setMb a b).codec = d.codec := rfl
@[simp] theorem Dev.setMb_sec (d : Dev) (a : Nat) (b : Byte) : (d.setMb a b).sec = d.sec := rfl
@[simp] theorem Dev.setMb_eth (d : Dev) (a : Nat) (b : Byte) : (d.setMb a b).eth = d.eth := rfl
@[simp] theorem Dev.setMb_gnd (d : Dev) (a : Nat) (b : Byte) : (d.setMb a b).gnd = d.gnd := rfl
@[simp] theorem Dev.setMb_tel (d : Dev) (a : Nat) (b : Byte) : (d.setMb a b).tel = d.tel := rfl
@[simp] theorem Dev.setMb_pwr (d : Dev) (a : Nat) (b : Byte) : (d.setMb a b).pwr = d.pwr := rfl
@[simp] theorem Dev.setMb_nvs (d : Dev) (a : Nat) (b : Byte) : (d.setMb a b).nvs = d.nvs := rfl
@[simp] theorem Dev.setMb_mgmt (d : Dev) (a : Nat) (b : Byte) : (d.setMb a b).mgmt = d.mgmt := rfl

@[simp] theorem Dev.wr_time (d : Dev) (a : Nat) (bs : List Byte) : (d.wr a bs).time = d.time := rfl
@[simp] theorem Dev.wr_free (d : Dev) (a : Nat) (bs : List Byte) : (d.wr a bs).free = d.free := rfl
@[simp] theorem Dev.wr_regs (d : Dev) (a : Nat) (bs : List Byte) : (d.wr a bs).regs = d.regs := rfl
@[simp] theorem Dev.wr_tick (d : Dev) (a : Nat) (bs : List Byte) : (d.wr a bs).tick = d.tick := rfl
@[simp] theorem Dev.wr_links (d : Dev) (a : Nat) (bs : List Byte) : (d.wr a bs).links = d.links := rfl
@[simp] theorem Dev.wr_ring (d : Dev) (a : Nat) (bs : List Byte) : (d.wr a bs).ring = d.ring := rfl
@[simp] theorem Dev.wr_cores (d : Dev) (a : Nat) (bs : List Byte) : (d.wr a bs).cores = d.cores := rfl
@[simp] theorem Dev.wr_home (d : Dev) (a : Nat) (bs : List Byte) : (d.wr a bs).home = d.home := rfl
@[simp] theorem Dev.wr_str (d : Dev) (a : Nat) (bs : List Byte) : (d.wr a bs).str = d.str := rfl
@[simp] theorem Dev.wr_keel (d : Dev) (a : Nat) (bs : List Byte) : (d.wr a bs).keel = d.keel := rfl
@[simp] theorem Dev.wr_codec (d : Dev) (a : Nat) (bs : List Byte) : (d.wr a bs).codec = d.codec := rfl
@[simp] theorem Dev.wr_sec (d : Dev) (a : Nat) (bs : List Byte) : (d.wr a bs).sec = d.sec := rfl
@[simp] theorem Dev.wr_eth (d : Dev) (a : Nat) (bs : List Byte) : (d.wr a bs).eth = d.eth := rfl
@[simp] theorem Dev.wr_gnd (d : Dev) (a : Nat) (bs : List Byte) : (d.wr a bs).gnd = d.gnd := rfl
@[simp] theorem Dev.wr_tel (d : Dev) (a : Nat) (bs : List Byte) : (d.wr a bs).tel = d.tel := rfl
@[simp] theorem Dev.wr_pwr (d : Dev) (a : Nat) (bs : List Byte) : (d.wr a bs).pwr = d.pwr := rfl
@[simp] theorem Dev.wr_nvs (d : Dev) (a : Nat) (bs : List Byte) : (d.wr a bs).nvs = d.nvs := rfl
@[simp] theorem Dev.wr_mgmt (d : Dev) (a : Nat) (bs : List Byte) : (d.wr a bs).mgmt = d.mgmt := rfl

@[simp] theorem Dev.zero_time (d : Dev) (a n : Nat) : (d.zero a n).time = d.time := rfl
@[simp] theorem Dev.zero_free (d : Dev) (a n : Nat) : (d.zero a n).free = d.free := rfl
@[simp] theorem Dev.zero_regs (d : Dev) (a n : Nat) : (d.zero a n).regs = d.regs := rfl
@[simp] theorem Dev.zero_tick (d : Dev) (a n : Nat) : (d.zero a n).tick = d.tick := rfl
@[simp] theorem Dev.zero_links (d : Dev) (a n : Nat) : (d.zero a n).links = d.links := rfl
@[simp] theorem Dev.zero_ring (d : Dev) (a n : Nat) : (d.zero a n).ring = d.ring := rfl
@[simp] theorem Dev.zero_cores (d : Dev) (a n : Nat) : (d.zero a n).cores = d.cores := rfl
@[simp] theorem Dev.zero_home (d : Dev) (a n : Nat) : (d.zero a n).home = d.home := rfl
@[simp] theorem Dev.zero_str (d : Dev) (a n : Nat) : (d.zero a n).str = d.str := rfl
@[simp] theorem Dev.zero_keel (d : Dev) (a n : Nat) : (d.zero a n).keel = d.keel := rfl
@[simp] theorem Dev.zero_codec (d : Dev) (a n : Nat) : (d.zero a n).codec = d.codec := rfl
@[simp] theorem Dev.zero_sec (d : Dev) (a n : Nat) : (d.zero a n).sec = d.sec := rfl
@[simp] theorem Dev.zero_eth (d : Dev) (a n : Nat) : (d.zero a n).eth = d.eth := rfl
@[simp] theorem Dev.zero_gnd (d : Dev) (a n : Nat) : (d.zero a n).gnd = d.gnd := rfl
@[simp] theorem Dev.zero_tel (d : Dev) (a n : Nat) : (d.zero a n).tel = d.tel := rfl
@[simp] theorem Dev.zero_pwr (d : Dev) (a n : Nat) : (d.zero a n).pwr = d.pwr := rfl
@[simp] theorem Dev.zero_nvs (d : Dev) (a n : Nat) : (d.zero a n).nvs = d.nvs := rfl
@[simp] theorem Dev.zero_mgmt (d : Dev) (a n : Nat) : (d.zero a n).mgmt = d.mgmt := rfl

@[simp] theorem Dev.setCore_time (d : Dev) (n : Nat) (c : CoreSt) : (d.setCore n c).time = d.time := rfl
@[simp] theorem Dev.setCore_free (d : Dev) (n : Nat) (c : CoreSt) : (d.setCore n c).free = d.free := rfl
@[simp] theorem Dev.setCore_regs (d : Dev) (n : Nat) (c : CoreSt) : (d.setCore n c).regs = d.regs := rfl
@[simp] theorem Dev.setCore_mem (d : Dev) (n : Nat) (c : CoreSt) : (d.setCore n c).mem = d.mem := rfl
@[simp] theorem Dev.setCore_tick (d : Dev) (n : Nat) (c : CoreSt) : (d.setCore n c).tick = d.tick := rfl
@[simp] theorem Dev.setCore_links (d : Dev) (n : Nat) (c : CoreSt) : (d.setCore n c).links = d.links := rfl
@[simp] theorem Dev.setCore_ring (d : Dev) (n : Nat) (c : CoreSt) : (d.setCore n c).ring = d.ring := rfl
@[simp] theorem Dev.setCore_home (d : Dev) (n : Nat) (c : CoreSt) : (d.setCore n c).home = d.home := rfl
@[simp] theorem Dev.setCore_str (d : Dev) (n : Nat) (c : CoreSt) : (d.setCore n c).str = d.str := rfl
@[simp] theorem Dev.setCore_keel (d : Dev) (n : Nat) (c : CoreSt) : (d.setCore n c).keel = d.keel := rfl
@[simp] theorem Dev.setCore_codec (d : Dev) (n : Nat) (c : CoreSt) : (d.setCore n c).codec = d.codec := rfl
@[simp] theorem Dev.setCore_sec (d : Dev) (n : Nat) (c : CoreSt) : (d.setCore n c).sec = d.sec := rfl
@[simp] theorem Dev.setCore_eth (d : Dev) (n : Nat) (c : CoreSt) : (d.setCore n c).eth = d.eth := rfl
@[simp] theorem Dev.setCore_gnd (d : Dev) (n : Nat) (c : CoreSt) : (d.setCore n c).gnd = d.gnd := rfl
@[simp] theorem Dev.setCore_tel (d : Dev) (n : Nat) (c : CoreSt) : (d.setCore n c).tel = d.tel := rfl
@[simp] theorem Dev.setCore_pwr (d : Dev) (n : Nat) (c : CoreSt) : (d.setCore n c).pwr = d.pwr := rfl
@[simp] theorem Dev.setCore_nvs (d : Dev) (n : Nat) (c : CoreSt) : (d.setCore n c).nvs = d.nvs := rfl
@[simp] theorem Dev.setCore_mgmt (d : Dev) (n : Nat) (c : CoreSt) : (d.setCore n c).mgmt = d.mgmt := rfl

@[simp] theorem Dev.modCore_time (d : Dev) (n : Nat) (g : CoreSt → CoreSt) : (d.modCore n g).time = d.time := rfl
@[simp] theorem Dev.modCore_free (d : Dev) (n : Nat) (g : CoreSt → CoreSt) : (d.modCore n g).free = d.free := rfl
@[simp] theorem Dev.modCore_regs (d : Dev) (n : Nat) (g : CoreSt → CoreSt) : (d.modCore n g).regs = d.regs := rfl
@[simp] theorem Dev.modCore_mem (d : Dev) (n : Nat) (g : CoreSt → CoreSt) : (d.modCore n g).mem = d.mem := rfl
@[simp] theorem Dev.modCore_tick (d : Dev) (n : Nat) (g : CoreSt → CoreSt) : (d.modCore n g).tick = d.tick := rfl
@[simp] theorem Dev.modCore_links (d : Dev) (n : Nat) (g : CoreSt → CoreSt) : (d.modCore n g).links = d.links := rfl
@[simp] theorem Dev.modCore_ring (d : Dev) (n : Nat) (g : CoreSt → CoreSt) : (d.modCore n g).ring = d.ring := rfl
@[simp] theorem Dev.modCore_home (d : Dev) (n : Nat) (g : CoreSt → CoreSt) : (d.modCore n g).home = d.home := rfl
@[simp] theorem Dev.modCore_str (d : Dev) (n : Nat) (g : CoreSt → CoreSt) : (d.modCore n g).str = d.str := rfl
@[simp] theorem Dev.modCore_keel (d : Dev) (n : Nat) (g : CoreSt → CoreSt) : (d.modCore n g).keel = d.keel := rfl
@[simp] theorem Dev.modCore_codec (d : Dev) (n : Nat) (g : CoreSt → CoreSt) : (d.modCore n g).codec = d.codec := rfl
@[simp] theorem Dev.modCore_sec (d : Dev) (n : Nat) (g : CoreSt → CoreSt) : (d.modCore n g).sec = d.sec := rfl
@[simp] theorem Dev.modCore_eth (d : Dev) (n : Nat) (g : CoreSt → CoreSt) : (d.modCore n g).eth = d.eth := rfl
@[simp] theorem Dev.modCore_gnd (d : Dev) (n : Nat) (g : CoreSt → CoreSt) : (d.modCore n g).gnd = d.gnd := rfl
@[simp] theorem Dev.modCore_tel (d : Dev) (n : Nat) (g : CoreSt → CoreSt) : (d.modCore n g).tel = d.tel := rfl
@[simp] theorem Dev.modCore_pwr (d : Dev) (n : Nat) (g : CoreSt → CoreSt) : (d.modCore n g).pwr = d.pwr := rfl
@[simp] theorem Dev.modCore_nvs (d : Dev) (n : Nat) (g : CoreSt → CoreSt) : (d.modCore n g).nvs = d.nvs := rfl
@[simp] theorem Dev.modCore_mgmt (d : Dev) (n : Nat) (g : CoreSt → CoreSt) : (d.modCore n g).mgmt = d.mgmt := rfl

@[simp] theorem Dev.setPort_time (d : Dev) (p : Nat) (q : Port) : (d.setPort p q).time = d.time := rfl
@[simp] theorem Dev.setPort_free (d : Dev) (p : Nat) (q : Port) : (d.setPort p q).free = d.free := rfl
@[simp] theorem Dev.setPort_regs (d : Dev) (p : Nat) (q : Port) : (d.setPort p q).regs = d.regs := rfl
@[simp] theorem Dev.setPort_mem (d : Dev) (p : Nat) (q : Port) : (d.setPort p q).mem = d.mem := rfl
@[simp] theorem Dev.setPort_tick (d : Dev) (p : Nat) (q : Port) : (d.setPort p q).tick = d.tick := rfl
@[simp] theorem Dev.setPort_ring (d : Dev) (p : Nat) (q : Port) : (d.setPort p q).ring = d.ring := rfl
@[simp] theorem Dev.setPort_cores (d : Dev) (p : Nat) (q : Port) : (d.setPort p q).cores = d.cores := rfl
@[simp] theorem Dev.setPort_home (d : Dev) (p : Nat) (q : Port) : (d.setPort p q).home = d.home := rfl
@[simp] theorem Dev.setPort_str (d : Dev) (p : Nat) (q : Port) : (d.setPort p q).str = d.str := rfl
@[simp] theorem Dev.setPort_keel (d : Dev) (p : Nat) (q : Port) : (d.setPort p q).keel = d.keel := rfl
@[simp] theorem Dev.setPort_codec (d : Dev) (p : Nat) (q : Port) : (d.setPort p q).codec = d.codec := rfl
@[simp] theorem Dev.setPort_sec (d : Dev) (p : Nat) (q : Port) : (d.setPort p q).sec = d.sec := rfl
@[simp] theorem Dev.setPort_eth (d : Dev) (p : Nat) (q : Port) : (d.setPort p q).eth = d.eth := rfl
@[simp] theorem Dev.setPort_gnd (d : Dev) (p : Nat) (q : Port) : (d.setPort p q).gnd = d.gnd := rfl
@[simp] theorem Dev.setPort_tel (d : Dev) (p : Nat) (q : Port) : (d.setPort p q).tel = d.tel := rfl
@[simp] theorem Dev.setPort_pwr (d : Dev) (p : Nat) (q : Port) : (d.setPort p q).pwr = d.pwr := rfl
@[simp] theorem Dev.setPort_nvs (d : Dev) (p : Nat) (q : Port) : (d.setPort p q).nvs = d.nvs := rfl
@[simp] theorem Dev.setPort_mgmt (d : Dev) (p : Nat) (q : Port) : (d.setPort p q).mgmt = d.mgmt := rfl

@[simp] theorem Dev.passTo_free (d : Dev) (t : Nat) : (d.at_ t).free = d.free := rfl
@[simp] theorem Dev.passTo_regs (d : Dev) (t : Nat) : (d.at_ t).regs = d.regs := rfl
@[simp] theorem Dev.passTo_mem (d : Dev) (t : Nat) : (d.at_ t).mem = d.mem := rfl
@[simp] theorem Dev.passTo_tick (d : Dev) (t : Nat) : (d.at_ t).tick = d.tick := rfl
@[simp] theorem Dev.passTo_links (d : Dev) (t : Nat) : (d.at_ t).links = d.links := rfl
@[simp] theorem Dev.passTo_ring (d : Dev) (t : Nat) : (d.at_ t).ring = d.ring := rfl
@[simp] theorem Dev.passTo_cores (d : Dev) (t : Nat) : (d.at_ t).cores = d.cores := rfl
@[simp] theorem Dev.passTo_home (d : Dev) (t : Nat) : (d.at_ t).home = d.home := rfl
@[simp] theorem Dev.passTo_str (d : Dev) (t : Nat) : (d.at_ t).str = d.str := rfl
@[simp] theorem Dev.passTo_keel (d : Dev) (t : Nat) : (d.at_ t).keel = d.keel := rfl
@[simp] theorem Dev.passTo_codec (d : Dev) (t : Nat) : (d.at_ t).codec = d.codec := rfl
@[simp] theorem Dev.passTo_sec (d : Dev) (t : Nat) : (d.at_ t).sec = d.sec := rfl
@[simp] theorem Dev.passTo_eth (d : Dev) (t : Nat) : (d.at_ t).eth = d.eth := rfl
@[simp] theorem Dev.passTo_gnd (d : Dev) (t : Nat) : (d.at_ t).gnd = d.gnd := rfl
@[simp] theorem Dev.passTo_tel (d : Dev) (t : Nat) : (d.at_ t).tel = d.tel := rfl
@[simp] theorem Dev.passTo_pwr (d : Dev) (t : Nat) : (d.at_ t).pwr = d.pwr := rfl
@[simp] theorem Dev.passTo_nvs (d : Dev) (t : Nat) : (d.at_ t).nvs = d.nvs := rfl
@[simp] theorem Dev.passTo_mgmt (d : Dev) (t : Nat) : (d.at_ t).mgmt = d.mgmt := rfl

@[simp] theorem Dev.record_time (d : Dev) (f : Fld) (u c : Nat) : (d.record f u c).time = d.time := by
  obtain ⟨r, t, h⟩ := d.record_parts f u c; rw [h]
@[simp] theorem Dev.record_free (d : Dev) (f : Fld) (u c : Nat) : (d.record f u c).free = d.free := by
  obtain ⟨r, t, h⟩ := d.record_parts f u c; rw [h]
@[simp] theorem Dev.record_mem (d : Dev) (f : Fld) (u c : Nat) : (d.record f u c).mem = d.mem := by
  obtain ⟨r, t, h⟩ := d.record_parts f u c; rw [h]
@[simp] theorem Dev.record_tick (d : Dev) (f : Fld) (u c : Nat) : (d.record f u c).tick = d.tick := by
  obtain ⟨r, t, h⟩ := d.record_parts f u c; rw [h]
@[simp] theorem Dev.record_links (d : Dev) (f : Fld) (u c : Nat) : (d.record f u c).links = d.links := by
  obtain ⟨r, t, h⟩ := d.record_parts f u c; rw [h]
@[simp] theorem Dev.record_ring (d : Dev) (f : Fld) (u c : Nat) : (d.record f u c).ring = d.ring := by
  obtain ⟨r, t, h⟩ := d.record_parts f u c; rw [h]
@[simp] theorem Dev.record_cores (d : Dev) (f : Fld) (u c : Nat) : (d.record f u c).cores = d.cores := by
  obtain ⟨r, t, h⟩ := d.record_parts f u c; rw [h]
@[simp] theorem Dev.record_home (d : Dev) (f : Fld) (u c : Nat) : (d.record f u c).home = d.home := by
  obtain ⟨r, t, h⟩ := d.record_parts f u c; rw [h]
@[simp] theorem Dev.record_str (d : Dev) (f : Fld) (u c : Nat) : (d.record f u c).str = d.str := by
  obtain ⟨r, t, h⟩ := d.record_parts f u c; rw [h]
@[simp] theorem Dev.record_keel (d : Dev) (f : Fld) (u c : Nat) : (d.record f u c).keel = d.keel := by
  obtain ⟨r, t, h⟩ := d.record_parts f u c; rw [h]
@[simp] theorem Dev.record_codec (d : Dev) (f : Fld) (u c : Nat) : (d.record f u c).codec = d.codec := by
  obtain ⟨r, t, h⟩ := d.record_parts f u c; rw [h]
@[simp] theorem Dev.record_sec (d : Dev) (f : Fld) (u c : Nat) : (d.record f u c).sec = d.sec := by
  obtain ⟨r, t, h⟩ := d.record_parts f u c; rw [h]
@[simp] theorem Dev.record_eth (d : Dev) (f : Fld) (u c : Nat) : (d.record f u c).eth = d.eth := by
  obtain ⟨r, t, h⟩ := d.record_parts f u c; rw [h]
@[simp] theorem Dev.record_gnd (d : Dev) (f : Fld) (u c : Nat) : (d.record f u c).gnd = d.gnd := by
  obtain ⟨r, t, h⟩ := d.record_parts f u c; rw [h]
@[simp] theorem Dev.record_pwr (d : Dev) (f : Fld) (u c : Nat) : (d.record f u c).pwr = d.pwr := by
  obtain ⟨r, t, h⟩ := d.record_parts f u c; rw [h]
@[simp] theorem Dev.record_nvs (d : Dev) (f : Fld) (u c : Nat) : (d.record f u c).nvs = d.nvs := by
  obtain ⟨r, t, h⟩ := d.record_parts f u c; rw [h]
@[simp] theorem Dev.record_mgmt (d : Dev) (f : Fld) (u c : Nat) : (d.record f u c).mgmt = d.mgmt := by
  obtain ⟨r, t, h⟩ := d.record_parts f u c; rw [h]

@[simp] theorem Dev.satStep_time (d : Dev) (f : Fld) : (d.satStep f).time = d.time := by
  obtain ⟨r, t, h⟩ := d.satStep_parts f; rw [h]
@[simp] theorem Dev.satStep_free (d : Dev) (f : Fld) : (d.satStep f).free = d.free := by
  obtain ⟨r, t, h⟩ := d.satStep_parts f; rw [h]
@[simp] theorem Dev.satStep_mem (d : Dev) (f : Fld) : (d.satStep f).mem = d.mem := by
  obtain ⟨r, t, h⟩ := d.satStep_parts f; rw [h]
@[simp] theorem Dev.satStep_tick (d : Dev) (f : Fld) : (d.satStep f).tick = d.tick := by
  obtain ⟨r, t, h⟩ := d.satStep_parts f; rw [h]
@[simp] theorem Dev.satStep_links (d : Dev) (f : Fld) : (d.satStep f).links = d.links := by
  obtain ⟨r, t, h⟩ := d.satStep_parts f; rw [h]
@[simp] theorem Dev.satStep_ring (d : Dev) (f : Fld) : (d.satStep f).ring = d.ring := by
  obtain ⟨r, t, h⟩ := d.satStep_parts f; rw [h]
@[simp] theorem Dev.satStep_cores (d : Dev) (f : Fld) : (d.satStep f).cores = d.cores := by
  obtain ⟨r, t, h⟩ := d.satStep_parts f; rw [h]
@[simp] theorem Dev.satStep_home (d : Dev) (f : Fld) : (d.satStep f).home = d.home := by
  obtain ⟨r, t, h⟩ := d.satStep_parts f; rw [h]
@[simp] theorem Dev.satStep_str (d : Dev) (f : Fld) : (d.satStep f).str = d.str := by
  obtain ⟨r, t, h⟩ := d.satStep_parts f; rw [h]
@[simp] theorem Dev.satStep_keel (d : Dev) (f : Fld) : (d.satStep f).keel = d.keel := by
  obtain ⟨r, t, h⟩ := d.satStep_parts f; rw [h]
@[simp] theorem Dev.satStep_codec (d : Dev) (f : Fld) : (d.satStep f).codec = d.codec := by
  obtain ⟨r, t, h⟩ := d.satStep_parts f; rw [h]
@[simp] theorem Dev.satStep_sec (d : Dev) (f : Fld) : (d.satStep f).sec = d.sec := by
  obtain ⟨r, t, h⟩ := d.satStep_parts f; rw [h]
@[simp] theorem Dev.satStep_eth (d : Dev) (f : Fld) : (d.satStep f).eth = d.eth := by
  obtain ⟨r, t, h⟩ := d.satStep_parts f; rw [h]
@[simp] theorem Dev.satStep_gnd (d : Dev) (f : Fld) : (d.satStep f).gnd = d.gnd := by
  obtain ⟨r, t, h⟩ := d.satStep_parts f; rw [h]
@[simp] theorem Dev.satStep_pwr (d : Dev) (f : Fld) : (d.satStep f).pwr = d.pwr := by
  obtain ⟨r, t, h⟩ := d.satStep_parts f; rw [h]
@[simp] theorem Dev.satStep_nvs (d : Dev) (f : Fld) : (d.satStep f).nvs = d.nvs := by
  obtain ⟨r, t, h⟩ := d.satStep_parts f; rw [h]
@[simp] theorem Dev.satStep_mgmt (d : Dev) (f : Fld) : (d.satStep f).mgmt = d.mgmt := by
  obtain ⟨r, t, h⟩ := d.satStep_parts f; rw [h]

@[simp] theorem Dev.raise_time (d : Dev) (f : Fld) (u c : Nat) : (d.raise f u c).time = d.time := by
  obtain ⟨r, t, h⟩ := d.raise_parts f u c; rw [h]
@[simp] theorem Dev.raise_free (d : Dev) (f : Fld) (u c : Nat) : (d.raise f u c).free = d.free := by
  obtain ⟨r, t, h⟩ := d.raise_parts f u c; rw [h]
@[simp] theorem Dev.raise_mem (d : Dev) (f : Fld) (u c : Nat) : (d.raise f u c).mem = d.mem := by
  obtain ⟨r, t, h⟩ := d.raise_parts f u c; rw [h]
@[simp] theorem Dev.raise_tick (d : Dev) (f : Fld) (u c : Nat) : (d.raise f u c).tick = d.tick := by
  obtain ⟨r, t, h⟩ := d.raise_parts f u c; rw [h]
@[simp] theorem Dev.raise_links (d : Dev) (f : Fld) (u c : Nat) : (d.raise f u c).links = d.links := by
  obtain ⟨r, t, h⟩ := d.raise_parts f u c; rw [h]
@[simp] theorem Dev.raise_ring (d : Dev) (f : Fld) (u c : Nat) : (d.raise f u c).ring = d.ring := by
  obtain ⟨r, t, h⟩ := d.raise_parts f u c; rw [h]
@[simp] theorem Dev.raise_cores (d : Dev) (f : Fld) (u c : Nat) : (d.raise f u c).cores = d.cores := by
  obtain ⟨r, t, h⟩ := d.raise_parts f u c; rw [h]
@[simp] theorem Dev.raise_home (d : Dev) (f : Fld) (u c : Nat) : (d.raise f u c).home = d.home := by
  obtain ⟨r, t, h⟩ := d.raise_parts f u c; rw [h]
@[simp] theorem Dev.raise_str (d : Dev) (f : Fld) (u c : Nat) : (d.raise f u c).str = d.str := by
  obtain ⟨r, t, h⟩ := d.raise_parts f u c; rw [h]
@[simp] theorem Dev.raise_keel (d : Dev) (f : Fld) (u c : Nat) : (d.raise f u c).keel = d.keel := by
  obtain ⟨r, t, h⟩ := d.raise_parts f u c; rw [h]
@[simp] theorem Dev.raise_codec (d : Dev) (f : Fld) (u c : Nat) : (d.raise f u c).codec = d.codec := by
  obtain ⟨r, t, h⟩ := d.raise_parts f u c; rw [h]
@[simp] theorem Dev.raise_sec (d : Dev) (f : Fld) (u c : Nat) : (d.raise f u c).sec = d.sec := by
  obtain ⟨r, t, h⟩ := d.raise_parts f u c; rw [h]
@[simp] theorem Dev.raise_eth (d : Dev) (f : Fld) (u c : Nat) : (d.raise f u c).eth = d.eth := by
  obtain ⟨r, t, h⟩ := d.raise_parts f u c; rw [h]
@[simp] theorem Dev.raise_gnd (d : Dev) (f : Fld) (u c : Nat) : (d.raise f u c).gnd = d.gnd := by
  obtain ⟨r, t, h⟩ := d.raise_parts f u c; rw [h]
@[simp] theorem Dev.raise_pwr (d : Dev) (f : Fld) (u c : Nat) : (d.raise f u c).pwr = d.pwr := by
  obtain ⟨r, t, h⟩ := d.raise_parts f u c; rw [h]
@[simp] theorem Dev.raise_nvs (d : Dev) (f : Fld) (u c : Nat) : (d.raise f u c).nvs = d.nvs := by
  obtain ⟨r, t, h⟩ := d.raise_parts f u c; rw [h]
@[simp] theorem Dev.raise_mgmt (d : Dev) (f : Fld) (u c : Nat) : (d.raise f u c).mgmt = d.mgmt := by
  obtain ⟨r, t, h⟩ := d.raise_parts f u c; rw [h]

@[simp] theorem Dev.countErr_time (d : Dev) (f s : Fld) (u : Nat) : (d.countErr f s u).time = d.time := by
  obtain ⟨r, t, h⟩ := d.countErr_parts f s u; rw [h]
@[simp] theorem Dev.countErr_free (d : Dev) (f s : Fld) (u : Nat) : (d.countErr f s u).free = d.free := by
  obtain ⟨r, t, h⟩ := d.countErr_parts f s u; rw [h]
@[simp] theorem Dev.countErr_mem (d : Dev) (f s : Fld) (u : Nat) : (d.countErr f s u).mem = d.mem := by
  obtain ⟨r, t, h⟩ := d.countErr_parts f s u; rw [h]
@[simp] theorem Dev.countErr_tick (d : Dev) (f s : Fld) (u : Nat) : (d.countErr f s u).tick = d.tick := by
  obtain ⟨r, t, h⟩ := d.countErr_parts f s u; rw [h]
@[simp] theorem Dev.countErr_links (d : Dev) (f s : Fld) (u : Nat) : (d.countErr f s u).links = d.links := by
  obtain ⟨r, t, h⟩ := d.countErr_parts f s u; rw [h]
@[simp] theorem Dev.countErr_ring (d : Dev) (f s : Fld) (u : Nat) : (d.countErr f s u).ring = d.ring := by
  obtain ⟨r, t, h⟩ := d.countErr_parts f s u; rw [h]
@[simp] theorem Dev.countErr_cores (d : Dev) (f s : Fld) (u : Nat) : (d.countErr f s u).cores = d.cores := by
  obtain ⟨r, t, h⟩ := d.countErr_parts f s u; rw [h]
@[simp] theorem Dev.countErr_home (d : Dev) (f s : Fld) (u : Nat) : (d.countErr f s u).home = d.home := by
  obtain ⟨r, t, h⟩ := d.countErr_parts f s u; rw [h]
@[simp] theorem Dev.countErr_str (d : Dev) (f s : Fld) (u : Nat) : (d.countErr f s u).str = d.str := by
  obtain ⟨r, t, h⟩ := d.countErr_parts f s u; rw [h]
@[simp] theorem Dev.countErr_keel (d : Dev) (f s : Fld) (u : Nat) : (d.countErr f s u).keel = d.keel := by
  obtain ⟨r, t, h⟩ := d.countErr_parts f s u; rw [h]
@[simp] theorem Dev.countErr_codec (d : Dev) (f s : Fld) (u : Nat) : (d.countErr f s u).codec = d.codec := by
  obtain ⟨r, t, h⟩ := d.countErr_parts f s u; rw [h]
@[simp] theorem Dev.countErr_sec (d : Dev) (f s : Fld) (u : Nat) : (d.countErr f s u).sec = d.sec := by
  obtain ⟨r, t, h⟩ := d.countErr_parts f s u; rw [h]
@[simp] theorem Dev.countErr_eth (d : Dev) (f s : Fld) (u : Nat) : (d.countErr f s u).eth = d.eth := by
  obtain ⟨r, t, h⟩ := d.countErr_parts f s u; rw [h]
@[simp] theorem Dev.countErr_gnd (d : Dev) (f s : Fld) (u : Nat) : (d.countErr f s u).gnd = d.gnd := by
  obtain ⟨r, t, h⟩ := d.countErr_parts f s u; rw [h]
@[simp] theorem Dev.countErr_pwr (d : Dev) (f s : Fld) (u : Nat) : (d.countErr f s u).pwr = d.pwr := by
  obtain ⟨r, t, h⟩ := d.countErr_parts f s u; rw [h]
@[simp] theorem Dev.countErr_nvs (d : Dev) (f s : Fld) (u : Nat) : (d.countErr f s u).nvs = d.nvs := by
  obtain ⟨r, t, h⟩ := d.countErr_parts f s u; rw [h]
@[simp] theorem Dev.countErr_mgmt (d : Dev) (f s : Fld) (u : Nat) : (d.countErr f s u).mgmt = d.mgmt := by
  obtain ⟨r, t, h⟩ := d.countErr_parts f s u; rw [h]

@[simp] theorem Dev.monitor_time (d : Dev) (e u n : Nat) : (d.monitor e u n).time = d.time := by
  obtain ⟨r, t, h⟩ := d.monitor_parts e u n; rw [h]
@[simp] theorem Dev.monitor_free (d : Dev) (e u n : Nat) : (d.monitor e u n).free = d.free := by
  obtain ⟨r, t, h⟩ := d.monitor_parts e u n; rw [h]
@[simp] theorem Dev.monitor_mem (d : Dev) (e u n : Nat) : (d.monitor e u n).mem = d.mem := by
  obtain ⟨r, t, h⟩ := d.monitor_parts e u n; rw [h]
@[simp] theorem Dev.monitor_tick (d : Dev) (e u n : Nat) : (d.monitor e u n).tick = d.tick := by
  obtain ⟨r, t, h⟩ := d.monitor_parts e u n; rw [h]
@[simp] theorem Dev.monitor_links (d : Dev) (e u n : Nat) : (d.monitor e u n).links = d.links := by
  obtain ⟨r, t, h⟩ := d.monitor_parts e u n; rw [h]
@[simp] theorem Dev.monitor_ring (d : Dev) (e u n : Nat) : (d.monitor e u n).ring = d.ring := by
  obtain ⟨r, t, h⟩ := d.monitor_parts e u n; rw [h]
@[simp] theorem Dev.monitor_cores (d : Dev) (e u n : Nat) : (d.monitor e u n).cores = d.cores := by
  obtain ⟨r, t, h⟩ := d.monitor_parts e u n; rw [h]
@[simp] theorem Dev.monitor_home (d : Dev) (e u n : Nat) : (d.monitor e u n).home = d.home := by
  obtain ⟨r, t, h⟩ := d.monitor_parts e u n; rw [h]
@[simp] theorem Dev.monitor_str (d : Dev) (e u n : Nat) : (d.monitor e u n).str = d.str := by
  obtain ⟨r, t, h⟩ := d.monitor_parts e u n; rw [h]
@[simp] theorem Dev.monitor_keel (d : Dev) (e u n : Nat) : (d.monitor e u n).keel = d.keel := by
  obtain ⟨r, t, h⟩ := d.monitor_parts e u n; rw [h]
@[simp] theorem Dev.monitor_codec (d : Dev) (e u n : Nat) : (d.monitor e u n).codec = d.codec := by
  obtain ⟨r, t, h⟩ := d.monitor_parts e u n; rw [h]
@[simp] theorem Dev.monitor_sec (d : Dev) (e u n : Nat) : (d.monitor e u n).sec = d.sec := by
  obtain ⟨r, t, h⟩ := d.monitor_parts e u n; rw [h]
@[simp] theorem Dev.monitor_eth (d : Dev) (e u n : Nat) : (d.monitor e u n).eth = d.eth := by
  obtain ⟨r, t, h⟩ := d.monitor_parts e u n; rw [h]
@[simp] theorem Dev.monitor_gnd (d : Dev) (e u n : Nat) : (d.monitor e u n).gnd = d.gnd := by
  obtain ⟨r, t, h⟩ := d.monitor_parts e u n; rw [h]
@[simp] theorem Dev.monitor_pwr (d : Dev) (e u n : Nat) : (d.monitor e u n).pwr = d.pwr := by
  obtain ⟨r, t, h⟩ := d.monitor_parts e u n; rw [h]
@[simp] theorem Dev.monitor_nvs (d : Dev) (e u n : Nat) : (d.monitor e u n).nvs = d.nvs := by
  obtain ⟨r, t, h⟩ := d.monitor_parts e u n; rw [h]
@[simp] theorem Dev.monitor_mgmt (d : Dev) (e u n : Nat) : (d.monitor e u n).mgmt = d.mgmt := by
  obtain ⟨r, t, h⟩ := d.monitor_parts e u n; rw [h]

/-! ## Reads of one thing after an update of another -/

@[simp] theorem Dev.reg_modCore (d : Dev) (n : Nat) (g : CoreSt → CoreSt) (k : Nat) : (d.modCore n g).reg k = d.reg k := rfl
@[simp] theorem Dev.fld_modCore (d : Dev) (n : Nat) (g : CoreSt → CoreSt) (f : Fld) : (d.modCore n g).fld f = d.fld f := rfl
@[simp] theorem Dev.fld_setCore (d : Dev) (n : Nat) (c : CoreSt) (f : Fld) : (d.setCore n c).fld f = d.fld f := rfl
@[simp] theorem Dev.fld_wr (d : Dev) (a : Nat) (bs : List Byte) (f : Fld) : (d.wr a bs).fld f = d.fld f := rfl
@[simp] theorem Dev.fld_zero (d : Dev) (a n : Nat) (f : Fld) : (d.zero a n).fld f = d.fld f := rfl
@[simp] theorem Dev.fld_at_ (d : Dev) (t : Nat) (f : Fld) : (d.at_ t).fld f = d.fld f := rfl
@[simp] theorem Dev.fld_setPort (d : Dev) (p : Nat) (q : Port) (f : Fld) : (d.setPort p q).fld f = d.fld f := rfl
@[simp] theorem Dev.core_setFld (d : Dev) (f : Fld) (v n : Nat) : (d.setFld f v).core n = d.core n := rfl
@[simp] theorem Dev.core_setReg (d : Dev) (k : Nat) (w : Word) (n : Nat) : (d.setReg k w).core n = d.core n := rfl
@[simp] theorem Dev.core_count (d : Dev) (f : Fld) (v n : Nat) : (d.count f v).core n = d.core n := rfl
@[simp] theorem Dev.core_wr (d : Dev) (a : Nat) (bs : List Byte) (n : Nat) : (d.wr a bs).core n = d.core n := rfl
@[simp] theorem Dev.core_raise (d : Dev) (f : Fld) (u c n : Nat) : (d.raise f u c).core n = d.core n := by
  unfold Dev.core; rw [Dev.raise_cores]
@[simp] theorem Dev.core_countErr (d : Dev) (f s : Fld) (u n : Nat) : (d.countErr f s u).core n = d.core n := by
  unfold Dev.core; rw [Dev.countErr_cores]
@[simp] theorem Dev.core_monitor (d : Dev) (e u k n : Nat) : (d.monitor e u k).core n = d.core n := by
  unfold Dev.core; rw [Dev.monitor_cores]
@[simp] theorem Dev.mb_setFld (d : Dev) (f : Fld) (v a : Nat) : (d.setFld f v).mb a = d.mb a := rfl
@[simp] theorem Dev.mb_modCore (d : Dev) (n : Nat) (g : CoreSt → CoreSt) (a : Nat) : (d.modCore n g).mb a = d.mb a := rfl
@[simp] theorem Dev.mb_raise (d : Dev) (f : Fld) (u c a : Nat) : (d.raise f u c).mb a = d.mb a := by unfold Dev.mb Dev.veil; rw [Dev.raise_mem, Dev.raise_keel]

/-- A core just replaced is the new one; every other is as before. -/
theorem Dev.core_setCore (d : Dev) (n : Nat) (c : CoreSt) (m : Nat) : (d.setCore n c).core m = if m = n then c else d.core m :=
  Store.get_put d.cores n c m

theorem Dev.core_modCore (d : Dev) (n : Nat) (g : CoreSt → CoreSt) (m : Nat) : (d.modCore n g).core m = if m = n then g (d.core n) else d.core m :=
  Store.get_put d.cores n _ m

@[simp] theorem Dev.core_modCore_self (d : Dev) (n : Nat) (g : CoreSt → CoreSt) : (d.modCore n g).core n = g (d.core n) := by
  rw [Dev.core_modCore, if_pos rfl]

/-- A port just replaced is the new one; every other is as before. -/
theorem Dev.port_setPort (d : Dev) (p : Nat) (q : Port) (r : Nat) : (d.setPort p q).port r = if r = p then q else d.port r :=
  Store.get_put d.links.ports p q r

theorem Byte.xor_twice (a b : Byte) : a ^^^ b ^^^ b = a := by rw [BitVec.xor_assoc, BitVec.xor_self, BitVec.xor_zero]

/-- A byte just written reads as written; every other is as before. -/
theorem Dev.mb_setMb (d : Dev) (a : Nat) (b : Byte) (j : Nat) : (d.setMb a b).mb j = if j = a then b else d.mb j := by
  show Store.get memDefault (Store.put memDefault d.mem a (b ^^^ d.veil a)) j ^^^ d.veil j = _
  rw [Store.get_put]
  split
  · rename_i e; rw [e]; exact Byte.xor_twice _ _
  · rfl

theorem get_memWrite (veil : Nat → Byte) : ∀ (bs : List Byte) (m : List Host.Cell) (a j : Nat),
    Store.get memDefault (memWrite veil m a bs) j =
      if a ≤ j ∧ j < a + bs.length then bs.getD (j - a) 0 ^^^ veil j else Store.get memDefault m j
  | [], m, a, j => by
    have : ¬ (a ≤ j ∧ j < a + ([] : List Byte).length) := by simp
    rw [if_neg this]; rfl
  | b :: bs, m, a, j => by
    rw [memWrite, get_memWrite veil bs, Store.get_put, List.length_cons]
    by_cases h1 : j = a
    · subst h1; simp
    · by_cases h2 : a + 1 ≤ j ∧ j < a + 1 + bs.length
      · have e : j - a = (j - (a + 1)) + 1 := by omega
        rw [if_pos h2, if_pos (by omega), e, List.getD_cons_succ]
      · rw [if_neg h2, if_neg h1, if_neg (by omega)]

/-- What every byte reads as after a write of bytes. -/
theorem Dev.mb_wr (d : Dev) (a : Nat) (bs : List Byte) (j : Nat) :
    (d.wr a bs).mb j = if a ≤ j ∧ j < a + bs.length then bs.getD (j - a) 0 else d.mb j := by
  show Store.get memDefault (Machine.memWrite d.veil d.mem a bs) j ^^^ d.veil j = _
  rw [get_memWrite]
  split
  · exact Byte.xor_twice _ _
  · rfl

theorem memWrite_wf (veil : Nat → Byte) : ∀ (bs : List Byte) (m : List Host.Cell) (a : Nat), Store.wf memDefault m = true →
    Store.wf memDefault (memWrite veil m a bs) = true
  | [], _, _, h => h
  | _ :: bs, m, a, h => memWrite_wf veil bs _ _ (Store.put_wf m a _ h)

/-! ## Outcomes -/

theorem act_live {s : State} (h : s.live = true) (g : Dev → Dev) : act s g = .next (s.on g) := by simp [act, h, State.on]
theorem actS_live {s : State} (h : s.live = true) (g : State → State) : actS s g = .next (g s) := by simp [actS, h]
theorem act_dead {s : State} (h : s.live = false) (g : Dev → Dev) : act s g = .next s := by simp [act, h]
theorem actS_dead {s : State} (h : s.live = false) (g : State → State) : actS s g = .next s := by simp [actS, h]
@[simp] theorem State.on_dev (s : State) (g : Dev → Dev) : (s.on g).dev = g s.dev := rfl
@[simp] theorem State.on_persist (s : State) (g : Dev → Dev) : (s.on g).persist = s.persist := rfl
@[simp] theorem State.on_pending (s : State) (g : Dev → Dev) : (s.on g).pending = s.pending := rfl

end Sys2Proof.Machine
end

