-- ==== Sys2Proof/Laws/Memory.lean ====
section
/-! SUPPORT. Memory and registers: what a byte reads as after each operation over memory, and the canonical form, which each keeps. -/

namespace Sys2Proof.Machine

/-! ## What reads give -/

/-- A byte outside a write is the one before. -/
theorem Dev.mb_wr_out (d : Dev) (a : Nat) (bs : List Byte) (j : Nat) (h : j < a ∨ a + bs.length ≤ j) : (d.wr a bs).mb j = d.mb j := by
  rw [Dev.mb_wr, if_neg (by omega)]

theorem Dev.rd_length (d : Dev) : ∀ (n a : Nat), (d.rd a n).length = n
  | 0, _ => rfl
  | n + 1, a => by show (d.rd (a + 1) n).length + 1 = n + 1; rw [Dev.rd_length d n]

/-- The i-th byte of a read. -/
theorem Dev.rd_getD (d : Dev) : ∀ (n a i : Nat), i < n → (d.rd a n).getD i 0 = d.mb (a + i)
  | n + 1, a, 0, _ => rfl
  | n + 1, a, i + 1, h => by
    show (d.rd (a + 1) n).getD i 0 = d.mb (a + (i + 1))
    rw [Dev.rd_getD d n (a + 1) i (by omega), show a + 1 + i = a + (i + 1) by omega]

/-- Reading what has just been written gives it back. -/
theorem Dev.rd_wr (d : Dev) (a : Nat) (bs : List Byte) : (d.wr a bs).rd a bs.length = bs := by
  apply List.ext_getElem
  · exact Dev.rd_length _ _ _
  · intro i h1 h2
    have e := Dev.rd_getD (d.wr a bs) bs.length a i h2
    rw [Dev.mb_wr, if_pos (by omega), Nat.add_sub_cancel_left, List.getD_eq_getElem _ _ h1, List.getD_eq_getElem _ _ h2] at e
    exact e

theorem Store.get_filter {α : Type} {dflt : Nat → α} (q : Nat → Bool) : ∀ (m : Store α) (j : Nat),
    Store.get dflt (m.filter fun c => q c.1) j = if q j then Store.get dflt m j else dflt j
  | [], j => by simp [Store.get]
  | (i, w) :: m, j => by
    rw [List.filter_cons]
    by_cases e : j = i
    · subst e
      cases h : q j
      · simpa [h, Store.get] using Store.get_filter (dflt := dflt) q m j
      · simp [Store.get]
    · cases h : q i
      · simpa [h, Store.get, e] using Store.get_filter (dflt := dflt) q m j
      · simpa [h, Store.get, e] using Store.get_filter (dflt := dflt) q m j

/-- A byte after a range above HBM is zeroed: HBM alone has a veil. -/
theorem Dev.mb_zero (d : Dev) (a n j : Nat) (ha : hbmSize ≤ a) : (d.zero a n).mb j = if a ≤ j ∧ j < a + n then 0 else d.mb j := by
  show Store.get memDefault (d.mem.filter fun c => !(decide (a ≤ c.1) && decide (c.1 < a + n))) j ^^^ d.veil j = _
  rw [Store.get_filter (dflt := memDefault) (fun k => !(decide (a ≤ k) && decide (k < a + n)))]
  by_cases h : a ≤ j ∧ j < a + n
  · have v : d.veil j = 0 := if_pos (.inr (le_trans ha h.1))
    simp [h, memDefault, v]
  · rw [if_neg h, if_pos (by simp; omega)]; rfl

/-- A new veil covers HBM alone: every byte beyond it is as before. -/
theorem Dev.mb_newVeil (d : Dev) (j : Nat) (h : hbmSize ≤ j) : d.newVeil.mb j = d.mb j := by
  show Store.get memDefault (d.mem.filter fun c => decide (hbmSize ≤ c.1)) j ^^^ d.newVeil.veil j = _
  rw [Store.get_filter (dflt := memDefault) (fun k => decide (hbmSize ≤ k)), if_pos (by simpa using h)]
  have v : d.newVeil.veil j = 0 := if_pos (.inr h)
  have w : d.veil j = 0 := if_pos (.inr h)
  simp [Dev.mb, v, w]

/-- A byte of HBM under a new veil is a free value. -/
theorem Dev.mb_newVeil_hbm (d : Dev) (j : Nat) (h : j < hbmSize) : d.newVeil.mb j = Config.hbmByte (d.keel.epoch + 1) j := by
  show Store.get memDefault (d.mem.filter fun c => decide (hbmSize ≤ c.1)) j ^^^ d.newVeil.veil j = _
  rw [Store.get_filter (dflt := memDefault) (fun k => decide (hbmSize ≤ k)), if_neg (by simpa using h)]
  have v : d.newVeil.veil j = Config.hbmByte (d.keel.epoch + 1) j := if_neg (by simp [Dev.newVeil, h])
  simp [v, memDefault]

/-! ## The canonical form -/

theorem Dev.newVeil_wf (d : Dev) (h : Memory.wf d.mem = true) : Memory.wf d.newVeil.mem = true := Store.filter_wf _ d.mem h

theorem Dev.setMb_wf (d : Dev) (a : Nat) (b : Byte) (h : Memory.wf d.mem = true) : Memory.wf (d.setMb a b).mem = true := Store.put_wf d.mem a _ h

theorem Dev.wr_wf (d : Dev) (a : Nat) (bs : List Byte) (h : Memory.wf d.mem = true) : Memory.wf (d.wr a bs).mem = true := memWrite_wf d.veil bs d.mem a h

theorem Dev.zero_wf (d : Dev) (a n : Nat) (h : Memory.wf d.mem = true) : Memory.wf (d.zero a n).mem = true := Store.filter_wf _ d.mem h

theorem Dev.setReg_wf (d : Dev) (k : Nat) (w : Word) (h : Store.wf resetWord d.regs = true) : Store.wf resetWord (d.setReg k w).regs = true :=
  Store.put_wf d.regs k w h

theorem reset_wf : Memory.wf State.reset.dev.mem = true := rfl

end Sys2Proof.Machine
end

