-- ==== Sys2Proof/Laws/Registers.lean ====
section
/-! SUPPORT. Register fields: a field just written reads as written, every other field as before; what raising an event, counting an error and
making a record leave unchanged. -/

namespace Sys2Proof.Machine

/-- A field lies within a 64-bit register. -/
abbrev Fld.Ok (f : Fld) : Prop := f.lo ≤ f.hi ∧ f.hi < 64

/-- Two fields share no bit. -/
abbrev Fld.Apart (f g : Fld) : Prop := f.reg ≠ g.reg ∨ f.hi < g.lo ∨ g.hi < f.lo

theorem Fld.Apart.symm {f g : Fld} (h : f.Apart g) : g.Apart f := by
  rcases h with h | h | h
  · exact .inl (Ne.symm h)
  · exact .inr (.inr h)
  · exact .inr (.inl h)

/-- Width of a field. -/
def Fld.width (f : Fld) : Nat := f.hi + 1 - f.lo

theorem Fld.of_lt (f : Fld) (w : Word) : f.of w < 2 ^ f.width := Nat.mod_lt _ (Nat.two_pow_pos _)

theorem Fld.into_toNat (f : Fld) (h : f.Ok) (w : Word) (v : Nat) :
    (f.into w v).toNat = w.toNat % 2 ^ f.lo + 2 ^ f.lo * (v % 2 ^ f.width + 2 ^ f.width * (w.toNat / 2 ^ (f.hi + 1))) := by
  have e1 : f.hi + 1 = f.lo + f.width := by have := h.1; unfold Fld.width; omega
  have hs : w.toNat = w.toNat % 2 ^ f.lo + 2 ^ f.lo * (f.of w + 2 ^ f.width * (w.toNat / 2 ^ (f.hi + 1))) := by
    rw [e1, Nat.pow_add, ← Nat.div_div_eq_div_mul]
    have a := Nat.mod_add_div w.toNat (2 ^ f.lo)
    have b := Nat.mod_add_div (w.toNat / 2 ^ f.lo) (2 ^ f.width)
    have c : f.of w = w.toNat / 2 ^ f.lo % 2 ^ f.width := rfl
    rw [c, b, a]
  have hv : v % 2 ^ f.width < 2 ^ f.width := Nat.mod_lt _ (Nat.two_pow_pos _)
  have hl : w.toNat % 2 ^ f.lo < 2 ^ f.lo := Nat.mod_lt _ (Nat.two_pow_pos _)
  have hq : w.toNat / 2 ^ (f.hi + 1) < 2 ^ (64 - (f.hi + 1)) := by
    rw [Nat.div_lt_iff_lt_mul (Nat.two_pow_pos _), ← Nat.pow_add]
    have : 64 - (f.hi + 1) + (f.hi + 1) = 64 := by have := h.2; omega
    rw [this]; exact w.isLt
  have e2 : (2 : Nat) ^ 64 = 2 ^ f.lo * (2 ^ f.width * 2 ^ (64 - (f.hi + 1))) := by
    rw [← Nat.pow_add, ← Nat.pow_add]; congr 1; have := h.1; have := h.2; omega
  generalize hA : w.toNat % 2 ^ f.lo = A at *
  generalize hQ : w.toNat / 2 ^ (f.hi + 1) = Q at *
  generalize hV : v % 2 ^ f.width = V at *
  generalize hM : f.of w = M at *
  generalize hP : 2 ^ f.lo = P at *
  generalize hW : 2 ^ f.width = W at *
  generalize hR : 2 ^ (64 - (f.hi + 1)) = R at *
  have hb : A + P * (V + W * Q) < 2 ^ 64 := by
    have h1 : V + W * Q < W * R := by nlinarith
    rw [e2]; nlinarith
  have : w.toNat - M * P + V * P = A + P * (V + W * Q) := by
    have : M * P ≤ w.toNat := by rw [hs]; nlinarith [Nat.zero_le (P * (W * Q))]
    have h3 : w.toNat = A + (P * (W * Q)) + M * P := by rw [hs]; ring
    rw [h3, Nat.add_sub_cancel]; ring
  have hW' : 2 ^ (f.hi + 1 - f.lo) = W := hW
  unfold Fld.into
  rw [hW', hM, hP, hV, this, BitVec.toNat_ofNat, Nat.mod_eq_of_lt hb]

/-- A field as the low bits above it cut off. -/
theorem Fld.of_eq (f : Fld) (h : f.Ok) (w : Word) : f.of w = w.toNat % 2 ^ (f.hi + 1) / 2 ^ f.lo := by
  have e1 : f.hi + 1 = f.lo + f.width := by have := h.1; unfold Fld.width; omega
  rw [e1, Nat.pow_add, Nat.mod_mul_right_div_self]; rfl

theorem Fld.of_into (f : Fld) (h : f.Ok) (w : Word) (v : Nat) : f.of (f.into w v) = v % 2 ^ f.width := by
  show (f.into w v).toNat / 2 ^ f.lo % 2 ^ f.width = _
  rw [f.into_toNat h, Nat.add_mul_div_left _ _ (Nat.two_pow_pos _), Nat.div_eq_of_lt (Nat.mod_lt _ (Nat.two_pow_pos _)), Nat.zero_add,
    Nat.add_mul_mod_self_left, Nat.mod_mod]

theorem Fld.of_into_apart (f g : Fld) (hf : f.Ok) (hg : g.Ok) (h : f.hi < g.lo ∨ g.hi < f.lo) (w : Word) (v : Nat) :
    f.of (g.into w v) = f.of w := by
  rcases h with h | h
  · rw [f.of_eq hf, f.of_eq hf]
    congr 1
    have d : 2 ^ (f.hi + 1) ∣ 2 ^ g.lo := Nat.pow_dvd_pow 2 (by omega)
    rw [← Nat.mod_mod_of_dvd _ d, ← Nat.mod_mod_of_dvd w.toNat d]
    congr 1
    rw [g.into_toNat hg, Nat.add_mul_mod_self_left, Nat.mod_mod]
  · have e1 : g.hi + 1 = g.lo + g.width := by have := hg.1; unfold Fld.width; omega
    have key : (g.into w v).toNat / 2 ^ (g.hi + 1) = w.toNat / 2 ^ (g.hi + 1) := by
      rw [g.into_toNat hg]
      generalize w.toNat / 2 ^ (g.hi + 1) = Q
      rw [e1, Nat.pow_add, ← Nat.div_div_eq_div_mul, Nat.add_mul_div_left _ _ (Nat.two_pow_pos _),
        Nat.div_eq_of_lt (Nat.mod_lt _ (Nat.two_pow_pos _)), Nat.zero_add, Nat.add_mul_div_left _ _ (Nat.two_pow_pos _),
        Nat.div_eq_of_lt (Nat.mod_lt _ (Nat.two_pow_pos _)), Nat.zero_add]
    have e2 : f.lo = (g.hi + 1) + (f.lo - (g.hi + 1)) := by omega
    show (g.into w v).toNat / 2 ^ f.lo % 2 ^ f.width = w.toNat / 2 ^ f.lo % 2 ^ f.width
    rw [e2, Nat.pow_add, ← Nat.div_div_eq_div_mul, ← Nat.div_div_eq_div_mul, key]

/-! ## Registers of the device -/

theorem Dev.reg_setReg (d : Dev) (k j : Nat) (w : Word) : (d.setReg k w).reg j = if j = k then w else d.reg j :=
  Store.get_put d.regs k w j

theorem Dev.reg_setFld_ne (d : Dev) (f : Fld) (v k : Nat) (h : k ≠ f.reg) : (d.setFld f v).reg k = d.reg k := by
  unfold Dev.setFld; rw [Dev.reg_setReg, if_neg h]

/-- A field just written reads as written. -/
theorem Dev.fld_setFld (d : Dev) (f : Fld) (h : f.Ok) (v : Nat) : (d.setFld f v).fld f = v % 2 ^ f.width := by
  unfold Dev.setFld Dev.fld; rw [Dev.reg_setReg, if_pos rfl]; exact f.of_into h _ _

/-- A field that shares no bit with the one written reads as before. -/
theorem Dev.fld_setFld_apart (d : Dev) (f g : Fld) (hf : f.Ok) (hg : g.Ok) (h : f.Apart g) (v : Nat) : (d.setFld g v).fld f = d.fld f := by
  unfold Dev.setFld Dev.fld
  rw [Dev.reg_setReg]
  split
  · rename_i e; rw [← e]; exact f.of_into_apart g hf hg (h.resolve_left fun n => n e) _ _
  · rfl

/-- A field of another register reads as before. -/
theorem Dev.fld_setFld_reg (d : Dev) (f g : Fld) (h : f.reg ≠ g.reg) (v : Nat) : (d.setFld g v).fld f = d.fld f := by
  unfold Dev.fld; rw [Dev.reg_setFld_ne _ _ _ _ h]

/-! ## What raising, recording and counting leave alone -/

/-- The queue of events and three fields of telemetry are all a record touches. -/
theorem Dev.fld_record (d : Dev) (g : Fld) (u c : Nat) (f : Fld) (hf : f.Ok) (h1 : f.Apart F.TEL_ERR_COUNT_DROPS)
    (h2 : f.Apart F.TEL_EVENT_EVQ_DROP) (h3 : f.Apart F.TEL_EVENT_COUNT_SAT) : (d.record g u c).fld f = d.fld f := by
  have o1 : F.TEL_ERR_COUNT_DROPS.Ok := by decide
  have o2 : F.TEL_EVENT_EVQ_DROP.Ok := by decide
  have o3 : F.TEL_EVENT_COUNT_SAT.Ok := by decide
  have hs : (d.satStep F.TEL_ERR_COUNT_DROPS).fld f = d.fld f := by
    unfold Dev.satStep; split
    · rfl
    · exact d.fld_setFld_apart _ _ hf o1 h1 _
  unfold Dev.record
  split
  · rfl
  · dsimp only
    split
    · show ((((d.satStep F.TEL_ERR_COUNT_DROPS).setFld F.TEL_EVENT_EVQ_DROP 1).setFld F.TEL_EVENT_COUNT_SAT 1)).fld f = _
      rw [Dev.fld_setFld_apart _ _ _ hf o3 h3, Dev.fld_setFld_apart _ _ _ hf o2 h2, hs]
    · show ((d.satStep F.TEL_ERR_COUNT_DROPS).setFld F.TEL_EVENT_EVQ_DROP 1).fld f = _
      rw [Dev.fld_setFld_apart _ _ _ hf o2 h2, hs]

/-- A field outside the block of telemetry. -/
abbrev Fld.Plain (f : Fld) : Prop :=
  f.Ok ∧ f.Apart F.TEL_ERR_COUNT_DROPS ∧ f.Apart F.TEL_EVENT_EVQ_DROP ∧ f.Apart F.TEL_EVENT_COUNT_SAT

/-- Raising an event leaves every other field alone. -/
theorem Dev.fld_raise (d : Dev) (g : Fld) (u c : Nat) (f : Fld) (hf : f.Plain) (hg : g.Ok) (h : f.Apart g) :
    (d.raise g u c).fld f = d.fld f := by
  unfold Dev.raise
  split
  · rfl
  · rw [Dev.fld_record _ _ _ _ _ hf.1 hf.2.1 hf.2.2.1 hf.2.2.2, Dev.fld_setFld_apart _ _ _ hf.1 hg h]

/-- An event raised is set. -/
theorem Dev.fld_raise_self (d : Dev) (g : Fld) (u c : Nat) (hg : g.Plain) (w : g.hi = g.lo) : (d.raise g u c).fld g = 1 := by
  unfold Dev.raise
  split
  · rename_i h; simpa [Dev.bit] using h
  · rw [Dev.fld_record _ _ _ _ _ hg.1 hg.2.1 hg.2.2.1 hg.2.2.2, Dev.fld_setFld _ _ hg.1]
    simp [Fld.width, w]

/-- An event raised that was clear is recorded, at the tail of a queue that is not full. -/
theorem Dev.evq_raise (d : Dev) (g : Fld) (u c : Nat) (h : d.fld g ≠ 1) (q : d.tel.evq.length < 1024) :
    (d.raise g u c).tel.evq = d.tel.evq ++
      [(evqHi ((d.setFld g 1).fld F.TCK_NUMBER_NUMBER) c (g.reg / 0x10000) g.lo u, BitVec.ofNat 64 d.tai)] := by
  have hb : d.bit g = false := by simpa [Dev.bit] using h
  simp only [Dev.raise, hb, Bool.false_eq_true, if_false, Dev.record, show (d.setFld g 1).tel = d.tel from rfl, q, if_true]
  rfl

theorem Dev.fld_satStep (d : Dev) (g f : Fld) (hf : f.Ok) (hg : g.Ok) (h : f.Apart g) : (d.satStep g).fld f = d.fld f := by
  unfold Dev.satStep; split
  · rfl
  · exact d.fld_setFld_apart _ _ hf hg h _

/-- Counting an error leaves every field but the counter and its COUNT_SAT alone. -/
theorem Dev.fld_countErr (d : Dev) (g sat : Fld) (u : Nat) (f : Fld) (hf : f.Plain) (hg : g.Ok) (hs : sat.Ok) (h : f.Apart g) (h2 : f.Apart sat) :
    (d.countErr g sat u).fld f = d.fld f := by
  unfold Dev.countErr
  split
  · dsimp only
    rw [Dev.fld_raise _ _ _ _ _ hf hs h2]
    exact d.fld_satStep g f hf.1 hg h
  · exact d.fld_satStep g f hf.1 hg h

/-- A 32-bit counter that is not at its end gains 1. -/
theorem Dev.fld_countErr_self (d : Dev) (g sat : Fld) (u : Nat) (hg : g.Plain) (hs : sat.Ok) (h : g.Apart sat) (w : g.hi = g.lo + 31)
    (n : d.fld g < 2 ^ 32 - 1) : (d.countErr g sat u).fld g = d.fld g + 1 := by
  have e : (d.satStep g).fld g = d.fld g + 1 := by
    unfold Dev.satStep
    rw [if_neg (by omega), Dev.fld_setFld _ _ hg.1]
    have : g.width = 32 := by unfold Fld.width; omega
    rw [this, Nat.mod_eq_of_lt (by omega)]
  unfold Dev.countErr
  split
  · dsimp only
    rw [Dev.fld_raise _ _ _ _ _ hg hs h]
    exact e
  · exact e

/-- Adding to a counter leaves every other field alone. -/
theorem Dev.fld_count (d : Dev) (g f : Fld) (n : Nat) (hf : f.Ok) (hg : g.Ok) (h : f.Apart g) : (d.count g n).fld f = d.fld f :=
  d.fld_setFld_apart f g hf hg h _

end Sys2Proof.Machine
end

