-- ==== Sys2Proof/Laws/Slots.lean ====
section
/-! SUPPORT. Issue of slot instructions, said once: what each outcome of the issue checks is. -/

namespace Sys2Proof.Machine

theorem SlotIssues.perform {d : Dev} {n slot : Nat} {i : Instr} {h : Head} {m : IssueMode} (r : SlotIssues d n slot i h m) (body : Dev → SlotAct) :
    d.slotIssue n slot i h m false body = d.slotPerform n slot i body := by
  have hs : (h.set && !d.split n) = false := by
    cases e : h.set
    · rfl
    · simp [r.set e]
  have hp : (m != .free && (d.core n).badRegs.contains (32 + h.p.toNat)) = false := by
    rcases r.pred with e | e
    · simp [e]
    · rw [e, Bool.and_false]
  have hw : (!(d.core n).begun && d.mustWait n) = false := by
    rcases r.begins with e | e <;> simp [e]
  unfold Dev.slotIssue
  simp only [r.noEngine, r.issuing, r.noAcq, r.bundle, hw, r.word, r.acts, hs, r.clean, hp, Option.isSome_none, Bool.or_self, Bool.false_eq_true,
    Bool.true_eq_false, if_false]

/-- A slot instruction that nothing keeps from issuing does what its body says. -/
theorem Dev.slotIssue_ready {d : Dev} {n slot : Nat} {i : Instr} {h : Head} {m : IssueMode} (r : SlotReady d n slot i h m)
    (body : Dev → SlotAct) :
    d.slotIssue n slot i h m false body =
      match body d with
      | .go d' => d'.afterSlot n slot
      | .wait k => d.stallFor n k
      | .hold d' k => d'.stallFor n k := by
  have q : ¬(d.coreState n = 3 ∧ slot ≠ 0) := fun e => r.inStep.elim e.2 (fun w => w e.1)
  rw [r.issues.perform]
  unfold Dev.slotPerform
  simp only [r.issues.score, q, Bool.false_eq_true, if_false] <;> cases body d <;> rfl

theorem Dev.slotIssue_go {d d' : Dev} {n slot : Nat} {i : Instr} {h : Head} {m : IssueMode} (r : SlotReady d n slot i h m)
    {body : Dev → SlotAct} (e : body d = .go d') : d.slotIssue n slot i h m false body = d'.afterSlot n slot := by
  rw [Dev.slotIssue_ready r, e]

/-- Running free, an instruction of a slot other than S enters its engine's queue (R199). -/
theorem Dev.slotIssue_queued {d : Dev} {n slot : Nat} {i : Instr} {h : Head} (r : SlotQueues d n slot i h) (k : slot ≠ 0) (body : Dev → SlotAct) :
    d.slotIssue n slot i h .normal false body = (d.modCore n fun c => c.enqueue slot i).afterSlot n slot := by
  rw [r.issues.perform]
  unfold Dev.slotPerform
  simp only [r.issues.score, r.free, k, ne_eq, not_false_eq_true, and_self, if_true, Nat.not_le.mpr r.room, Bool.false_eq_true, if_false]

/-- A core that takes no slot instruction is left as it is. -/
theorem Dev.slotIssue_idle {d : Dev} {n slot : Nat} {i : Instr} {h : Head} {m : IssueMode} {rsv : Bool} (p : (d.core n).perf = none)
    (e : d.issuing n = false) (body : Dev → SlotAct) : d.slotIssue n slot i h m rsv body = d := by
  unfold Dev.slotIssue; simp [p, e]

end Sys2Proof.Machine
end

