-- ==== Sys2Proof/Tests/Slice0.lean ====
section
/-! SUPPORT. Tests: ill-formed terms that WellFormed refuses, words of the spec that decode, and for every statement with hypotheses a state and
operands that meet the hypotheses of each of its clauses. -/

namespace Sys2Proof.Tests

-- Every kernel evaluation waits for the declarations before it: one at a time keeps the threads few.
set_option Elab.async false

open Sys2Proof Sys2Proof.Machine Sys2Proof.Claims

/-! ## Small states -/

/-- A device that runs: out of power-on reset, with its boot ROM started. -/
def live : Dev := { Dev.reset with pwr := { Pwr.reset with die := true, booted := true, refClk := true } }

/-- A running device with some fields set and one more change. -/
def st (l : List (Fld × Nat)) (g : Dev → Dev := id) : State := ⟨[], Persist.reset, g (l.foldl (fun d p => d.setFld p.1 p.2) live)⟩

/-- Core n runs a kernel of job 7 in set 0: 16 pages of scratchpad from page 2 on, four 64 KiB blocks of HBM from block 5 on. -/
def kernel (n : Nat) : List (Fld × Nat) :=
  [(F.SCP_CORE_STATUS_STATE n, 2), (F.SCP_CTX0_VALID n, 1), (F.SCP_CTX0_JOB n, 7), (F.SCP_CTX0_CTX_ID n, 5), (F.SCP_CTX0_SCP_BASE4K n, 2),
   (F.SCP_CTX0_SCP_BOUND4K n, 16), (F.SCP_CTX0_HBM_BASE_BASE n, 5), (F.SCP_CTX0_HBM_BOUND_SIZE n, 4), (F.SCP_PWR_SEG_READY n, 63)]

/-- Core 3 runs such a kernel; `g` changes the core. -/
def k3 (g : CoreSt → CoreSt := id) (l : List (Fld × Nat) := []) : State := st (kernel 3 ++ l) fun d => d.modCore 3 g

/-- INV, P and SET all 0. -/
def hd0 : Head := ⟨false, 0, false⟩

/-- Core 3 takes instructions of a mode: no image is loaded, and nothing is in error or awaited. -/
def quiet (d : Dev) (m : IssueMode) : Bool :=
  let c := d.core 3
  c.perf.isNone && d.issuing 3 && c.acq.isNone && c.badBundles.isEmpty && c.badRegs.isEmpty && c.score.isEmpty && c.images.isEmpty && d.acts 3 hd0 m

/-- Such a core keeps no instruction from issuing. -/
theorem issues_of {d : Dev} {m : IssueMode} (h : quiet d m = true) (slot : Nat) (i : Instr) : SlotIssues d 3 slot i hd0 m := by
  simp only [quiet, Bool.and_eq_true, Option.isNone_iff_eq_none, List.isEmpty_iff] at h
  obtain ⟨⟨⟨⟨⟨⟨⟨h1, h2⟩, h3⟩, h4⟩, h5⟩, h6⟩, h7⟩, h8⟩ := h
  have w : ∀ k, (d.core 3).slotWord k = none := fun k => by unfold CoreSt.slotWord Store.get; rw [h7]; simp
  have z : ∀ k, d.slotInstr 3 k = none := fun k => by unfold Dev.slotInstr; rw [w]
  exact ⟨h1, h2, h3, by simp [CoreSt.bundleBad, h4], Or.inr (by unfold Dev.mustWait; split <;> simp [Dev.bundleWaits, z]),
    by unfold Dev.wordFate; rw [w], h8, nofun, by simp [CoreSt.parityBad, h5], Or.inr (by rw [h5]; rfl), by simp [CoreSt.scoreWaits, h6]⟩

/-- In a scheduled kernel it acts as it issues. -/
theorem ready_of {d : Dev} {m : IssueMode} (h : quiet d m = true) (f : d.coreState 3 ≠ 3) (slot : Nat) (i : Instr) : SlotReady d 3 slot i hd0 m :=
  ⟨issues_of h slot i, Or.inr f⟩

/-- A kernel under way on core 3: instructions of every mode issue. -/
structure Ready3 (d : Dev) : Prop where
  normal : quiet d .normal = true
  branch : quiet d .branch = true
  free : quiet d .free = true
  inStep : d.coreState 3 ≠ 3

theorem Ready3.slot {d : Dev} (h : Ready3 d) (m : IssueMode) (slot : Nat) (i : Instr) : SlotReady d 3 slot i hd0 m :=
  ready_of (by cases m; exacts [h.normal, h.branch, h.free]) h.inStep slot i

theorem ready_k3 : Ready3 (k3).dev := ⟨by decide, by decide, by decide, by decide⟩

/-- An SA instruction with operands d, a, I, b, SUB, IMM. -/
def sa (d a : BitVec 5) (i : Bool) (b : BitVec 5) (sub : BitVec 3) (imm : BitVec 32) : FmtSA := ⟨hd0, d, a, i, b, sub, imm⟩

/-- Registers s1 and s2 hold values, and s31 a bundle of the image of 100. -/
def regs3 : State := k3 fun c => { (((c.setS 1 64).setS 2 0x1122334455667788).setS 31 20) with bundles := 100 }

theorem ready_regs3 : Ready3 regs3.dev := ⟨by decide, by decide, by decide, by decide⟩


/-- A pair whose second part is known. -/
theorem pair_of {α β : Type} {E : α × β} {b : β} (h : E.2 = b) : E = (E.1, b) := by rw [← h]

/-- A 64-bit word with one field set. -/
def wordOf (f : Fld) (v : Nat) : Word := f.into 0 v

/-- Every stack is ready. -/
def allReady : List (Fld × Nat) := (List.range 12).map fun k => (F.KEL_STATUS_STATE k, 2)

/-- A request of source 6, core 3's set 0, that waits alone. -/
def req1 (a : Nat) (op : ReqOp) (tag : Nat := 7) : Req := ⟨9, 6, tag, a, op, some 5, false, [], [], false, false, 0, 0, 0, false⟩
def waits (r : Req) (d : Dev) : Dev := { d with home := { d.home with reqs := [r] } }

/-- A job that holds a context is on the device. -/
theorem jobs_of (d : Dev) (c t : Nat) (hc : c < 2048) (h : (d.fld (F.STR_CTX_STATE c) == 1) = true) (e : d.fld (F.STR_CTX_JOB c) = t) :
    d.jobs.contains t = true := by
  unfold Dev.jobs
  rw [List.contains_iff_mem, List.mem_eraseDups, List.mem_map]
  exact ⟨c, List.mem_filter.mpr ⟨List.mem_range.mpr hc, h⟩, e⟩

/-! ## S slot -/

theorem test_ScalarArithmeticResults_met :
    (∃ (s : State) (n : CoreId) (f : FmtSA), s.live = true ∧ SaPlain f ∧ f.sub = 0 ∧ (∀ i, SlotReady s.dev n 0 i f.hd .normal) ∧
      s.dev.core n ≠ CoreSt.reset) ∧
    (∃ (s : State) (n : CoreId) (f : FmtSA), s.live = true ∧ f.i = true ∧ f.b = 0 ∧ f.sub = 0 ∧ ∀ i, SlotReady s.dev n 0 i f.hd .normal) :=
  ⟨⟨regs3, 3, sa 4 1 false 2 0 0, by decide, by unfold SaPlain; decide, rfl, ready_regs3.slot .normal 0, by decide⟩,
   ⟨regs3, 3, sa 4 1 true 0 0 9, by decide, rfl, rfl, rfl, ready_regs3.slot .normal 0⟩⟩

theorem test_ScalarOtherResults_met :
    (∃ (s : State) (n : CoreId) (f : FmtSA), s.live = true ∧ SaPlain f ∧ f.sub = 0 ∧ ∀ i, SlotReady s.dev n 0 i f.hd .normal) ∧
    (∃ (s : State) (n : CoreId) (f : FmtSA), s.live = true ∧ f.i = false ∧ f.b = 0 ∧ f.imm = 0 ∧ f.sub.toNat = 4 ∧
      ∀ i, SlotReady s.dev n 0 i f.hd .normal) ∧
    (∃ (s : State) (n : CoreId) (f : FmtSA), s.live = true ∧ SaPlain f ∧ f.sub.toNat = 4 ∧ f.d.toNat = 7 ∧
      ∀ i, SlotReady s.dev n 0 i f.hd .normal) ∧
    (∃ (s : State) (n : CoreId) (f : FmtSA), s.live = true ∧ SaPlain f ∧ f.sub.toNat = 5 ∧ f.d.toNat = 7 ∧
      ∀ i, SlotReady s.dev n 0 i f.hd .normal) ∧
    (∃ (s : State) (n : CoreId) (f : FmtSA), s.live = true ∧ f.i = false ∧ f.imm = 0 ∧ f.sub.toNat = 3 ∧ f.d.toNat = 7 ∧ f.a.toNat = 7 ∧ f.b.toNat = 7 ∧
      ∀ i, SlotReady s.dev n 0 i f.hd .normal) ∧
    (∃ (s : State) (n : CoreId) (f : FmtSA) (w : Word), s.live = true ∧ f.i = true ∧ f.a = 0 ∧ f.b = 0 ∧ f.sub = 0 ∧
      s.dev.selector n (b2n f.hd.set) f.imm.toNat = some w ∧ ∀ i, SlotReady s.dev n 0 i f.hd .normal) ∧
    (∃ (s : State) (n : CoreId) (f : FmtS0), s.live = true ∧ f = ⟨⟨false, 0, false⟩, 0⟩ ∧ ∀ i, SlotReady s.dev n 0 i f.hd .normal) :=
  ⟨⟨regs3, 3, sa 4 1 false 2 0 0, by decide, by unfold SaPlain; decide, rfl, ready_regs3.slot .normal 0⟩,
   ⟨regs3, 3, sa 4 1 false 0 4 0, by decide, rfl, rfl, rfl, by decide, ready_regs3.slot .normal 0⟩,
   ⟨regs3, 3, sa 7 1 true 0 4 0xFFFFFFFF, by decide, by unfold SaPlain; decide, by decide, by decide, ready_regs3.slot .normal 0⟩,
   ⟨regs3, 3, sa 7 1 true 0 5 0xFFFFFFFF, by decide, by unfold SaPlain; decide, by decide, by decide, ready_regs3.slot .normal 0⟩,
   ⟨regs3, 3, sa 7 7 false 7 3 0, by decide, rfl, rfl, by decide, by decide, by decide, by decide, ready_regs3.slot .normal 0⟩,
   ⟨regs3, 3, sa 4 0 true 0 0 15, 0, by decide, rfl, rfl, rfl, rfl, by decide, ready_regs3.slot .normal 0⟩,
   ⟨regs3, 3, ⟨hd0, 0⟩, by decide, rfl, ready_regs3.slot .normal 0⟩⟩

theorem test_ResultsReachRegisters_met : (CoreSt.reset).pend = [] := rfl

theorem test_ControlResults_met :
    (∃ (s : State) (n : CoreId) (f : FmtSB), s.live = true ∧ f.rsv = 0 ∧ f.hd.set = false ∧ MayBranch (s.dev.core n) f.t.toNat ∧
      ∀ i, SlotReady s.dev n 0 i f.hd .branch) ∧
    (∃ (s : State) (n : CoreId) (f : FmtS0), s.live = true ∧ f.rsv = 0 ∧ f.hd.set = false ∧
      MayBranch (s.dev.core n) (((s.dev.core n).sreg 31).toNat % 2048) ∧ ∀ i, SlotReady s.dev n 0 i f.hd .branch) ∧
    (∃ (s : State) (n : CoreId) (f : FmtSL), s.live = true ∧ f.rsv = 0 ∧ f.hd.set = false ∧ f.reg = false ∧ f.n = 0 ∧ f.cnt ≠ 0 ∧
      (s.dev.core n).branch = none ∧ (s.dev.core n).loops.length = 3 ∧ ∀ i, SlotReady s.dev n 0 i f.hd .free) ∧
    (∃ (s : State) (n : CoreId) (f : FmtSL), s.live = true ∧ f.rsv = 0 ∧ f.hd.set = false ∧ f.reg = true ∧ f.cnt = 0 ∧
      (s.dev.core n).branch = none ∧ (s.dev.core n).loops.length < 4 ∧ ∀ i, SlotReady s.dev n 0 i f.hd .free) ∧
    (∃ (s : State) (n : CoreId) (f : FmtSW), s.live = true ∧ f.rsv = 0 ∧ f.hd.set = false ∧ f.reg = false ∧ f.n = 0 ∧ f.cnt ≠ 0 ∧
      ∀ i, SlotReady s.dev n 0 i f.hd .free) ∧
    (∃ (s : State) (n : CoreId) (f : FmtSW), s.live = true ∧ f.rsv = 0 ∧ f.hd.set = false ∧ f.reg = true ∧ f.cnt = 0 ∧
      ∀ i, SlotReady s.dev n 0 i f.hd .free) ∧
    (∃ (s : State) (n : CoreId) (f : FmtSY), s.live = true ∧ f.rsv = 0 ∧ f.mask = 0 ∧ f.hd.set = false ∧ s.dev.coreState n = 2 ∧
      s.dev.fld F.TCK_SCHED_INDEX < (s.dev.core n).tickSeen ∧ ∀ i, SlotReady s.dev n 0 i f.hd .free) ∧
    (∃ (s : State) (n : CoreId) (f : FmtSY), s.live = true ∧ f.rsv = 0 ∧ f.hd.set = false ∧ f.mask = 7 ∧
      (let c := s.dev.core n
       c.queuedBefore 1 c.no = false ∧ c.queuedBefore 2 c.no = false ∧ c.arrayBefore c.no = false ∧ c.queuedBefore 3 c.no = false ∧
       c.copiesBefore c.no = false) ∧ ∀ i, SlotReady s.dev n 0 i f.hd .free) ∧
    (∃ (s : State) (n : CoreId) (f : FmtS0), s.live = true ∧ f.rsv = 0 ∧ s.dev.writesOut n (s.dev.slotSet n f.hd) (s.dev.core n).no = false ∧
      ∀ i, SlotReady s.dev n 0 i f.hd .normal) ∧
    (∃ (s : State) (n : CoreId) (f : FmtS0), s.live = true ∧ f.rsv = 0 ∧ f.hd.set = false ∧ (s.dev.core n).branch = none ∧
      ∀ i, SlotReady s.dev n 0 i f.hd .free) :=
  ⟨⟨regs3, 3, ⟨hd0, 0, 99⟩, by decide, rfl, rfl, ⟨by decide, by decide, by decide⟩, ready_regs3.slot .branch 0⟩,
   ⟨regs3, 3, ⟨hd0, 0⟩, by decide, rfl, rfl, ⟨by decide, by decide, by decide⟩, ready_regs3.slot .branch 0⟩,
   ⟨k3 fun c => { c with loops := [⟨0, 9, 2, false⟩, ⟨0, 10, 2, false⟩, ⟨0, 11, 2, false⟩] }, 3, ⟨hd0, false, 0, 0, 4, 2⟩, by decide, rfl, rfl, rfl, rfl,
     by decide, by decide, by decide, ready_of (by decide) (by decide) 0⟩,
   ⟨regs3, 3, ⟨hd0, true, 1, 0, 4, 0⟩, by decide, rfl, rfl, rfl, rfl, by decide, by decide, ready_regs3.slot .free 0⟩,
   ⟨regs3, 3, ⟨hd0, false, 0, 0, 5⟩, by decide, rfl, rfl, rfl, rfl, by decide, ready_regs3.slot .free 0⟩,
   ⟨regs3, 3, ⟨hd0, true, 1, 0, 0⟩, by decide, rfl, rfl, rfl, rfl, ready_regs3.slot .free 0⟩,
   ⟨k3 fun c => { c with tickSeen := 1 }, 3, ⟨hd0, 0, 0⟩, by decide, rfl, rfl, rfl, by decide, by decide,
     ready_of (by decide) (by decide) 0⟩,
   ⟨regs3, 3, ⟨hd0, 7, 0⟩, by decide, rfl, rfl, rfl, by decide, ready_regs3.slot .free 0⟩,
   ⟨regs3, 3, ⟨hd0, 0⟩, by decide, rfl, by decide, ready_regs3.slot .normal 0⟩,
   ⟨regs3, 3, ⟨hd0, 0⟩, by decide, rfl, rfl, by decide, ready_regs3.slot .free 0⟩⟩

/-! ## Scalar memory -/

/-- SLD, SST and the flags: space, UPD 0, data register d, base b, width code w, displacement. -/
def sm (space : BitVec 2) (d b : BitVec 5) (w : BitVec 2) (disp : BitVec 24) : FmtSM := ⟨hd0, space, 0, d, b, 0, 0, w, false, 0, disp⟩

/-- An atomic of 8 bytes. -/
def sx (space : BitVec 2) (d b v c : BitVec 5) : FmtSX := ⟨hd0, space, 0, d, b, v, c, true, false, 0⟩

/-- The last 8 bytes of the scratchpad bound, at its lowest and its highest address. -/
theorem test_AccessPlaces_met :
    LocalAt regs3.dev 3 0 0 8 8 8192 ∧ LocalAt regs3.dev 3 0 65528 8 8 73720 ∧ 4096 * regs3.dev.fld (ctxBound4k 0 3) < 65536 + 8 ∧
    262136 + 8 ≤ 65536 * regs3.dev.fld (ctxHbmBound 0 3) ∧ 65536 * regs3.dev.fld (ctxHbmBound 0 3) < 262144 + 8 ∧
    (let own := regs3.dev.slotNo * 2 ^ 44 + scpWin 3
     (own + 0xFFFFF8) % 8 = 0 ∧ own + 0x600000 < own + 0xFFFFF8 + 8 ∧ own + 0xFFFFF8 + 8 ≤ own + 0x1000000 ∧ (own + 0x5FFFF8) % 8 = 0 ∧
     regs3.dev.segsReady 3 (own + 0x5FFFF8 - own) 8 = true ∧ (own + 0x1000000) % 8 = 0 ∧ (own - 8) % 8 = 0 ∧ own - 8 < own) :=
  ⟨⟨by decide, by decide, by decide, by decide, by decide, by unfold Clean; decide⟩,
   ⟨by decide, by decide, by decide, by decide, by decide, by unfold Clean; decide⟩,
   by decide, by decide, by decide, by decide⟩

theorem test_ScalarLocalAccesses_met :
    (∃ (s : State) (n : CoreId) (f : FmtSM) (p : Nat), s.live = true ∧ SmPlain f ∧ 2 ≤ f.w.toNat ∧
      (∀ read, HereAt s.dev n (s.dev.slotSet n f.hd) f.space.toNat (smEa (s.dev.core n) f).toNat (2 ^ f.w.toNat) p read) ∧
      (let c := s.dev.core n
       s.dev.relNeeds n (s.dev.slotSet n f.hd) c.no = ([], []) ∧ c.enginesPast (s.dev.split n) (s.dev.slotSet n f.hd) c.no = true) ∧
      ∀ i, SlotReady s.dev n 0 i f.hd .normal) :=
  ⟨regs3, 3, sm 0 2 1 3 8, 8264, by decide, by unfold SmPlain; decide, by decide,
   fun r => ⟨by cases r <;> decide, by decide, by decide, by unfold Clean; decide, by unfold Clean; decide⟩, by decide, ready_regs3.slot .normal 0⟩

theorem test_ScalarRemoteAccesses_met :
    (∃ (s : State) (n : CoreId) (f : FmtSM) (g : Nat), s.live = true ∧ SmPlain f ∧ 2 ≤ f.w.toNat ∧
      (∀ read, ThereAt s.dev n (s.dev.slotSet n f.hd) f.space.toNat (smEa (s.dev.core n) f).toNat (2 ^ f.w.toNat) g read) ∧
      (s.dev.core n).scHit g (2 ^ f.w.toNat) = none ∧ (s.dev.core n).scBad.contains (g / 64) = false ∧
      ∀ i, SlotReady s.dev n 0 i f.hd .normal) ∧
    (∃ (s : State) (n : CoreId) (f : FmtSM) (g : Nat) (bs : List Byte), s.live = true ∧ f.space ≠ 3 ∧ f.upd ≠ 3 ∧ f.cond = 0 ∧
      ThereAt s.dev n (s.dev.slotSet n f.hd) f.space.toNat (smEa (s.dev.core n) f).toNat (2 ^ f.w.toNat) g true ∧
      (s.dev.core n).scHit g (2 ^ f.w.toNat) = some bs ∧ ∀ i, SlotReady s.dev n 0 i f.hd .normal) :=
  ⟨⟨regs3, 3, sm 1 2 1 3 8, 327752, by decide, by unfold SmPlain; decide, by decide, fun r => ⟨by cases r <;> decide, by decide, by decide⟩, by decide, by decide,
     ready_regs3.slot .normal 0⟩,
   ⟨k3 fun c => { c with sc := [(5120, List.replicate 64 7)] }, 3, sm 1 2 0 2 0, 327680, [7, 7, 7, 7], by decide, by decide, by decide, rfl, ⟨by decide, by decide, by decide⟩, by decide,
     ready_of (by decide) (by decide) 0⟩⟩

theorem test_AtomicResults_met :
    (∃ (s : State) (n : CoreId) (f : FmtSX) (p : Nat), s.live = true ∧ (∀ aop, SxPlain aop f) ∧ HereAt s.dev n (s.dev.slotSet n f.hd) f.space.toNat (sxEa (s.dev.core n) f).toNat (sxBytes f) p true ∧
      ∀ i, SlotReady s.dev n 0 i f.hd .normal) ∧
    (∃ (s : State) (n : CoreId) (f : FmtSX) (g : Nat), s.live = true ∧ (∀ aop, SxPlain aop f) ∧
      ThereAt s.dev n (s.dev.slotSet n f.hd) f.space.toNat (sxEa (s.dev.core n) f).toNat (sxBytes f) g true ∧
      ∀ i, SlotReady s.dev n 0 i f.hd .normal) :=
  ⟨⟨regs3, 3, sx 0 4 1 2 3, 8256, by decide, fun _ => ⟨by decide, by decide, nofun⟩,
     ⟨by decide, by decide, by decide, by unfold Clean; decide, by unfold Clean; decide⟩,
     ready_regs3.slot .normal 0⟩,
   ⟨regs3, 3, sx 1 0 1 2 3, 327744, by decide, fun _ => ⟨by decide, by decide, nofun⟩, ⟨by decide, by decide, by decide⟩, ready_regs3.slot .normal 0⟩⟩

/-! ## V slot -/

/-- A lane instruction of 8 beats. -/
def va (d a b c : BitVec 6) (fmt fmt2 : BitVec 4) (sub : BitVec 3) : FmtVA := ⟨hd0, 7, d, a, b, c, fmt, fmt2, false, false, false, sub, 0⟩

/-- The field checks of a lane instruction pass, by the format and by the operands it uses. -/
theorem test_VectorLaneResults_met :
    (∃ (s : State) (n : CoreId), s.live = true ∧
      (∀ fmt ∈ [7, 8, 9, 10], vaRsv (va 6 2 4 0 fmt 0 0) [7, 8, 9, 10] true true false false = false ∧
        vaRsv (va 6 2 4 5 fmt 0 0) [7, 8, 9, 10] true true true false = false ∧ vaRsv (va 6 2 0 0 fmt 0 0) [7, 8, 9, 10] true false false false = false ∧
        vaRsv (va 6 2 4 0 fmt 0 5) [7, 8, 9, 10] true true false true = false) ∧
      (∀ fmt ∈ [7, 8, 9], vaRsv (va 6 2 4 0 fmt 0 0) [7, 8, 9] true true false false = false ∧
        vaRsv (va 6 2 0 0 fmt 0 0) [7, 8, 9] true false false false = false) ∧
      vaRsv (va 6 2 4 0 10 0 0) [10] true true false false = false ∧
      ∀ i, SlotReady s.dev n 1 i hd0 .normal) :=
  ⟨regs3, 3, by decide, by decide, by decide, by decide, ready_regs3.slot .normal 1⟩

theorem test_VectorTranscendentals_met :
    (∃ (s : State) (n : CoreId) (f : FmtVA), s.live = true ∧ vaRsv f [7, 8, 9] true false false false = false ∧
      ∀ i, SlotReady s.dev n 1 i f.hd .normal) :=
  ⟨regs3, 3, va 6 2 0 0 9 0 0, by decide, by decide, ready_regs3.slot .normal 1⟩

theorem test_VectorMoves_met :
    (∃ (s : State) (n : CoreId), s.live = true ∧ (∀ i, SlotReady s.dev n 1 i hd0 .normal) ∧ (s.dev.core n).drainsWait = false) ∧
    (let f := va 6 2 0 0 7 9 0; vcvtRsv { f with beats := 3 } = false ∧ elemBits f.fmt.toNat ≤ elemBits f.fmt2.toNat ∧ isMX f.fmt.toNat = false) ∧
    (let f := va 6 2 0 0 9 0 0; vcvtRsv f = false ∧ elemBits f.fmt2.toNat < elemBits f.fmt.toNat) ∧
    (let f := va 6 2 0 0 9 0 2; vaRsv f [7, 8, 9, 10] true false false true = false ∧ f.sub.toNat = 2) ∧
    (let f := va 6 31 0 0 9 0 0; vaRsv f [7, 8, 9, 10] true false false false = false ∧ f.a.toNat < 32) ∧
    (∀ fmt ∈ [7, 9], let f : FmtVA := { va 31 2 0 0 fmt 0 0 with beats := 0, lane := if fmt = 9 then 511 else 1023 }
      vaRsv { f with lane := 0 } [7, 8, 9, 10] true false false false = false ∧ f.d.toNat < 32 ∧ (f.fmt = 9 ∨ f.fmt = 10 → f.lane.toNat < 512)) :=
  ⟨⟨regs3, 3, by decide, ready_regs3.slot .normal 1, by decide⟩, by decide, by decide, by decide, by decide, by decide⟩

/-- VLD and VST of one beat from s1, and VLDACC and VSTACC of two beats from row s1 + 1983. -/
def vm1 : FmtVM := ⟨hd0, 0, 2, 0, 0, 1, 0, 0, 64⟩
def vc1 : FmtVC := ⟨hd0, 1, 2, 1, 1983, 0⟩

theorem test_VectorMemory_met :
    (∃ (s : State) (n : CoreId) (f : FmtVM) (p : Nat), s.live = true ∧ f.rsv = 0 ∧ f.upd ≠ 3 ∧ s.dev.bit (F.SCP_CORE_CTRL_SLOT_FAULT n) = false ∧
      LocalAt s.dev n (s.dev.slotSet n f.hd) (vmEa (s.dev.core n) f) (256 * (f.beats.toNat + 1)) 128 p ∧ ∀ i, SlotReady s.dev n 1 i f.hd .normal) ∧
    (∃ (s : State) (n : CoreId) (f : FmtVC), s.live = true ∧ vcRsv (s.dev.split n) f = false ∧ s.dev.rowsWait n f = false ∧
      s.dev.accZeroing n (b2n f.hd.set) = false ∧
      (∀ i < vcRows (s.dev.split n) f, (s.dev.core n).accBad (s.dev.split n) (b2n f.hd.set) ((vcRow (s.dev.core n) f + i) % 2048) = []) ∧
      ∀ i, SlotReady s.dev n 1 i f.hd .normal) ∧
    (∃ d : Dev, ∃ q : VLate, (∃ r, q.reg = some r) ∧ Clean (d.feed 3 ((d.core 3).cycle + q.wait)) 3 q.phys q.len) ∧
    (∃ (c : CoreSt) (k : Nat), (∀ b t, c.accTaken false b t = false) ∧ 0 < k ∧ k ≤ 8192) :=
  ⟨⟨regs3, 3, vm1, 8320, by decide, rfl, by decide, by decide, ⟨by decide, by decide, by decide, by decide, by decide, by unfold Clean; decide⟩,
     ready_regs3.slot .normal 1⟩,
   ⟨regs3, 3, vc1, by decide, by decide, by decide, by decide, by decide, ready_regs3.slot .normal 1⟩,
   ⟨regs3.dev, ⟨some 0, [], 8320, 256, 64, 0, 2⟩, ⟨0, rfl⟩, by unfold Clean; decide⟩, ⟨CoreSt.reset, 8, fun _ _ => rfl, by decide, by decide⟩⟩

/-! ## M and D slots -/

/-- Operands of M and D slots: s1 to s5 hold 128, 2, 5, 4096 and 1; g changes the core further. -/
def md3 (g : CoreSt → CoreSt := id) (l : List (Fld × Nat) := []) : State :=
  k3 (fun c => g { (((((c.setS 1 128).setS 2 2).setS 3 5).setS 4 4096).setS 5 64) with bundles := 100 }) l

theorem ready_md3 : Ready3 (md3 id [(F.STR_CTX_QUOTA 5, 4)]).dev := ⟨by decide, by decide, by decide, by decide⟩

/-- An MSTREAM from s1, rows s2 and first result row s3. -/
def ms1 : FmtMS := ⟨hd0, false, 1, 0, 0, 0, 6, 2, 3, 1, 0⟩

theorem test_MatrixAcceptance_met :
    (∃ (s : State) (n : CoreId) (f : FmtMS), s.live = true ∧ f.fmt.toNat ≤ 8 ∧ f.upd ≠ 3 ∧ f.stride ≠ 0 ∧
      (∀ i, SlotReady s.dev n 2 i f.hd .normal) ∧
      (effAddr ((s.dev.core n).sreg f.b.toNat) ((s.dev.core n).sreg f.x.toNat) f.sh.toNat f.upd.toNat f.disp.toInt).toNat % 128 = 0 ∧
      0 < ((s.dev.core n).sreg f.m.toNat).toNat % 65536 ∧ ((s.dev.core n).unit (b2n f.hd.set)).aq.length < 2) ∧
    (∃ (s : State) (n : CoreId) (f : FmtML), s.live = true ∧ f.fmt.toNat = 8 ∧ f.upd ≠ 3 ∧ (∀ i, SlotReady s.dev n 2 i f.hd .normal) ∧
      (effAddr ((s.dev.core n).sreg f.b.toNat) ((s.dev.core n).sreg f.x.toNat) f.sh.toNat f.upd.toNat f.disp.toInt).toNat % 128 = 0 ∧
      ((s.dev.core n).unit (b2n f.hd.set)).aq.length < 2) ∧
    (∃ (s : State) (n : CoreId) (f : FmtMO), s.live = true ∧ f.fmta.toNat ≤ 8 ∧ f.fmtb.toNat ≤ 8 ∧ f.stride ≠ 0 ∧ f.rsv = 0 ∧
      (∀ i, SlotReady s.dev n 2 i f.hd .normal) ∧ ((s.dev.core n).sreg f.a.toNat).toNat % 128 = 0 ∧
      ((s.dev.core n).sreg f.b.toNat).toNat % 128 = 0 ∧ 0 < ((s.dev.core n).sreg f.k.toNat).toNat % 65536 ∧
      ((s.dev.core n).unit (b2n f.hd.set)).aq.length < 2) ∧
    (∃ (s : State) (n : CoreId) (f : FmtMR), s.live = true ∧ f.ofmt.toNat = 9 ∧ f.stride ≠ 0 ∧
      (∀ i, SlotReady s.dev n 2 i f.hd .normal) ∧
      ((s.dev.core n).sreg f.b.toNat + BitVec.ofInt 64 f.disp.toInt).toNat % 128 = 0 ∧ 0 < ((s.dev.core n).sreg f.n.toNat).toNat % 4096 ∧
      ((s.dev.core n).unit (b2n f.hd.set)).dq.length < 3) ∧
    (∃ (s : State) (n : CoreId) (f : FmtS0), s.live = true ∧ f = ⟨⟨false, 0, false⟩, 0⟩ ∧ ∀ i, SlotReady s.dev n 2 i f.hd .normal) :=
  ⟨⟨_, 3, ms1, by decide, by decide, by decide, by decide, ready_md3.slot .normal 2, by decide, by decide, by decide⟩,
   ⟨_, 3, ⟨hd0, false, 1, 0, 0, 0, 8, 127, 127, 0x1FF80⟩, by decide, by decide, by decide, ready_md3.slot .normal 2, by decide, by decide⟩,
   ⟨_, 3, ⟨hd0, false, 1, 4, 8, 8, 2, 3, 1, 0⟩, by decide, by decide, by decide, by decide, rfl, ready_md3.slot .normal 2, by decide, by decide, by decide,
     by decide⟩,
   ⟨_, 3, ⟨hd0, false, 1, 3, 2, 9, false, 1, 0xFFFF80⟩, by decide, by decide, by decide, ready_md3.slot .normal 2, by decide, by decide, by decide⟩,
   ⟨_, 3, ⟨hd0, 0⟩, by decide, rfl, ready_md3.slot .normal 2⟩⟩

/-- An MLOAD and a stream of one row, whose rows have been read; a stream of twenty rows; a drain of one row; a tile of one row. -/
def load1 : ArrOp := ⟨1, false, 0, false, 128, 0, 0, 0, false, 1, 128, 1, 0, 0, 0, 1, 0⟩
def stream1 : ArrOp := ⟨2, false, 0, false, 128, 0, 0, 0, false, 128, 128, 1, 5, 1, 8, 1, 0⟩
def run1 : ArrRun := ⟨stream1, 32, [[]], [], [], [], [[]], [1], [], [], 0, 0, 0, false, none⟩
def loadRun1 : ArrRun := ⟨load1, 32, [[]], [], [], [], [], [1], [], [], 0, 0, 0, false, none⟩
def drain1 : DrainOp := ⟨false, 0, 128, 5, 1, 9, false, false, 4, 1, 0⟩
def tile1 : Tile := ⟨0, false, 1, 128, [List.replicate 128 0], []⟩

/-- Core 3 with some of unit 0. -/
def unit3 (u : ArrUnit) : State := md3 (fun c => c.setUnit 0 u) [(F.MTX_CORE_CTRL_GATE_EN 3, 0)]

theorem test_MatrixWork_met :
    (∃ (s : State) (r0 r : ArrRun), s.live = true ∧ ((s.dev.core 3).unit 0).aq = [r0] ∧ (((s.dev.feed 3 r0.t).core 3).unit 0).aq = [r] ∧
      (((s.dev.feed 3 r0.t).core 3).unit 0).taking = false ∧ r.op.admitted (s.dev.split 3) (((s.dev.feed 3 r0.t).core 3).unit 0).tile = true) ∧
    (∃ (s : State) (r : ArrRun), ((s.dev.core 3).unit 0).ld = some r ∧ r.bad = none ∧ r.waits = [] ∧ r.leaves ≤ 256 ∧
      ((s.dev.core 3).unit 0).par.contains 2 = false) ∧
    (∃ (s : State) (r : ArrRun), let d := s.dev.toResult 3 0 8
      s.live = true ∧ ((d.core 3).unit 0).run = [r] ∧ (d.core 3).freezeDue (r.due r.next) = false ∧
      ((d.core 3).unit 0).drainDue r.op.no ((r.op.row0 + r.next) % 2048) = false ∧ ((d.core 3).unit 0).parityHit r.op = false ∧ r.op.acc = false ∧
      r.op.op ≠ 4 ∧ d.bit (F.MTX_CORE_CTRL_GATE_EN 3) = false) ∧
    (∃ (s : State) (r : ArrRun) (i k : Nat) (ws : List (Nat × Nat)), s.live = true ∧ s.dev.bit (F.MTX_CORE_CTRL_FREEZE_FAULT 3) = false ∧
      (((s.dev.core 3).unit 0).inArray.find? fun r => !r.waits.isEmpty) = some r ∧ r.waits = (i, k) :: ws) ∧
    (∃ (s : State) (r : ArrRun), ((s.dev.core 3).unit 0).run = [r] ∧
      ((s.dev.core 3).unit 0).drainDue r.op.no ((r.op.row0 + r.next) % 2048) = true ∧
      16 < (((s.dev.core 3).unit 0).run.map fun x => x.op.resultRows - x.next).sum) ∧
    (∃ s : State, s.live = true ∧ s.dev.bit (F.MTX_CORE_CTRL_FREEZE_FAULT 3) = false ∧ s.dev.bit F.PWR_STATUS_HOLD = true ∧
      (s.dev.core 3).frozen.2 ≤ s.dev.nowCc) ∧
    (∃ (s : State) (q : DrainOp), s.live = true ∧ ((s.dev.core 3).unit 0).dq = [q] ∧ q.count ≤ 2048 ∧
      ∀ i < q.count, ((s.dev.core 3).unit 0).rowDue q.no ((q.row0 + i) % 2048) = false) :=
  ⟨⟨unit3 { ArrUnit.reset with aq := [run1], tile := some tile1 }, run1, run1, by decide, by decide, by decide, by decide, by decide⟩,
   ⟨unit3 { ArrUnit.reset with ld := some loadRun1 }, loadRun1, by decide, rfl, rfl, by decide, by decide⟩,
   ⟨unit3 { ArrUnit.reset with run := [run1] }, run1, by decide, by decide, by decide, by decide, by decide, rfl, by decide, by decide⟩,
   ⟨unit3 { ArrUnit.reset with run := [{ run1 with waits := [(0, 2)] }] }, { run1 with waits := [(0, 2)] }, 0, 2, [], by decide, by decide, by decide, rfl⟩,
   ⟨unit3 { ArrUnit.reset with run := [{ run1 with op := { stream1 with count := 20, no := 1 } }], dq := [drain1] },
     { run1 with op := { stream1 with count := 20, no := 1 } }, by decide, by decide, by decide⟩,
   ⟨md3 id [(F.PWR_STATUS_HOLD, 1)], by decide, by decide, by decide, by decide⟩,
   ⟨unit3 { ArrUnit.reset with dq := [drain1] }, drain1, by decide, by decide, by decide, by decide⟩⟩

/-- A double-buffered stream channel of job 7, index 4, and its handle. -/
def chan4 : Chan :=
  let t : Template := { Template.none with kind := 1, len := 4096, srcSpace := 1 }
  { Chan.reset with live := true, gen := 1, typ := 2, ctx := 5, job := 7, core := 3, slotBytes := 4096, tmpl := t }
def withChan : State := st (kernel 3) fun d => (d.setChan 4 chan4).modCore 3 fun c => c.setS 6 33562625

theorem ready_withChan : Ready3 withChan.dev := ⟨by decide, by decide, by decide, by decide⟩

/-- Whether a channel operation is done. -/
def isDone : ChanAct → Bool
  | .done _ => true
  | _ => false

theorem done_of : ∀ {x : ChanAct}, isDone x = true → ∃ d, x = .done d
  | .done d, _ => ⟨d, rfl⟩
  | .fault _, h => by cases h
  | .full, h => by cases h

theorem test_DmaResults_met :
    (∃ (s : State) (n : CoreId) (f : FmtDC), s.live = true ∧ f.rsv = 0 ∧ (∀ i, SlotReady s.dev n 3 i f.hd .normal) ∧
      let c := s.dev.core n
      let dst := (c.sreg f.d.toNat).toNat
      let src := (c.sreg f.s.toNat).toNat
      let k := (c.sreg f.n.toNat).toNat % 2 ^ 32
      let bound := 4096 * s.dev.fld (ctxBound4k (s.dev.slotSet n f.hd) n)
      src % 128 = 0 ∧ dst % 128 = 0 ∧ src + 128 * k ≤ bound ∧ dst + 128 * k ≤ bound ∧ 0 < k ∧ c.copies.length < 5) ∧
    (∃ (s : State) (n : CoreId) (f : FmtDM) (a b : Nat), s.live = true ∧ f.rsv = 0 ∧ f.dspace ≠ 3 ∧ f.sspace ≠ 3 ∧
      (∀ i, SlotReady s.dev n 3 i f.hd .normal) ∧
      let c := s.dev.core n
      let set := s.dev.slotSet n f.hd
      let dst := (c.sreg f.d.toNat).toNat
      let src := (c.sreg f.s.toNat).toNat
      let k := (c.sreg f.n.toNat).toNat % 2 ^ 32
      let ctx := s.dev.fld (ctxId set n)
      src % 64 = 0 ∧ dst % 64 = 0 ∧ k % 64 = 0 ∧ 0 < k ∧ s.dev.moveSide n set f.sspace.toNat src k = .ok a ∧
      s.dev.moveSide n set f.dspace.toNat dst k = .ok b ∧ s.dev.descRoom ctx = true) ∧
    (∃ (s : State) (n : CoreId) (f : FmtDS) (i : Nat), s.live = true ∧ f.rsv = 0 ∧ (∀ i, SlotReady s.dev n 3 i f.hd .normal) ∧
      s.dev.regChan n f.hd f.h = some i ∧
      (∃ d, s.dev.chanPush i (s.dev.issuer n (s.dev.slotSet n f.hd)) (some f.dc.toNat) = .done d) ∧ f.dc = 0 ∧
      (∃ d, s.dev.chanArm i (s.dev.issuer n (s.dev.slotSet n f.hd)) = .done d) ∧
      ∃ d, s.dev.chanCancel i = .done d) ∧
    (∃ (s : State) (n : CoreId) (f : FmtDW), s.live = true ∧ f.rsv = 0 ∧ (f.i = true → f.a = 0) ∧ (f.i = false → f.imm = 0) ∧
      (∀ i, SlotReady s.dev n 3 i f.hd .normal) ∧
      0 ≤ ((s.dev.core n).dcOf (s.dev.slotSet n f.hd) f.dc.toNat - (if f.i then f.imm else ((s.dev.core n).sreg f.a.toNat).setWidth 32)).toInt) ∧
    (∃ (s : State) (n : CoreId) (f : FmtDF) (i : Nat), s.live = true ∧ f.rsv = 0 ∧ f.flag.toNat = 2 ∧ (∀ i, SlotReady s.dev n 3 i f.hd .normal) ∧
      s.dev.regChan n f.hd f.h = some i ∧
      s.dev.chanFlag i f.flag.toNat f.slot.toNat = some f.val) ∧
    (∃ (s : State) (n : CoreId) (f : FmtS0), s.live = true ∧ f = ⟨⟨false, 0, false⟩, 0⟩ ∧ ∀ i, SlotReady s.dev n 3 i f.hd .normal) := by
  refine ⟨?_, ?_, ?_, ?_, ?_, ?_⟩
  · exact ⟨_, 3, ⟨hd0, 4, 1, 2, 0⟩, by decide, rfl, ready_md3.slot .normal 3, by decide⟩
  · exact ⟨_, 3, ⟨hd0, 1, 0, 4, 1, 5, 2, 0⟩, 8796143362176, 331776, by decide, rfl, by decide, by decide, ready_md3.slot .normal 3, by decide⟩
  · exact ⟨withChan, 3, ⟨hd0, 6, 0, 0⟩, 4, by decide, rfl, ready_withChan.slot .normal 3, by decide, done_of (by decide), rfl, done_of (by decide), done_of (by decide)⟩
  · exact ⟨withChan, 3, ⟨hd0, 7, true, 0, 0, 0x80000001⟩, by decide, rfl, by decide, by decide, ready_withChan.slot .normal 3, by decide⟩
  · exact ⟨withChan, 3, ⟨hd0, 6, 2, true, 1, 0⟩, 4, by decide, rfl, by decide, ready_withChan.slot .normal 3, by decide, by decide⟩
  · exact ⟨withChan, 3, ⟨hd0, 0⟩, by decide, rfl, ready_withChan.slot .normal 3⟩

theorem test_CopiesMoveBytes_met :
    ∃ (s : State) (n : CoreId) (q : Copy) (rest : List Copy), s.live = true ∧ (s.dev.core n).copies = q :: rest ∧
      (q.dst + 128 * q.words ≤ q.src ∨ q.src + 128 * q.words ≤ q.dst) ∧
      (∀ i < q.words, s.dev.segsReady n (q.src + 128 * i) 128 = true ∧ s.dev.segsReady n (q.dst + 128 * i) 128 = true ∧
        s.dev.zeroing n (q.src + 128 * i) 128 = false) ∧ (s.dev.core n).badCw = [] :=
  ⟨md3 fun c => { c with copies := [⟨8192, 8448, 2, 0, 1, 0, 0⟩] }, 3, ⟨8192, 8448, 2, 0, 1, 0, 0⟩, [], by decide, by decide, by decide, by decide, by decide⟩

/-- Core 3 runs free, and its D engine holds a copy of two words. -/
def free3 : State := md3 (fun c => c.setQueue 3 [⟨.dcopy 3 ⟨hd0, 4, 1, 2, 0⟩, c.s, c.p, 1, 0⟩]) [(F.SCP_CORE_STATUS_STATE 3, 3)]

theorem test_FreeRunningEngines_met :
    (∃ s : State, s.live = true ∧ ∀ i, SlotQueues s.dev 3 1 i hd0 ∧ SlotQueues s.dev 3 2 i hd0 ∧ SlotQueues s.dev 3 3 i hd0) ∧
    vaRsv (va 6 2 4 0 9 0 0) [7, 8, 9, 10] true true false false = false ∧ vm1.rsv = 0 ∧ vm1.upd ≠ 3 ∧ msRsv ms1 = false ∧
    (∃ (s : State) (f : FmtDC) (q : FreeOp), s.live = true ∧
      let c := s.dev.core 3
      let set := s.dev.slotSet 3 f.hd
      let at_ := c.engineBegin 3 q
      let dst := (at_.sreg f.d.toNat).toNat
      let src := (at_.sreg f.s.toNat).toNat
      let k := (at_.sreg f.n.toNat).toNat % 2 ^ 32
      let bound := 4096 * s.dev.fld (ctxBound4k set 3)
      c.queue 3 = [q] ∧ q.instr = .dcopy 3 f ∧ f.rsv = 0 ∧ c.faults = [] ∧ src % 128 = 0 ∧ dst % 128 = 0 ∧ src + 128 * k ≤ bound ∧
      dst + 128 * k ≤ bound ∧ 0 < k ∧ c.copies.length < 5) :=
  ⟨⟨free3, by decide, fun i => ⟨⟨issues_of (by decide) 1 i, by decide, by decide⟩, ⟨issues_of (by decide) 2 i, by decide, by decide⟩,
     ⟨issues_of (by decide) 3 i, by decide, by decide⟩⟩⟩, by decide, rfl, by decide, by decide,
   ⟨free3, ⟨hd0, 4, 1, 2, 0⟩, ⟨.dcopy 3 ⟨hd0, 4, 1, 2, 0⟩, (free3.dev.core 3).s, (free3.dev.core 3).p, 1, 0⟩, by decide, by decide, rfl, rfl, by decide,
     by decide, by decide, by decide, by decide, by decide, by decide⟩⟩

/-! ## Commands of a core -/

/-- A kernel's launch record: 5 bundles at 0x100, done word at 0x3000. -/
def launch1 : Launch := ⟨0x100, 5, true, false, 0x2000, 0x3000, 77, [1, 2, 3, 4, 5, 6, 7, 8], 0, 0⟩
def answers (r : Resp) (d : Dev) : Dev := { d with home := { d.home with resps := [r] } }
def err1 : Resp := ⟨4, 6, some 5, false, 9, true, 0x77, [], 0, 0, false⟩
def away1 : Req := ⟨9, 6, 7, 0x77, .load 8 false, some 5, false, [], [], false, true, 0, 0, 0, false⟩
def acq1 (space : Nat) : Acq := ⟨5, 7, 1, false, false, space, 64, 0, none⟩

theorem test_CoreCompletions_met :
    (∃ (s : State) (n : CoreId) (l : Launch), s.live = true ∧ s.dev.kernelDone n = true ∧ s.dev.split n = false ∧ (s.dev.core n).running = [(0, l)] ∧
      l.doneAddr ≠ 0 ∧ l.doneAddr < 2 ^ 48 ∧ l.doneAddr / 2 ^ 44 = s.dev.slotNo) ∧
    (∃ (s : State) (n : CoreId) (r : Resp), s.live = true ∧ s.dev.home.resps.find? (fun r => ofCore n r.src && r.err) = some r ∧
      s.dev.split n = false ∧ s.dev.running n = true ∧ (s.dev.core n).open_ r.kern = true ∧ (s.dev.core n).fault (r.src % 2) = none) ∧
    (∃ (s : State) (n : CoreId) (r : Resp) (q : Nat), s.live = true ∧ s.dev.home.resps.find? (fun r => ofCore n r.src && !r.err) = some r ∧
      (s.dev.core n).kern = r.kern ∧ r.acq = false ∧ r.reg = some q) ∧
    (∃ (s : State) (n : CoreId) (r : Req) (q : Nat), s.live = true ∧ s.dev.home.resps.find? (fun r => ofCore n r.src && !r.err) = none ∧
      s.dev.home.reqs.find? (fun r => ofCore n r.src && r.away) = some r ∧ (s.dev.core n).kern = r.kern ∧ r.acq = false ∧ r.reg = some q) ∧
    (∃ (s : State) (n : CoreId) (q : Acq) (p : Nat), s.live = true ∧ (s.dev.core n).acq = some q ∧ q.req = none ∧
      let d := s.dev.stallFor n 32
      d.place n q.set q.space q.addr (if q.wide then 8 else 4) true = .here p ∧ Clean (inSlot d n) n p (if q.wide then 8 else 4)) ∧
    (∃ (s : State) (n : CoreId) (q : Acq) (g : Nat), s.live = true ∧ (s.dev.core n).acq = some q ∧ q.req = none ∧
      (s.dev.stallFor n 32).place n q.set q.space q.addr (if q.wide then 8 else 4) true = .there g) :=
  ⟨⟨k3 fun c => { c with ended := true, running := [(0, launch1)] }, 3, launch1, by decide⟩,
   ⟨st (kernel 3) (fun d => (answers err1 d).modCore 3 fun c => { c with running := [(0, launch1)] }), 3, err1, by decide⟩,
   ⟨st (kernel 3) (answers { err1 with err := false }), 3, { err1 with err := false }, 5, by decide⟩,
   ⟨st (kernel 3) (waits away1), 3, away1, 5, by decide⟩,
   ⟨k3 fun c => { c with acq := some (acq1 0) }, 3, acq1 0, 8256, by decide, by decide, by decide, by decide +kernel, by unfold Clean; decide +kernel⟩,
   ⟨k3 fun c => { c with acq := some (acq1 1) }, 3, acq1 1, 327744, by decide +kernel⟩⟩

/-- A COMMAND channel of core 3, index 4, whose one entry has been read: an image of one bundle, resident or not. -/
def chanCmd (resident : Nat) : Chan :=
  let t : Template := { Template.none with kind := 1, len := 128, srcSpace := 1 }
  { Chan.reset with live := true, gen := 1, typ := 5, ctx := 5, job := 7, core := 3, count := 4, pushes := 1, ready := 1, tmpl := t, entry := some (some (leBytes 16 (328704 + 2 ^ 64 + resident * 2 ^ 80) ++ List.replicate 112 0)) }
def withCmd (resident : Nat) : State :=
  st (kernel 3 ++ [(F.SCP_CORE_STATUS_STATE 3, 1), (F.SCP_CORE_CTRL_CORE_EN 3, 1)] ++ allReady) fun d =>
    let d := d.setChan 4 (chanCmd resident)
    { d with str := { d.str with fresh := 5 } }
def record1 (resident : Bool) : Launch := ⟨328704, 1, resident, false, 0, 0, 0, List.replicate 8 0, 83894273, 0⟩

theorem test_Launches_met :
    (∃ (s : State) (n : CoreId) (i : Nat) (l : Launch) (d d' : Dev) (peer : Option (List Byte)) (bs : List Byte), s.live = true ∧
      (s.dev.core n).loaded = false ∧ s.dev.nextCommand n 0 = (d, some (i, l, false)) ∧ l.resident = false ∧ d.imageWaits l = false ∧
      d.brdRead (d.fld (ctxJob 0 n)) l.image (32 * l.bundles) peer = (d', some bs)) ∧
    (∃ (s : State) (n : CoreId) (i : Nat) (l : Launch) (d : Dev), s.live = true ∧ s.dev.mayLaunch n = true ∧ s.dev.split n = false ∧
      s.dev.nextCommand n 0 = (d, some (i, l, false)) ∧ d.split n = false ∧ d.bit (ctxValid 0 n) = true ∧ l.merged = false ∧ l.resident = true) :=
  ⟨⟨withCmd 0, 3, 4, record1 false, _, _, none, List.replicate 32 0, by decide +kernel, by decide +kernel, pair_of (by decide +kernel), rfl, by decide +kernel, pair_of (by decide +kernel)⟩,
   ⟨withCmd 1, 3, 4, record1 true, _, by decide +kernel, by decide +kernel, by decide +kernel, pair_of (by decide +kernel), by decide +kernel, by decide +kernel, rfl, rfl⟩⟩

theorem test_ScratchpadWork_met :
    (∃ (s : State) (n : CoreId) (bank : Fin 32) (w : Nat), s.live = true ∧ (s.dev.core n).fixing.find? (fun w => w / 16 % 32 == bank.val) = some w) ∧
    (∃ (s : State) (n : CoreId) (bank : Fin 32), s.live = true ∧ s.dev.bit (F.SCP_CORE_CTRL_SCRUB_EN n) = true ∧
      bitOf (s.dev.fld (F.SCP_PWR_SEG_READY n)) (Store.get (fun _ => 0) (s.dev.core n).scrubRow bank.val / 256) = true ∧
      Clean s.dev n ((Store.get (fun _ => 0) (s.dev.core n).scrubRow bank.val * 32 + bank.val) * 128) 128 ∧
      (s.dev.core n).accBad false 0 (Store.get (fun _ => 0) (s.dev.core n).scrubRow 32) = []) ∧
    (∃ (s : State) (n : CoreId), s.live = true ∧ (s.dev.core n).waking.any (·.1 == 5) = false ∧ (s.dev.core n).waking.any (·.1 == 0) = false ∧
      bitOf (s.dev.fld (F.SCP_PWR_SEG_OFF n)) 5 = false ∧ bitOf (s.dev.fld (F.SCP_PWR_SEG_OFF n)) 0 = true) ∧
    (∃ (s : State) (n : CoreId) (k : Fin 6) (cyc : Nat) (held : Option Bool), s.live = true ∧
      (s.dev.core n).waking.find? (·.1 == k.val) = some (k.val, cyc, held) ∧ held ≠ some true) ∧
    (∃ (s : State), s.live = true ∧ s.dev.enHeld = false) ∧
    (∃ (s : State) (n : CoreId), s.live = true ∧ s.dev.running n = false ∧ s.dev.bit (ctxValid 1 n) = true) :=
  ⟨⟨k3 fun c => { c with fixing := [1040] }, 3, 1, 1040, by decide, by decide⟩,
   ⟨k3 (fun c => { c with scrubRow := [(31, 1535)] }), 3, 31, by decide, by decide, by decide, by unfold Clean; decide, by decide⟩,
   ⟨st [(F.SCP_PWR_SEG_OFF 143, 1), (F.SCP_PWR_SEG_READY 143, 62)], 143, by decide⟩,
   ⟨k3 fun c => { c with waking := [(5, 4096, none)] }, 3, 5, 4096, none, by decide⟩,
   ⟨st [], by decide⟩, ⟨st [(F.SCP_CTX1_VALID 143, 1)], 143, by decide⟩⟩

/-! ## Requests -/

/-- A load, a store and an atomic at the last bytes of HBM. -/
theorem test_HbmRequests_met :
    ∀ op ∈ [ReqOp.load 8 true, .store (List.replicate 8 1), .atomic 6 true false 1 2], ∃ (s : State) (i : Nat) (r : Req), s.live = true ∧
      s.dev.performable i = some r ∧ r.op = op ∧ 0 < r.op.len ∧ r.addr + r.op.len = hbmSize ∧
      s.dev.repairing r.addr r.op.len = false ∧ LinesServe s.dev r.addr r.op.len := by
  intro op h
  refine ⟨st allReady (waits (req1 (hbmSize - 8) op)), 0, req1 (hbmSize - 8) op, ?_⟩
  simp only [List.mem_cons, List.not_mem_nil, or_false] at h
  rcases h with rfl | rfl | rfl <;> (unfold LinesServe; decide +kernel)

theorem test_PortRequests_met :
    (∀ op ∈ [ReqOp.load 8 true, .store (List.replicate 8 1), .atomic 6 true false 1 2], ∃ (s : State) (i : Nat) (r : Req) (n : CoreId) (off : Nat),
      s.live = true ∧ s.dev.performable i = some r ∧ r.op = op ∧ 0 < r.op.len ∧ r.addr = scpWin n + off ∧ off + r.op.len = 0x600000 ∧
      s.dev.portCheck n r.tag off r.op.len true = none ∧ (s.dev.core n).badCw = [] ∧ s.dev.portBusy r.addr r.op.len = false ∧
      s.dev.portFull n r 1 = false) ∧
    (∃ (s : State) (i : Nat) (r : Req) (off : Nat) (sx : Bool) (d : Dev) (w : Word), s.live = true ∧ s.dev.performable i = some r ∧ r.tag = 0xFFFF ∧
      r.addr = regBase + off ∧ off < 0x1000000 ∧ off % 8 = 0 ∧ r.op = .load 8 sx ∧ s.dev.readReg off = (d, some w)) := by
  refine ⟨?_, ⟨st [] (waits (req1 (regBase + 0x50000) (.load 8 false) 0xFFFF)), 0, req1 (regBase + 0x50000) (.load 8 false) 0xFFFF, 0x50000, false, _, _,
    by decide, by decide, rfl, rfl, by decide, by decide, rfl, pair_of rfl⟩⟩
  intro op h
  refine ⟨st (kernel 3) (waits (req1 (scpWin 3 + 0x5FFFF8) op 0xFFFF)), 0, req1 (scpWin 3 + 0x5FFFF8) op 0xFFFF, 3, 0x5FFFF8, ?_⟩
  simp only [List.mem_cons, List.not_mem_nil, or_false] at h
  rcases h with rfl | rfl | rfl <;> decide

/-- Window 63 open to devices (0, 0) to (3, 3) for reads, writes and atomics. -/
def window63 : List (Fld × Nat) :=
  [(F.DEV_WIN_CTL_VALID 63, 1), (F.DEV_WIN_CTL_X1 63, 3), (F.DEV_WIN_CTL_Y1 63, 3), (F.DEV_WIN_CTL_READ 63, 1), (F.DEV_WIN_CTL_WRITE 63, 1),
   (F.DEV_WIN_CTL_ATOMIC 63, 1), (F.DEV_WIN_CTL_SIZE_LOG2 63, 20), (F.DEV_WIN_BASE_BASE 63, 16)]

theorem test_RemoteRequests_met :
    (∃ (s : State) (t : Tag) (a : BitVec 44), s.live = true ∧ s.dev.jobs.contains t.toNat = true ∧ regionOf a.toNat 1 ≠ .far) ∧
    (∃ (s : State) (x : BitVec 7) (y : BitVec 6) (t : Tag) (k : Fin 64) (a : BitVec 34) (q : Access), s.live = true ∧
      s.dev.fld (F.DEV_WIN_BASE_BASE k.val) * 65536 + a.toNat < 2 ^ 44 ∧ s.dev.bit (F.DEV_WIN_CTL_VALID k.val) = true ∧
      s.dev.fld (F.DEV_WIN_CTL_X0 k.val) ≤ x.toNat ∧ x.toNat ≤ s.dev.fld (F.DEV_WIN_CTL_X1 k.val) ∧
      s.dev.fld (F.DEV_WIN_CTL_Y0 k.val) ≤ y.toNat ∧ y.toNat ≤ s.dev.fld (F.DEV_WIN_CTL_Y1 k.val) ∧
      s.dev.winRight k.val (accReq x.toNat y.toNat t.toNat 0 q).op = true ∧
      a.toNat + (accReq x.toNat y.toNat t.toNat 0 q).op.len = 2 ^ s.dev.fld (F.DEV_WIN_CTL_SIZE_LOG2 k.val) ∧ t = fwTag ∧
      s.dev.farPort t.toNat (s.dev.fld (F.DEV_WIN_BASE_BASE k.val) * 65536 + a.toNat) (accReq x.toNat y.toNat t.toNat 0 q).op.len = none) ∧
    (∃ (s : State) (i : Nat) (r : Req) (p : Nat), s.live = true ∧ s.dev.performable i = some r ∧ r.addr < 2 ^ 44 ∧ r.src < 288 ∧ farBase ≤ r.addr ∧
      r.addr < farBase + 0x10000000000 ∧
      let j := (r.addr - farBase) / 2 ^ 34
      let x := s.dev.fld (F.DEV_APER_X j)
      let y := s.dev.fld (F.DEV_APER_Y j)
      s.dev.bit (F.DEV_APER_VALID j) = true ∧ s.dev.inRegion x y = true ∧ s.dev.routePort x y = some p) :=
  ⟨⟨st [(F.STR_CTX_STATE 2047, 1), (F.STR_CTX_JOB 2047, 7)], 7, 0x5000, by decide, jobs_of _ 2047 7 (by decide) (by decide) (by decide), by decide⟩,
   ⟨st window63, 3, 3, fwTag, 63, 0xFFFF8, .load 8, by decide +kernel⟩,
   ⟨st [(F.DEV_APER_X 0, 1), (F.DEV_APER_VALID 0, 1), (F.LNK_REGION_VALID, 1), (F.LNK_REGION_X1, 5), (F.LNK_REGION_Y1, 5), (F.LNK_PSTATUS_STATE 1, 4)]
      (waits (req1 (farBase + 0x3FFFFFFF8) (.load 8 false))), 0, req1 (farBase + 0x3FFFFFFF8) (.load 8 false), 1, by decide⟩⟩

/-- Words for the grant registers: job 7, windows and regions of 1 MiB, GiB 382 and 383. -/
def winWord : Word := wordOf (F.DEV_WIN_CTL_SIZE_LOG2 63) 20 ||| wordOf (F.DEV_WIN_CTL_JOB 63) 7
def jrWord : Word := wordOf (F.KEL_JR_JOB 15) 7 ||| wordOf (F.KEL_JR_FIRST_GIB 15) 382 ||| wordOf (F.KEL_JR_LAST_GIB 15) 383
def mrWord : Word := wordOf (F.ETH_MR_CTL_SIZE_LOG2 255) 20 ||| wordOf (F.ETH_MR_CTL_JOB 255) 7
def cleanGibs : List (Fld × Nat) := [(F.SEC_GIB_CLEAN 0, 1), (F.SEC_GIB_CLEAN 1, 1), (F.SEC_GIB_CLEAN 382, 1), (F.SEC_GIB_CLEAN 383, 1)]

theorem test_Grants_met :
    (∃ (s : State) (k : Fin 64) (v : Word), s.live = true ∧
      let v' := v ||| 0x8000000000000000
      let base := s.dev.fld (F.DEV_WIN_BASE_BASE k.val) * 65536
      let size := 2 ^ (F.DEV_WIN_CTL_SIZE_LOG2 k.val).of v'
      16 ≤ (F.DEV_WIN_CTL_SIZE_LOG2 k.val).of v' ∧ (F.DEV_WIN_CTL_SIZE_LOG2 k.val).of v' ≤ 34 ∧ base + size ≤ hbmSize ∧
      Grantable s.dev (gibsOf base size) ((F.DEV_WIN_CTL_JOB k.val).of v')) ∧
    (∃ (s : State) (i : Fin 16) (v : Word), s.live = true ∧
      let first := (F.KEL_JR_FIRST_GIB i.val).of v
      let last := (F.KEL_JR_LAST_GIB i.val).of v
      let gibs := (List.range (last + 1 - first)).map (first + ·)
      first < 384 ∧ last = 383 ∧ Grantable s.dev gibs ((F.KEL_JR_JOB i.val).of v)) ∧
    (∃ (s : State) (n : CoreId) (set : Fin 2) (v : Word), s.live = true ∧ s.dev.running n = false ∧ s.dev.setZeroing n set.val = false ∧
      Grantable s.dev (gibsOf (s.dev.setHbm n set.val).1 (s.dev.setHbm n set.val).2) ((ctxJob set.val n).of v)) ∧
    (∃ (s : State) (i : Fin 256) (v : Word), s.live = true ∧
      let v' := v ||| 0x8000000000000000
      let base := s.dev.fld (F.ETH_MR_BASE_BASE i.val) * 64
      let size := 2 ^ (F.ETH_MR_CTL_SIZE_LOG2 i.val).of v'
      12 ≤ (F.ETH_MR_CTL_SIZE_LOG2 i.val).of v' ∧ (F.ETH_MR_CTL_SIZE_LOG2 i.val).of v' ≤ 34 ∧ base + size ≤ hbmSize ∧
      Grantable s.dev (gibsOf base size) ((F.ETH_MR_CTL_JOB i.val).of v')) :=
  ⟨⟨st (cleanGibs ++ [(F.DEV_WIN_BASE_BASE 63, 0x3FFF)]), 63, winWord, by unfold Grantable; decide⟩,
   ⟨st cleanGibs, 15, jrWord, by unfold Grantable; decide⟩,
   ⟨st (cleanGibs ++ [(F.SCP_CTX1_HBM_BASE_BASE 143, 0x3FFF), (F.SCP_CTX1_HBM_BOUND_SIZE 143, 2)]), 143, 1, wordOf (ctxJob 1 143) 7, by
     unfold Grantable; decide⟩,
   ⟨st (cleanGibs ++ [(F.ETH_MR_BASE_BASE 255, 0xFFFFFF)]), 255, mrWord, by unfold Grantable; decide⟩⟩

/-! ## Registers, supplies, power and the persistent store -/

theorem test_RegisterWrites_met :
    (∃ (s : State) (off : BitVec 24) (r : RegRow) (k : Nat), s.live = true ∧ off.toNat % 8 = 0 ∧ s.dev.regAt off.toNat = some (r, k) ∧
      off.toNat / 0x10000 = 0xE ∧ off.toNat < R.DEV_WIN_CTL 0) ∧
    (∃ (s : State) (t : Tag) (off : BitVec 24), s.live = true ∧ t ≠ fwTag ∧ off.toNat = R.STR_CHAN_CMD) ∧
    (∃ (s : State) (t : Tag) (off : BitVec 24), s.live = true ∧ t ≠ fwTag ∧ off.toNat ≠ R.STR_CHAN_CMD) ∧
    (∃ (s : State) (off : BitVec 24), s.live = true ∧ s.dev.regAt off.toNat = none) :=
  ⟨⟨st [], BitVec.ofNat 24 R.DEV_EVENT, ((st []).dev.regAt R.DEV_EVENT |>.getD (⟨0, 0, 0, 0, false, 0, 0, 0⟩, 0)).1, R.DEV_EVENT, by decide, by decide,
     by decide +kernel, by decide, by decide⟩,
   ⟨st [], 7, BitVec.ofNat 24 R.STR_CHAN_CMD, by decide⟩, ⟨st [], 0xFFFE, 0, by decide⟩, ⟨st [], 0xFFFFF8, by decide, by decide +kernel⟩⟩

/-- A device without one of its supplies, and one whose input stage tripped. -/
def power (v48 v33 on tripped die : Bool) : State :=
  st [] fun d => { d with pwr := { d.pwr with v48 := v48, v33 := v33, on := on, tripped := tripped, die := die, booted := false } }

/-- An APPEND and a READ of class 1 under way. -/
def append1 : NvsOp := ⟨1, 1, ⟨3, 1, [1, 2], true⟩, 2, 64, 0⟩
def read1 : NvsOp := ⟨2, 1, ⟨0, 0, [], true⟩, 64, 64, 0⟩
def nvsOp (o : NvsOp) : State := st allReady fun d => { d with nvs := { d.nvs with op := some o } }

theorem test_SupplyChanges_met :
    (∃ s : State, s.dev.pwr.v48 = false ∧ s.dev.pwr.v33 = false) ∧ (∃ s : State, Settled s ∧ s.dev.pwr.v48 = true ∧ s.dev.pwr.on = true) ∧
    (∃ (s : State) (o : NvsOp), s.dev.sec.op = none ∧ s.dev.nvs.op = some o ∧ o.op = 1 ∧
      ∀ c < 2, ((s.log o.cls c).blocks.getLast?.getD []).length < blockRecs o.cls) ∧
    (∃ s : State, s.dev.pwr.tripped = true) :=
  ⟨⟨power false false true false false, by decide⟩, ⟨power true true true false true, ⟨by decide, by decide⟩, by decide, by decide⟩,
   ⟨nvsOp append1, append1, by decide⟩, ⟨power true true false true false, by decide⟩⟩

/-- A running device with the boot ROM still to start. -/
def unbooted (p : Persist) : State := ⟨[], p, { live with pwr := { live.pwr with booted := false } }⟩

theorem test_StartUp_met :
    (∃ s : State, s.dev.pwr.v48 = true ∧ s.dev.pwr.v33 = true ∧ s.dev.pwr.on = true ∧ s.dev.pwr.die = false) ∧
    (∃ (s : State) (mac : Nat), s.live = true ∧ s.dev.pwr.booted = false ∧ s.identity = some mac) ∧
    (∃ s : State, s.live = true ∧ s.dev.pwr.booted = false ∧ s.identity = none) :=
  ⟨⟨power true true true false false, by decide⟩, ⟨unbooted Persist.reset, _, by decide, by decide, by rfl⟩,
   ⟨unbooted { Persist.reset with identA := none, identB := none }, by decide⟩⟩

/-- The link is up and firmware is to be loaded; a BOOT_REQ for an image of 18 bytes, and its one CHUNK. -/
def loading (l : Option Load) : State :=
  st [(F.ETH_STATUS_LINK, 2), (F.GND_STATUS_STATE, 0)] fun d => { d with eth := { d.eth with load := l } }
def bootReq1 : List Byte :=
  leBytes 2 0x100 ++ leBytes 1 1 ++ zeros 5 ++ leBytes 4 64 ++ zeros 4 ++ leBytes 2 0x100 ++ leBytes 2 0x100 ++ leBytes 3 77 ++ zeros 1 ++
  leBytes 4 5 ++ leBytes 4 99 ++ zeros 16 ++ leBytes 4 18 ++ zeros 28
def chunk1 (last : Nat) : List Byte :=
  leBytes 2 0x100 ++ leBytes 1 3 ++ leBytes 1 last ++ zeros 4 ++ leBytes 4 26 ++ zeros 4 ++ leBytes 4 0 ++ zeros 4 ++ zeros 18

theorem test_FirmwareLoads_met :
    (∃ (s : State) (bytes : List Byte), s.live = true ∧ s.dev.ethUp = true ∧ s.dev.fld F.GND_STATUS_STATE = 0 ∧
      s.dev.eth.load = none ∧ bytes.length = 80 ∧ kNat bytes 0 2 = 0x0100 ∧ kNat bytes 2 1 = 1 ∧ kNat bytes 8 4 = 64 ∧
      kNat bytes 16 2 ≤ 0x0100 ∧ 0x0100 ≤ kNat bytes 18 2 ∧ kNat bytes 23 1 = 0 ∧ kNat bytes 52 28 = 0 ∧ kNat bytes 48 4 ≤ imageMax) ∧
    (∀ last ∈ [0, 1], ∃ (s : State) (ip : BitVec 128) (bytes : List Byte) (l : Load), s.live = true ∧ s.dev.ethUp = true ∧
      s.dev.fld F.GND_STATUS_STATE = 0 ∧ s.dev.eth.load = some l ∧ l.ip = ip.toNat ∧ l.len ≠ 0 ∧ kNat bytes 0 2 = 0x0100 ∧ kNat bytes 2 1 = 3 ∧
      kNat bytes 8 4 + 16 = bytes.length ∧ 24 ≤ bytes.length ∧ bytes.length ≤ 65560 ∧ kNat bytes 20 4 = 0 ∧ kNat bytes 16 4 = l.got.length ∧
      l.got.length + (bytes.length - 24) = l.len ∧ kNat bytes 3 1 = last) ∧
    (∃ s : State, s.live = true ∧ s.dev.fld F.GND_STATUS_STATE = 1) := by
  refine ⟨⟨loading none, bootReq1, by decide +kernel⟩, ?_, ⟨st [(F.GND_STATUS_STATE, 1)], by decide⟩⟩
  intro last h
  refine ⟨loading (some ⟨9, 77, 18, []⟩), 9, chunk1 last, ⟨9, 77, 18, []⟩, ?_⟩
  simp only [List.mem_cons, List.not_mem_nil, or_false] at h
  rcases h with rfl | rfl <;> decide +kernel

/-- Sensors at the trip temperature of the die. -/
def hot : Sensors := ⟨480, 10, 700, 500, 2700, 10, 105, 80, List.replicate 12 80⟩

theorem test_PowerGovernor_met :
    (∃ s : State, s.live = true ∧ s.dev.bit F.PWR_STATUS_HOLD = false ∧ s.dev.evalDue = true) ∧
    (∃ s : State, s.live = true ∧ s.dev.tckRunning = true ∧ s.dev.pwr.evalAt ≠ some s.dev.time) ∧ (105 ≤ hot.die.toNat ∧ ¬ 100 ≤ hbmMax hot) ∧
    (100 ≤ hbmMax { hot with die := 0, hbm := List.replicate 12 100 }) ∧
    (∃ (s : State) (v : Word), s.live = true ∧ s.dev.fld F.PWR_STATUS_STATE = 4 ∧ 1 ≤ F.PWR_CTRL_SLEW.of v ∧ F.PWR_CTRL_SLEW.of v = 40 ∧
      s.dev.fld F.PWR_TEMP_DIE_MAX < s.dev.fld F.PWR_THERM_DIE_C ∧ s.dev.fld F.PWR_TEMP_HBM_MAX < s.dev.fld F.PWR_THERM_HBM_C) :=
  ⟨⟨st [], by decide⟩, ⟨st [(F.TCK_STATUS_STATE, 2)], by decide⟩, by decide, by decide, ⟨st [(F.PWR_STATUS_STATE, 4)], wordOf F.PWR_CTRL_SLEW 40, by decide⟩⟩

/-- An NVS command word of class 1, the highest key and 4 bytes; and of class 5. -/
def nvsWord (cls key : Nat) : Word := wordOf F.NVS_CMD_CLASS cls ||| wordOf F.NVS_CMD_KEY key ||| wordOf F.NVS_CMD_LEN 4
def nvsIdle : State := st ((F.NVS_ARG_ADDR, 1) :: allReady) fun d => { d with time := 144000000 * 100000 }

theorem test_PersistentStore_met :
    (∃ s : State, s.live = true ∧ s.dev.bit F.NVS_STATUS_MOUNTED = false) ∧
    (∀ cls ∈ [1, 5], ∃ (s : State) (v : Word), s.live = true ∧ s.dev.bit F.NVS_CMD_STATUS_BUSY = false ∧ F.NVS_CMD_CLASS.of v = cls ∧
      s.dev.fld F.NVS_ARG_ADDR * 64 + F.NVS_CMD_LEN.of v ≤ hbmSize ∧ F.NVS_CMD_KEY.of v < recKeys cls ∧ F.NVS_CMD_LEN.of v + 21 ≤ recSize cls ∧
      LinesServe s.dev (s.dev.fld F.NVS_ARG_ADDR * 64) (F.NVS_CMD_LEN.of v) ∧
      s.dev.repairing (s.dev.fld F.NVS_ARG_ADDR * 64) (F.NVS_CMD_LEN.of v) = false ∧
      (s.live_ cls).length + (if (s.live_ cls).any (·.key == F.NVS_CMD_KEY.of v) then 0 else 1) ≤ (copyBlocks cls - 1) * blockRecs cls ∧
      recPeriod cls ≤ s.dev.nvsCredit cls) ∧
    (∃ (s : State) (o : NvsOp), s.live = true ∧ s.dev.nvs.op = some o ∧ o.op = 1 ∧
      ∀ c < 2, ((s.log o.cls c).blocks.getLast?.getD []).length < blockRecs o.cls) ∧
    (∃ (s : State) (o : NvsOp), s.live = true ∧ s.dev.nvs.op = some o ∧ o.op = 2 ∧ o.addr + o.len ≤ hbmSize ∧ LinesServe s.dev o.addr o.len ∧ s.dev.repairing o.addr ((s.live_ o.cls).length * recSize o.cls) = false ∧
      ∀ r ∈ s.live_ o.cls, r.body.length + 21 ≤ recSize o.cls) := by
  refine ⟨⟨st [], by decide⟩, ?_, ⟨nvsOp append1, append1, by decide +kernel⟩, ⟨nvsOp read1, read1, by unfold LinesServe; decide +kernel⟩⟩
  intro cls h
  refine ⟨nvsIdle, nvsWord cls (recKeys cls - 1), ?_⟩
  simp only [List.mem_cons, List.not_mem_nil, or_false] at h
  rcases h with rfl | rfl <;> (unfold LinesServe; decide +kernel)

/-! ## Errors, telemetry and firmware -/

def job1 (tag state : Nat) : Job := ⟨tag, 0, 0, 0, 0, 0, 0, [], 0, 0, state⟩

/-- Firmware that serves, as the master of a domain whose coordinates are (0, 0). -/
def serving (l : List (Fld × Nat) := []) (g : Dev → Dev := id) : State :=
  st ([(F.GND_STATUS_STATE, 3), (F.GND_COMP_STATE 1, 2), (F.GND_COMP_STATE 7, 2), (F.GND_TRACE_EN_EN 15, 2 ^ 63), (F.GND_TRACE_CTRL_RATE, 5),
    (F.TCK_CTRL_IS_MASTER, 1)] ++ l) fun d =>
    let d : Dev := { d with time := 400000000, gnd := { d.gnd with jobs := [job1 7 1], lease := some 600000000, session := some (5, 1) } }
    g d

theorem test_NetworkErrors_met :
    (∃ s : State, s.live = true) ∧
    (∃ (s : State) (i : Nat) (r : Req), s.live = true ∧ s.dev.home.reqs[i]? = some r ∧ r.src < 288) :=
  ⟨⟨st [], by decide⟩, ⟨st [] (waits (req1 64 (.load 8 false))), 0, req1 64 (.load 8 false), by decide⟩⟩

theorem test_Telemetry_met :
    (∃ (s : State) (r : Word × Word) (rs : List (Word × Word)), s.live = true ∧ s.dev.tel.evq = r :: rs ∧ s.dev.serving = false) ∧
    (∃ (s : State) (v : Word), s.live = true ∧ F.TEL_CTRL_IRQ_CORE.of v = 5) ∧
    (∃ s : State, s.dev.pwr.v33 = true ∧ s.dev.pwr.die = true) ∧ (∃ s : State, s.dev.pwr.v33 = true ∧ s.dev.pwr.die = false) ∧ (∃ a : BitVec 8, a ≠ 9) :=
  ⟨⟨st [] fun d => { d with tel := { d.tel with evq := [(1, 2)] } }, (1, 2), [], by decide⟩, ⟨st [], wordOf F.TEL_CTRL_IRQ_CORE 5, by decide⟩,
   ⟨st [], by decide⟩, ⟨power false true true false false, by decide⟩, ⟨8, by decide⟩⟩

theorem test_FirmwareWork_met :
    (∃ (s : State) (t : Fin 1024), s.live = true ∧ s.dev.serving = true ∧ s.dev.compUp (t.val / 128) = true ∧
      bitOf (s.dev.fld (F.GND_TRACE_EN_EN (t.val / 64))) (t.val % 64) = true ∧ s.dev.gnd.traceMs ≠ s.dev.time / 144000000 ∧
      0 < s.dev.fld F.GND_TRACE_CTRL_RATE) ∧
    (∃ s : State, s.live = true ∧ s.dev.serving = true ∧ s.dev.compUp 1 = true ∧ s.dev.master = true) ∧
    (∃ (s : State) (x : BitVec 7) (y : BitVec 6), s.live = true ∧ s.dev.serving = true ∧
      ¬ (x.toNat = s.dev.fld F.LNK_COORD_X ∧ y.toNat = s.dev.fld F.LNK_COORD_Y)) ∧
    (∃ (s : State) (x : BitVec 7) (y : BitVec 6), s.live = true ∧ s.dev.serving = true ∧ x.toNat = s.dev.fld F.LNK_COORD_X ∧
      y.toNat = s.dev.fld F.LNK_COORD_Y ∧ s.dev.compUp 1 = true ∧ s.dev.master = true ∧ s.dev.tckRunning = false) ∧
    (∃ (s : State) (c : Fin 8), s.live = true ∧ s.dev.compUp c.val = true) ∧
    (∀ k ∈ [1, 3, 4], ∃ (s : State) (c : Fin 8), s.live = true ∧ s.dev.fld (F.GND_COMP_STATE c.val) = 0 ∧ s.dev.crashTimes c.val ≠ [] ∧
      (s.dev.crashTimes c.val).length = k) := by
  refine ⟨⟨serving, 1023, by decide +kernel⟩, ⟨serving, by decide⟩, ⟨serving, 127, 63, by decide⟩, ⟨serving, 0, 0, by decide⟩, ⟨serving, 7, by decide⟩, ?_⟩
  intro k h
  refine ⟨serving [(F.GND_COMP_STATE 7, 0)] fun d => { d with gnd := { d.gnd with crashes := [(7, List.replicate k 400000000)] } }, 7, ?_⟩
  simp only [List.mem_cons, List.not_mem_nil, or_false] at h
  rcases h with rfl | rfl | rfl <;> decide +kernel

theorem test_LeaseAndWatchdog_met :
    (∃ (s : State) (v : Word), s.live = true ∧ F.GND_LEASE_MS.of v ≠ 0 ∧ F.GND_HOLD_SECONDS.of v = 3600 ∧ F.GND_WDOG_MS.of v ≠ 0) ∧
    (∃ (s : State) (at_ : Nat), s.live = true ∧ s.dev.gnd.lease = some at_ ∧ s.dev.gnd.session.isSome = true ∧ s.dev.fld F.GND_HOLD_SECONDS ≠ 0) ∧
    (∃ (s : State) (at_ : Nat), s.live = true ∧ s.dev.gnd.hold = some at_) ∧ (∃ (s : State) (at_ : Nat), s.live = true ∧ s.dev.gnd.wdog = some at_) :=
  ⟨⟨st [], 3600, by decide⟩, ⟨serving, 600000000, by decide⟩, ⟨serving [] fun d => { d with gnd := { d.gnd with hold := some 7 } }, 7, by decide⟩,
   ⟨serving [] fun d => { d with gnd := { d.gnd with wdog := some 7 } }, 7, by decide⟩⟩

/-! ## The mailbox and the security engine -/

/-- The session of token 5, version 1: a request in it, and the state in which it is ready, changed by l and g. -/
def hdr1 : MboxHdr := ⟨1, 9, 5, false⟩
def mbox (l : List (Fld × Nat) := []) (g : Dev → Dev := id) : State :=
  serving ([(F.ETH_STATUS_LINK, 2), (F.GND_COMP_STATE 0, 2), (F.GND_COMP_STATE 3, 2), (F.GND_COMP_STATE 5, 2), (F.KEL_STATUS_STATE 0, 2)] ++ l) g

theorem ready_mbox (l : List (Fld × Nat)) (g : Dev → Dev) (c : Nat)
    (h : (mbox l g).live = true ∧ (mbox l g).dev.ethUp = true ∧ (mbox l g).dev.serving = true ∧ (mbox l g).dev.gnd.session = some (5, 1) ∧
      (mbox l g).dev.compUp c = true) : MailboxReady (mbox l g) hdr1 c := ⟨h.1, h.2.1, h.2.2.1, h.2.2.2.1, rfl, h.2.2.2.2⟩

theorem test_MailboxSessions_met :
    (∃ (s : State) (h : MboxHdr) (lo hi : BitVec 16), s.live = true ∧ s.dev.ethUp = true ∧ s.dev.serving = true ∧ h.full = false ∧
      s.dev.compUp 0 = true ∧ max lo.toNat (mboxLo s.dev.gnd.image) ≤ min hi.toNat (mboxHi s.dev.gnd.image) ∧ h.token = 0 ∧ s.dev.gnd.session = none) ∧
    (∃ (s : State) (h : MboxHdr) (lo hi : BitVec 16), s.live = true ∧ s.dev.ethUp = true ∧ s.dev.serving = true ∧ h.full = false ∧
      s.dev.compUp 0 = true ∧ max lo.toNat (mboxLo s.dev.gnd.image) ≤ min hi.toNat (mboxHi s.dev.gnd.image) ∧ h.token ≠ 0 ∧
      s.dev.gnd.heldTok = some h.token.toNat) ∧
    (∃ (s : State) (h : MboxHdr) (lo hi : BitVec 16), s.live = true ∧ s.dev.ethUp = true ∧ s.dev.serving = true ∧ h.full = false ∧
      s.dev.compUp 0 = true ∧ max lo.toNat (mboxLo s.dev.gnd.image) ≤ min hi.toNat (mboxHi s.dev.gnd.image) ∧ h.token = 0 ∧
      s.dev.gnd.session.isSome = true) ∧
    (∃ s h, MailboxReady s h 0 ∧ s.dev.fld F.GND_HOLD_SECONDS ≠ 0) ∧ (∃ s h, MailboxReady s h 1 ∧ s.dev.gnd.heldTok = some h.token.toNat) :=
  ⟨⟨mbox [] fun d => { d with gnd := { d.gnd with session := none } }, ⟨1, 9, 0, false⟩, 0, 0, by decide⟩,
   ⟨mbox [] fun d => { d with gnd := { d.gnd with session := none, heldTok := some 5 } }, hdr1, 0, 0, by decide⟩,
   ⟨mbox, ⟨1, 9, 0, false⟩, 0, 0, by decide⟩,
   ⟨_, _, ready_mbox [] id 0 (by decide), by decide⟩,
   ⟨_, _, ready_mbox [] (fun d => { d with gnd := { d.gnd with heldTok := some 5 } }) 1 (by decide), by decide⟩⟩

theorem test_MailboxRefusals_met :
    (∃ s : State, s.live = true ∧ s.dev.ethUp = true ∧ s.dev.serving = true ∧ s.dev.gnd.session = none) ∧
    (∀ h ∈ [(⟨2, 9, 5, false⟩ : MboxHdr), ⟨1, 9, 6, false⟩, ⟨1, 9, 5, true⟩], ∃ s : State, s.live = true ∧ s.dev.ethUp = true ∧ s.dev.serving = true ∧
      s.dev.gnd.session = some (5, 1) ∧ (h.ver.toNat ≠ 1 ∨ h.token.toNat ≠ 5 ∨ h.full = true)) ∧
    (∃ s : State, s.live = true ∧ s.dev.ethUp = true ∧ s.dev.serving = true ∧ s.dev.gnd.session = some (5, 1) ∧ hdr1.ver.toNat = 1 ∧
      hdr1.token.toNat = 5 ∧ hdr1.full = false ∧ s.dev.compUp 0 = false) :=
  ⟨⟨mbox [] fun d => { d with gnd := { d.gnd with session := none } }, by decide⟩,
   fun h m => ⟨mbox, by decide, by decide, by decide, by decide, by revert h m; decide⟩, ⟨mbox [(F.GND_COMP_STATE 0, 0)], by decide⟩⟩

/-- A queue pair of role 2 and a region control word of 4 KiB without VALID. -/
def qp2 : Qp := ⟨2, 77, 9, 0, 0, false, 0, 0, none, 0⟩
def withQp (g : Dev → Dev := id) : Dev → Dev := fun d => g { d with eth := { d.eth with qps := [(0x13F, qp2)] } }
def job9 : JobSpec := ⟨9, 0, 127, 0, 63, 381, 382, [], 2, 0⟩

theorem test_MailboxRequests_met :
    (∀ role ∈ [(2 : BitVec 8), 3], ∃ (s : State) (h : MboxHdr) (n : Nat), MailboxReady s h 3 ∧ s.dev.fld F.ETH_STATUS_FLOWS_FREE ≠ 0 ∧
      (if role = 2 then (List.range 64).map (0x100 + ·) else (List.range 256).map (0x1000 + ·)).find? (fun n => (s.dev.qp n).isNone) = some n) ∧
    (∃ (s : State) (h : MboxHdr) (n : BitVec 24) (q : Qp), MailboxReady s h 3 ∧ s.dev.qp n.toNat = some q ∧ 2 ≤ q.role) ∧
    (∃ (s : State) (h : MboxHdr) (i : Fin 256) (ctl : Word), MailboxReady s h 3 ∧ i.val ≠ 255 ∧ ctl.getLsbD 63 = false ∧
      (F.ETH_MR_CTL_SIZE_LOG2 i.val).of ctl = 12) ∧
    (∃ (s : State) (h : MboxHdr) (j : JobSpec), MailboxReady s h 1 ∧ j.tag ≠ 0xFFFF ∧ j.policy.toNat = 2 ∧ j.x0.toNat ≤ j.x1.toNat ∧
      j.y0.toNat ≤ j.y1.toNat ∧ j.first.toNat ≤ j.last.toNat ∧ j.last.toNat = 382 ∧ s.dev.gnd.jobs.any (·.tag == j.tag.toNat) = false ∧
      s.dev.str.kills.any (·.1 == j.tag.toNat) = false) ∧
    (∀ st ∈ [0, 1, 2, 4], ∃ (s : State) (h : MboxHdr) (job : BitVec 16), MailboxReady s h 1 ∧
      s.dev.gnd.jobs.any (fun j => j.tag == job.toNat && j.state == st) = true) ∧
    (∃ (s : State) (h : MboxHdr), MailboxReady s h 7 ∧ (List.replicate 16 (0 : Word)).length = 16) ∧
    (∃ (s : State) (h : MboxHdr), MailboxReady s h 5 ∧ (zeros 64).length = 64 ∧ (zeros 112).length = 112 ∧ s.dev.bit F.SEC_STATUS_LOCKED = true) := by
  refine ⟨?_, ⟨_, _, 0x13F, qp2, ready_mbox [] (withQp id) 3 (by decide), by decide, by decide⟩,
    ⟨_, _, 254, wordOf (F.ETH_MR_CTL_SIZE_LOG2 254) 12, ready_mbox [] id 3 (by decide), by decide, by decide, by decide⟩,
    ⟨_, _, job9, ready_mbox [] id 1 (by decide), by decide, by decide, by decide, by decide, by decide, by decide, by decide, by decide⟩, ?_,
    ⟨_, _, ready_mbox [] id 7 (by decide), by decide⟩,
    ⟨_, _, ready_mbox [(F.SEC_STATUS_LOCKED, 1)] id 5 (by decide), by decide, by decide, by decide⟩⟩
  · intro role m
    simp only [List.mem_cons, List.not_mem_nil, or_false] at m
    rcases m with rfl | rfl
    · exact ⟨_, _, 0x100, ready_mbox [(F.ETH_STATUS_FLOWS_FREE, 1)] id 3 (by decide +kernel), by decide, by decide +kernel⟩
    · exact ⟨_, _, 0x1000, ready_mbox [(F.ETH_STATUS_FLOWS_FREE, 1)] id 3 (by decide +kernel), by decide, by decide +kernel⟩
  · intro st m
    simp only [List.mem_cons, List.not_mem_nil, or_false] at m
    rcases m with rfl | rfl | rfl | rfl
    · exact ⟨_, _, 7, ready_mbox [] (fun d => { d with gnd := { d.gnd with jobs := [job1 7 0] } }) 1 (by decide), by decide⟩
    · exact ⟨_, _, 7, ready_mbox [] id 1 (by decide), by decide⟩
    · exact ⟨_, _, 7, ready_mbox [] (fun d => { d with gnd := { d.gnd with jobs := [job1 7 2] } }) 1 (by decide), by decide⟩
    · exact ⟨_, _, 7, ready_mbox [] (fun d => { d with gnd := { d.gnd with jobs := [job1 7 4] } }) 1 (by decide), by decide⟩

/-- An update announced with 8 bytes, of which 4 are staged; and one in progress with components 2 and 1 to swap. -/
def staged (d : Dev) : Dev := { d with gnd := { d.gnd with stageLen := some 8, staged := [1, 2, 3, 4] } }

theorem test_LiveUpdate_met :
    (∃ (s : State) (h : MboxHdr) (len : BitVec 32), MailboxReady s h 0 ∧ len.toNat = imageMax ∧ s.dev.gnd.swaps = []) ∧
    (∃ (s : State) (h : MboxHdr) (offset : BitVec 32) (bytes : List Byte) (n : Nat), MailboxReady s h 0 ∧ s.dev.gnd.stageLen = some n ∧
      s.dev.gnd.swaps = [] ∧ offset.toNat = s.dev.gnd.staged.length ∧ offset.toNat + bytes.length = n ∧
      LinesServe s.dev (stagedAt + offset.toNat) bytes.length) ∧
    (∃ (s : State) (h : MboxHdr) (len : Nat), MailboxReady s h 0 ∧ s.dev.gnd.stageLen = some len ∧ s.dev.gnd.swaps = []) ∧
    (∃ (s : State) (c : Nat) (cs : List Nat), s.live = true ∧ s.dev.gnd.swaps = c :: cs ∧ c < 8 ∧ s.dev.compUp c = true) :=
  ⟨⟨_, _, 3932160, ready_mbox [] id 0 (by decide), by decide, by decide⟩,
   ⟨_, _, 4, [5, 6, 7, 8], 8, ready_mbox allReady staged 0 (by decide), by decide, by decide, by decide, by decide, by unfold LinesServe; decide +kernel⟩,
   ⟨_, _, 8, ready_mbox [] staged 0 (by decide), by decide, by decide⟩,
   ⟨mbox [] fun d => { d with gnd := { d.gnd with swaps := [7, 1] } }, 7, [1], by decide⟩⟩

/-- A word of SEC_CMD with an IMM field. -/
def secWord (imm : Nat) : Word := wordOf F.SEC_CMD_IMM imm

theorem test_SecurityCommands_met :
    (∃ (s : State) (v : Word), s.live = true ∧ s.dev.bit F.SEC_CMD_STATUS_BUSY = false ∧ s.dev.bit F.SEC_STATUS_LOCKED = false ∧
      F.SEC_CMD_IMM.of v / 256 % 256 ≤ s.dev.fld (F.SEC_SVN_RUN_RUN (F.SEC_CMD_IMM.of v % 8)) ∧ 7 ≤ F.SEC_CMD_IMM.of v % 16 ∧
      8 ≤ F.SEC_CMD_IMM.of v % 16 ∧ (s.dev.reg R.SEC_CMD_ARG).toNat % 64 = 0 ∧ (s.dev.reg R.SEC_CMD_ARG).toNat + 112 ≤ hbmSize ∧
      LinesServe s.dev (s.dev.reg R.SEC_CMD_ARG).toNat 112 ∧ LinesServe s.dev (s.dev.reg R.SEC_CMD_ARG).toNat 64 ∧
      s.dev.readWaits (s.dev.reg R.SEC_CMD_ARG).toNat 112 = false ∧ s.dev.readWaits (s.dev.reg R.SEC_CMD_ARG).toNat 64 = false) ∧
    (∃ (s : State) (i : Nat), s.live = true ∧ s.dev.bit F.SEC_CMD_STATUS_BUSY = false ∧
      s.dev.keyOf ((s.dev.reg R.SEC_CMD_ARG).toNat % 2 ^ 32) = some i) ∧
    (∃ (s : State), s.live = true ∧ s.dev.bit F.SEC_CMD_STATUS_BUSY = false ∧ s.dev.bit F.SEC_STATUS_LOCKED = true ∧
      (s.dev.reg R.SEC_CMD_ARG).toNat + 1394 ≤ hbmSize ∧ LinesServe s.dev (s.dev.reg R.SEC_CMD_ARG).toNat 64 ∧
      s.dev.readWaits (s.dev.reg R.SEC_CMD_ARG).toNat 64 = false) ∧
    (∃ (s : State) (v : Word), s.live = true ∧ s.dev.bit F.SEC_CMD_STATUS_BUSY = false ∧ s.dev.sec.zero = none ∧ s.dev.sec.wait = [] ∧
      F.SEC_CMD_IMM.of v % 512 ≤ F.SEC_CMD_IMM.of v / 512 % 512 ∧ F.SEC_CMD_IMM.of v / 512 % 512 = 382 ∧
      ∀ g ∈ s.dev.grants, ∀ x ∈ g.2, x < F.SEC_CMD_IMM.of v % 512 ∨ F.SEC_CMD_IMM.of v / 512 % 512 < x) ∧
    (∀ op ∈ [1, 2, 6, 7], ∃ (s : State) (o : SecOp), s.live = true ∧ s.dev.sec.op = some o ∧ o.op = op ∧ s.dev.sec.zero = none ∧ s.dev.sec.wait = [] ∧
      o.arg + 64 + o.report.length ≤ hbmSize ∧ LinesServe s.dev (o.arg + 64) o.report.length ∧
      s.dev.repairing (o.arg + 64) o.report.length = false) ∧
    (∃ (s : State) (z : SecZero), s.live = true ∧ s.dev.sec.zero = some z ∧ z.todo = [] ∧ s.dev.sec.wait = [] ∧
      (∀ k < 12, (s.dev.kQueue k).any (secFill z.gibs) = false) ∧ (∀ g ∈ z.gibs, g < 384) ∧ z.gibs = [382, 383] ∧ z.bad.contains 382 = false) ∧
    (∃ (s : State) (v : Word), s.live = true ∧ v.toNat % 2 ^ 32 = 0xDEC00001 ∧ s.lifecycle = 1) := by
  refine ⟨⟨st allReady, secWord 8, by unfold LinesServe; decide +kernel⟩,
    ⟨st [] fun d => { d with sec := { d.sec with keys := [(0, ⟨true, 0, 7, zeros 32⟩)] } }, 0, by decide +kernel⟩,
    ⟨st ((F.SEC_STATUS_LOCKED, 1) :: allReady), by unfold LinesServe; decide +kernel⟩,
    ⟨st [], secWord (382 * 512 + 382), by decide +kernel⟩, ?_,
    ⟨st [] fun d => { d with sec := { d.sec with zero := some ⟨[382, 383], [], [383]⟩ } }, ⟨[382, 383], [], [383]⟩, by decide +kernel⟩,
    ⟨st [], 0xDEC00001, by decide +kernel⟩⟩
  intro op m
  refine ⟨st allReady fun d => { d with sec := { d.sec with op := some ⟨op, 0, 64, 0, [1, 2]⟩ } }, ⟨op, 0, 64, 0, [1, 2]⟩, ?_⟩
  simp only [List.mem_cons, List.not_mem_nil, or_false] at m
  rcases m with rfl | rfl | rfl | rfl <;> (unfold LinesServe; decide +kernel)

/-! ## The tick unit -/

/-- A tick unit in a state, as master or not, changed by g; ports 1 and 3 are up, and port 1 leads down. -/
def ticks (state master run : Nat) (g : Tick → Tick := id) (l : List (Fld × Nat) := []) : State :=
  st ([(F.TCK_STATUS_STATE, state), (F.TCK_CTRL_IS_MASTER, master), (F.TCK_CTRL_RUN, run), (F.LNK_PSTATUS_STATE 1, 4), (F.LNK_PSTATUS_STATE 3, 4),
    (F.TCK_CTRL_DOWN_MASK, 2), (F.TCK_NUMBER_NUMBER, 6), (F.TCK_CTRL_UP_PORT, 3)] ++ l) fun d => { d with time := 14400000, tick := g d.tick }

/-- A word of TCK_CTRL with no reserved value, but for SLIP_LAG, GRACE_US and UP_PORT all 0 or 15. -/
def ctrlWord : Word := wordOf F.TCK_CTRL_GRACE_US 1 ||| wordOf F.TCK_CTRL_SLIP_LAG 1 ||| wordOf F.TCK_CTRL_UP_PORT 15
def cand (p : Nat) : Candidate := ⟨p, 5, 127, 63⟩
def fire1 (slip start stop : Bool) : Fire := ⟨28800000, 28800000, 7, slip, start, stop, none⟩

theorem test_Elections_met :
    (∃ (s : State) (v : Word), s.live = true ∧ CtrlGood v ∧ ¬ Running s.dev ∧ s.dev.bit F.TCK_CTRL_RUN = false ∧ s.dev.electing = false) ∧
    (∃ (s : State) (domain : BitVec 16) (b : Candidate), s.live = true ∧ domain.toNat = s.dev.fld F.TCK_CTRL_DOMAIN_ID ∧
      s.dev.bit F.TCK_STATUS_ELECTED = false ∧ s.dev.tick.best = some b ∧ (∃ c, candBetter c b = false) ∧ (∃ c, candBetter c b = true) ∧
      s.dev.up 1 = true ∧ s.dev.portIn 1 = true) ∧
    (∃ (s : State) (b : Candidate), s.live = true ∧ s.dev.tick.best = some b ∧ b.x = 127 ∧ b.y = 63) :=
  ⟨⟨ticks 0 0 0, ctrlWord, by unfold CtrlGood Running; decide⟩,
   ⟨ticks 0 0 0 (fun t => { t with best := some (cand 4) }) [(F.LNK_REGION_VALID, 1), (F.LNK_REGION_X1, 5), (F.LNK_REGION_Y1, 5), (F.LNK_COORD_X, 2),
      (F.LNK_COORD_Y, 2)], 0, cand 4, by decide, by decide, by decide, by decide, ⟨cand 4, by decide⟩, ⟨cand 3, by decide⟩, by decide, by decide⟩,
   ⟨ticks 0 0 0 fun t => { t with best := some (cand 4) }, cand 4, by decide⟩⟩

theorem test_DomainControl_met :
    (∀ m ∈ [0, 1], ∃ (s : State) (v : Word), s.live = true ∧ CtrlGood v ∧ ¬ Running s.dev ∧ s.dev.bit F.TCK_CTRL_RUN = false ∧
      s.dev.fld F.TCK_CTRL_IS_MASTER = m) ∧
    (∃ (s : State) (v : Word), s.live = true ∧ CtrlGood v ∧ s.dev.bit F.TCK_CTRL_RUN = true ∧ s.dev.fld F.TCK_STATUS_STATE = 1 ∧
      s.dev.bit F.TCK_CTRL_IS_MASTER = false) ∧
    (∃ (s : State) (v : Word), s.live = true ∧ CtrlGood v ∧ s.dev.bit F.TCK_CTRL_RUN = true ∧ Running s.dev ∧ s.dev.bit F.TCK_CTRL_IS_MASTER = true ∧
      F.TCK_CTRL_MODE.of v = s.dev.fld F.TCK_CTRL_MODE) ∧
    (∀ p ∈ [4000, 1000000], ∃ (s : State) (v : Word), s.live = true ∧ F.TCK_PERIOD_PERIOD_NS.of v = p ∧ p ≤ s.dev.fld F.TCK_GOVERN_CEILING_NS ∧
      ¬ Running s.dev) ∧
    (∀ m ∈ [0, 1], ∃ (s : State) (v : Word), s.live = true ∧ F.TCK_PERIOD_PERIOD_NS.of v = 4000 ∧ 4000 ≤ s.dev.fld F.TCK_GOVERN_CEILING_NS ∧
      Running s.dev ∧ s.dev.fld F.TCK_CTRL_MODE = m ∧ s.dev.bit F.TCK_CTRL_IS_MASTER = true) := by
  refine ⟨?_, ⟨ticks 1 0 1, ctrlWord, by unfold CtrlGood; decide⟩, ⟨ticks 3 1 1, ctrlWord, by unfold CtrlGood Running; decide⟩, ?_, ?_⟩
  · intro m h
    simp only [List.mem_cons, List.not_mem_nil, or_false] at h
    rcases h with rfl | rfl
    · exact ⟨ticks 0 0 0, ctrlWord, by unfold CtrlGood Running; decide⟩
    · exact ⟨ticks 4 1 0, ctrlWord, by unfold CtrlGood Running; decide⟩
  · intro p h
    simp only [List.mem_cons, List.not_mem_nil, or_false] at h
    rcases h with rfl | rfl
    · exact ⟨ticks 0 0 0, 4000, by unfold Running; decide⟩
    · exact ⟨ticks 0 0 0, 1000000, by unfold Running; decide⟩
  · intro m h
    simp only [List.mem_cons, List.not_mem_nil, or_false] at h
    rcases h with rfl | rfl
    · exact ⟨ticks 2 1 1, 4000, by unfold Running; decide⟩
    · exact ⟨ticks 2 1 1 id [(F.TCK_CTRL_MODE, 1)], 4000, by unfold Running; decide⟩

/-- A marker of tick k whose delay is the greatest that the lead allows. -/
def marker1 (k : Nat) (start : Bool) : Marker := ⟨0, k, false, true, start, false, 5000, 24000⟩

theorem test_Markers_met :
    (∀ gov ∈ [[], [7]], ∃ (s : State) (n at_ : Nat), s.live = true ∧ s.dev.bit F.TCK_CTRL_IS_MASTER = true ∧ s.dev.tick.unsent = some (n, at_) ∧
      s.dev.tick.soft = none ∧ (gov = [] ∨ gov = [n]) ∧ s.dev.tick.gov = gov ∧ s.dev.tick.stopping = false ∧ 0 < s.dev.plannedNs ∧
      s.dev.plannedNs < s.dev.fld F.TCK_GOVERN_CEILING_NS ∧ bitOf (s.dev.fld F.TCK_CTRL_DOWN_MASK) 1 = true ∧ s.dev.up 1 = true) ∧
    (∃ (s : State) (p : PortId) (m : Marker), s.live = true ∧ s.dev.bit F.TCK_CTRL_IS_MASTER = false ∧ m.domain = s.dev.fld F.TCK_CTRL_DOMAIN_ID ∧
      (m.delay + s.dev.fld (linkDelay p)) * 9 = s.dev.fld F.TCK_LEAD_LEAD_NS * 144 ∧ s.dev.tick.fires = [] ∧ Running s.dev ∧ m.start = false ∧
      m.tick % 2 ^ 16 = (s.dev.fld F.TCK_NUMBER_NUMBER + 1) % 2 ^ 16 ∧ s.dev.tick.predicted = some s.dev.time) ∧
    (∃ (s : State) (p : PortId) (m : Marker), s.live = true ∧ s.dev.bit F.TCK_CTRL_IS_MASTER = false ∧ m.domain = s.dev.fld F.TCK_CTRL_DOMAIN_ID ∧
      (m.delay + s.dev.fld (linkDelay p)) * 9 ≤ s.dev.fld F.TCK_LEAD_LEAD_NS * 144 ∧ s.dev.tick.fires = [] ∧ s.dev.fld F.TCK_STATUS_STATE = 1 ∧
      m.start = true) ∧
    (∃ (s : State) (at_ : Nat), s.live = true ∧ Running s.dev ∧ s.dev.bit F.TCK_CTRL_IS_MASTER = false ∧ s.dev.tick.fires = [] ∧
      s.dev.tick.predicted = some at_) := by
  refine ⟨?_, ⟨ticks 2 0 1 fun t => { t with predicted := some 14400000 }, 1, marker1 7 false, by unfold Running; decide⟩,
    ⟨ticks 1 0 1, 1, marker1 0 true, by decide⟩, ⟨ticks 2 0 1 fun t => { t with predicted := some 14400000 }, 14400000, by unfold Running; decide⟩⟩
  intro gov m
  refine ⟨ticks 2 1 1 (fun t => { t with unsent := some (7, 43200000), gov := gov }) [(F.TCK_PERIOD_CURRENT_NS, 5000)], 7, 43200000, ?_⟩
  simp only [List.mem_cons, List.not_mem_nil, or_false] at m
  rcases m with rfl | rfl <;> decide

theorem test_Boundaries_met :
    (∀ f ∈ [fire1 false false false, fire1 true false false, fire1 false false true], ∃ (s : State) (rest : List Fire), s.live = true ∧
      s.dev.tick.fires = f :: rest ∧ s.dev.bit F.TTH_MODE_REQ_PENDING = false ∧ s.dev.ring.held = none ∧ Running s.dev ∧ f.start = false) ∧
    (∃ (s : State) (f : Fire) (rest : List Fire), s.live = true ∧ s.dev.tick.fires = f :: rest ∧ s.dev.bit F.TTH_MODE_REQ_PENDING = false ∧
      s.dev.ring.held = none ∧ s.dev.fld F.TCK_STATUS_STATE = 1 ∧ f.start = true ∧ f.stop = false ∧ f.slip = false) := by
  refine ⟨?_, ⟨ticks 1 0 1 fun t => { t with fires := [fire1 false true false] }, fire1 false true false, [], by decide⟩⟩
  intro f h
  refine ⟨ticks 2 0 1 fun t => { t with fires := [f] }, [], ?_⟩
  simp only [List.mem_cons, List.not_mem_nil, or_false] at h
  rcases h with rfl | rfl | rfl <;> (unfold Running; decide)

/-- An open tick, with a kernel that has not reached its SYNC.TICK on core 143, in a state. -/
def late (n : Nat) : State :=
  ticks 2 0 1 (fun t => { t with settled := false, predicted := some 14472000 }) [(F.SCP_CORE_STATUS_STATE 143, n)] |>.on fun d => d.modCore 143 fun c => { c with running := [(0, launch1)] }

theorem test_MissesAndSlips_met :
    (∃ (s : State) (at_ : Nat), s.live = true ∧ Running s.dev ∧ s.dev.tick.settled = false ∧ s.dev.tick.predicted = some at_ ∧
      ({ s.dev with time := max s.dev.time (at_ - s.dev.baseNs 500), tick := { s.dev.tick with settled := true } } : Dev).lateItems = []) ∧
    (∃ (s : State) (at_ : Nat), s.live = true ∧ Running s.dev ∧ s.dev.tick.settled = false ∧ s.dev.tick.predicted = some at_ ∧
      ({ s.dev with time := max s.dev.time (at_ - s.dev.baseNs 500), tick := { s.dev.tick with settled := true } } : Dev).lateItems ≠ []) ∧
    (∃ s : State, s.live = true ∧ s.dev.tick.missItems ≠ [] ∧ s.dev.tick.missItems.all s.dev.itemDone = true) ∧
    (∃ (s : State) (domain : BitVec 16), s.live = true ∧ Running s.dev ∧ domain.toNat = s.dev.fld F.TCK_CTRL_DOMAIN_ID ∧
      s.dev.bit F.TCK_CTRL_IS_MASTER = false ∧ s.dev.fld F.TCK_CTRL_UP_PORT < 4 ∧ s.dev.up (s.dev.fld F.TCK_CTRL_UP_PORT) = true) ∧
    (∃ (s : State) (domain : BitVec 16) (tick : BitVec 32) (n at_ : Nat), s.live = true ∧ Running s.dev ∧ domain.toNat = s.dev.fld F.TCK_CTRL_DOMAIN_ID ∧
      s.dev.bit F.TCK_CTRL_IS_MASTER = true ∧ tick.toNat = s.dev.fld F.TCK_NUMBER_NUMBER % 2 ^ 32 ∧ s.dev.tick.unsent = some (n, at_) ∧
      ∀ k ∈ s.dev.tick.slips, k ≤ s.dev.fld F.TCK_NUMBER_NUMBER ∨ max (s.dev.fld F.TCK_NUMBER_NUMBER + s.dev.fld F.TCK_CTRL_SLIP_LAG) n < k) ∧
    (∃ (s : State) (k : Nat), s.live = true ∧ Running s.dev ∧ s.dev.bit F.TCK_CTRL_IS_MASTER = true ∧ k ∈ s.dev.tick.slips ∧
      (s.dev.tick.slips.filter fun j => decide (k ≤ j) && decide (j < k + 16)).length = 8) ∧
    (∀ p ∈ [5000, 1000000], ∃ s : State, s.live = true ∧ Running s.dev ∧ s.dev.bit F.TCK_CTRL_IS_MASTER = true ∧ s.dev.bit F.TCK_CTRL_MODE = true ∧
      s.dev.fld F.TCK_GOVERN_MISS_THRESH ≤
        (s.dev.tick.slipLog.filter fun k => decide (s.dev.fld F.TCK_NUMBER_NUMBER < k + s.dev.fld F.TCK_GOVERN_WINDOW)).length ∧
      s.dev.tick.gov = [] ∧ s.dev.tick.soft = none ∧ s.dev.tick.slips = [9] ∧ s.dev.plannedNs = p ∧ s.dev.fld F.TCK_GOVERN_CEILING_NS = 1000000) := by
  refine ⟨⟨late 0, 14472000, by unfold Running; decide +kernel⟩, ⟨late 2, 14472000, by unfold Running; decide +kernel⟩,
    ⟨ticks 2 0 1 fun t => { t with missItems := [(16, 143, 9)] }, by decide +kernel⟩, ⟨late 0, 0, by unfold Running; decide⟩,
    ⟨ticks 2 1 1 fun t => { t with unsent := some (8, 43200000), slips := [6] }, 0, 6, 8, 43200000, by unfold Running; decide⟩,
    ⟨ticks 2 1 1 fun t => { t with slips := [1, 2, 3, 4, 5, 6, 7, 16, 17] }, 1, by unfold Running; decide⟩, ?_⟩
  intro p h
  simp only [List.mem_cons, List.not_mem_nil, or_false] at h
  rcases h with rfl | rfl
  · exact ⟨ticks 2 1 1 (fun t => { t with slipLog := [6, 5, 4, 3], slips := [9] }) [(F.TCK_CTRL_MODE, 1), (F.TCK_PERIOD_CURRENT_NS, 5000)], by
      unfold Running; decide +kernel⟩
  · exact ⟨ticks 2 1 1 (fun t => { t with slipLog := [6, 5, 4, 3], slips := [9] }) [(F.TCK_CTRL_MODE, 1), (F.TCK_PERIOD_CURRENT_NS, 1000000)], by
      unfold Running; decide +kernel⟩

/-- Ethernet up in the device's domain, with a step of an exchange before. -/
def exchange (run : Nat) (e : Option Ptp) : State := ticks 0 1 run (fun t => { t with ptp := e }) [(F.ETH_STATUS_LINK, 2)]

theorem test_TimeKeeping_met :
    (∃ (s : State) (p : PortId), s.live = true ∧ s.dev.up p = true) ∧
    (∃ s : State, s.live = true ∧ s.dev.bit F.TCK_CTRL_IS_MASTER = true ∧ s.dev.fld F.ETH_STATUS_LINK = 2 ∧
      ∃ e, s.dev.tick.ptp = some e ∧ e.seq = 4 ∧ e.t1 = none) ∧
    (∀ r ∈ [0, 1], ∃ s : State, s.live = true ∧ s.dev.bit F.TCK_CTRL_IS_MASTER = true ∧ s.dev.fld F.ETH_STATUS_LINK = 2 ∧
      (∃ (e : Ptp) (left t3 : Int), s.dev.tick.ptp = some e ∧ e.t1 = some left ∧ e.req = some (4, t3) ∧
        (if r = 0 then 0 < ((e.t2 - left) - ((90000 : Int) - 0 - t3)) / 2 else ((e.t2 - left) - ((99000 : Int) - 0 - t3)) / 2 < 0)) ∧
      s.dev.fld F.TCK_CTRL_RUN = r ∧ -50000 ≤ s.dev.tick.ppb ∧ s.dev.tick.ppb ≤ 50000) ∧
    (∃ s : State, s.live = true ∧ s.dev.bit F.TCK_STATUS_PTP_LOCK = true) := by
  refine ⟨⟨ticks 0 0 0, 3, by decide⟩, ⟨exchange 1 (some ⟨false, 4, none, 100000, none⟩), by decide, by decide, by decide, _, rfl, by decide⟩, ?_,
    ⟨st [(F.TCK_STATUS_PTP_LOCK, 1)], by decide⟩⟩
  intro r h
  simp only [List.mem_cons, List.not_mem_nil, or_false] at h
  rcases h with rfl | rfl
  · exact ⟨exchange 0 (some ⟨false, 4, some 90000, 100000, some (4, 99000)⟩), by decide, by decide, by decide, ⟨_, 90000, 99000, rfl, by decide⟩, by decide⟩
  · exact ⟨exchange 1 (some ⟨true, 4, some 100000, 100000, some (4, 98000)⟩), by decide, by decide, by decide, ⟨_, 100000, 98000, rfl, by decide⟩, by decide⟩

/-! ## The carousel, gradient tails, relay mode and the ripcord -/

/-- Station 3 of a ring of 8, its ports up, the clockwise list of 4 spools at 64. -/
def ring8 : List (Fld × Nat) :=
  [(F.TTH_STATION_N, 8), (F.TTH_STATION_STATION, 3), (F.TTH_STATION_NEXT_PORT, 1), (F.TTH_STATION_PREV_PORT, 3), (F.LNK_PSTATUS_STATE 1, 4),
   (F.LNK_PSTATUS_STATE 3, 4), (F.TTH_LIST_CW_LEN, 4), (F.TTH_LIST_CW_BASE, 2), (F.KEL_STATUS_STATE 0, 2), (F.TCK_STATUS_STATE, 2)]

/-- A store with some entries. -/
def put (l : List (Nat × Nat)) : Store Nat := l.foldl (fun s p => Store.put (fun _ => 0) s p.1 p.2) []

/-- The carousel runs at schedule index n, due to stage or receive index 8 clockwise. -/
def tether (n : Nat) (g : Dev → Dev := id) (l : List (Fld × Nat) := []) : State :=
  st (ring8 ++ [(F.TTH_CTRL_ENABLE, 1), (F.TTH_CTRL_CW_EN, 1), (F.TTH_STATUS_ACTIVE, 1), (F.TCK_SCHED_INDEX, n)] ++ l) fun d =>
    g { d.freeSlots with ring := { d.ring with own := put [(0, 8)], arr := put [(0, 8)] } }

/-- Index 8 lands in slot 2, with a header or none. -/
def landing8 (ok : Bool) (h : Option SpoolHdr) (d : Dev) : Dev :=
  (d.setFlags 2 true false false false false).setSlot 2 { Slot.free with live := true, idx := 8, hdrOk := ok, hdr := h }

/-- The header of the null spool of index 8 at its arrival, with a tail length. -/
def header8 (tail : Nat) : List Byte := spoolHdrBytes ((tether 7).dev.homeAt 0 0) 0 true (tail != 0) 1 8 8 0 tail 0 0
def hdr8 (tail : Nat) : SpoolHdr := spoolHdr (header8 tail)
def bits512 (bs : List Byte) : BitVec 512 := BitVec.ofNat 512 (leNat bs)
/-- The list entry of round 1: body of 128 bytes at 4096. -/
def entry1 : List Byte := leBytes 8 4096 ++ leBytes 4 128 ++ zeros 20
def full8 (h : SpoolHdr) (d : Dev) : Dev := (d.setFlags 2 false true true false false).setSlot 2 { Slot.free with live := true, idx := 8, hdr := some h }

theorem test_Carousel_enabled :
    (∃ s : State, s.live = true ∧ s.dev.bit F.TTH_STATUS_ACTIVE = false ∧ s.dev.bit F.TTH_CTRL_MODE = false ∧ s.dev.ringN = 4 ∧
      s.dev.portUsable (s.dev.fld F.TTH_STATION_NEXT_PORT) = true ∧ s.dev.portUsable (s.dev.fld F.TTH_STATION_PREV_PORT) = true) ∧
    (∃ s : State, s.live = true ∧ s.dev.bit F.TTH_STATUS_ACTIVE = false ∧ s.dev.bit F.TTH_CTRL_MODE = false ∧ s.dev.ringN = 8192 ∧
      s.dev.portUsable (s.dev.fld F.TTH_STATION_NEXT_PORT) = true ∧ s.dev.portUsable (s.dev.fld F.TTH_STATION_PREV_PORT) = true) ∧
    (∃ (s : State) (v : Word), s.live = true ∧ F.TTH_MODE_REQ_TARGET.of v = 1 ∧ s.dev.fld F.TTH_CTRL_MODE = 0 ∧ Running s.dev ∧
      s.dev.sched % 2 ^ 48 + 1 = F.TTH_MODE_REQ_AT_INDEX.of v ∧ s.dev.bit F.TTH_CTRL_ENABLE = true) :=
  ⟨⟨st (ring8 ++ [(F.TTH_STATION_N, 4)]), by decide⟩, ⟨st (ring8 ++ [(F.TTH_STATION_N, 8192)]), by decide⟩,
   ⟨tether 7, wordOf F.TTH_MODE_REQ_TARGET 1 ||| wordOf F.TTH_MODE_REQ_AT_INDEX 8, by unfold Running; decide +kernel⟩⟩

theorem test_Carousel_met :
    (∀ staging ∈ [false, true], ∃ (s : State) (dir : Dir), s.live = true ∧
      let i := if staging then s.dev.ownIdx dir else s.dev.arrIdx dir
      s.dev.tethered = true ∧ s.dev.spoolAt dir i = true ∧ i = s.dev.sched + 1 ∧ s.dev.tick.settled = false ∧ s.dev.fld F.TCK_STATUS_STATE ≠ 3 ∧
      s.dev.landing dir i = false ∧ s.dev.drained (slotFor dir i) = true) ∧
    (∃ (s : State) (dir : Dir), s.live = true ∧
      let i := s.dev.arrIdx dir
      s.dev.tethered = true ∧ s.dev.spoolAt dir i = true ∧ i ≤ s.dev.sched + 1 ∧ s.dev.fld F.TCK_STATUS_STATE ≠ 3 ∧ s.dev.landing dir i = false ∧
      s.dev.drained (slotFor dir i) = false ∧ s.dev.bit F.TTH_CTRL_SLOT_FAULT = false) ∧
    (∃ (s : State) (dir : Dir), s.live = true ∧
      let i := s.dev.ownIdx dir
      let entry := s.dev.fld (byDir dir F.TTH_LIST_CW_BASE F.TTH_LIST_CCW_BASE) * 32 + 32 * s.dev.roundOf i
      let bs := s.dev.rd entry 32
      s.dev.tethered = true ∧ s.dev.spoolAt dir i = true ∧ i ≤ s.dev.sched + 1 ∧ s.dev.tick.settled = false ∧ s.dev.fld F.TCK_STATUS_STATE ≠ 3 ∧
      s.dev.landing dir i = false ∧ s.dev.repairing entry 32 = false ∧ s.dev.repairing (kNat bs 0 8) (kNat bs 8 4) = false ∧
      s.dev.drained (slotFor dir i) = true ∧ entry + 32 ≤ hbmSize ∧ LinesServe s.dev entry 32 ∧ entryBad (s.dev.tailFmt dir) bs = false ∧
      bitOf (kNat bs 24 2) 0 = false ∧ kNat bs 8 4 ≠ 0 ∧ LinesServe s.dev (kNat bs 0 8) (kNat bs 8 4) ∧
      s.dev.keelWrites (kNat bs 0 8) (kNat bs 8 4) = false) ∧
    (∃ (s : State) (dir : Dir) (h : SpoolHdr), s.live = true ∧
      let i := s.dev.ownIdx dir
      let k := slotFor dir i
      s.dev.tethered = true ∧ LandingAt s.dev dir i ∧ (s.dev.slot k).hdrOk = true ∧ (s.dev.slot k).hdr = some h ∧ s.dev.directoryOk k h = true ∧
      s.dev.sched + 1 = i ∧ s.dev.arrIdx dir = i ∧ h.tailLen = 0 ∧ ([] : List Byte).length = h.bodyLen ∧
      (s.dev.wr (landSlot k + 64) []).directoryOk k h = true) := by
  refine ⟨?_, ⟨tether 7 fun d => d.setFlags 2 false true false false false, 0, by decide +kernel⟩,
    ⟨tether 7 (fun d => d.wr 96 entry1) allReady, 0, by unfold LinesServe; decide +kernel⟩,
    ⟨tether 7 (landing8 true (some (hdr8 0))), 0, hdr8 0, by unfold LandingAt; decide +kernel⟩⟩
  intro b h
  simp only [List.mem_cons, List.not_mem_nil, or_false] at h
  rcases h with rfl | rfl <;> exact ⟨tether 7, 0, by decide +kernel⟩

theorem test_Carousel_headers :
    (∃ (s : State) (dir : Dir) (header : BitVec 512), s.live = true ∧
      let i := s.dev.arrIdx dir
      let h := spoolHdr (leBytes 64 header.toNat)
      s.dev.tethered = true ∧ LandingAt s.dev dir i ∧ (s.dev.slot (slotFor dir i)).hdrOk = false ∧ h.crcOk = true ∧ h.major = 1 ∧ h.dir = dir.val ∧
      h.home = s.dev.homeAt dir (s.dev.offsetOf i) ∧ h.seq = s.dev.roundOf i ∧ h.n = s.dev.ringN ∧
      h.sched = s.dev.startIdx + s.dev.roundOf i * s.dev.ringN) ∧
    (∃ (s : State) (dir : Dir) (bad late : BitVec 512), s.live = true ∧
      let i := s.dev.arrIdx dir
      s.dev.tethered = true ∧ LandingAt s.dev dir i ∧ (s.dev.slot (slotFor dir i)).hdrOk = false ∧ (spoolHdr (leBytes 64 bad.toNat)).crcOk = false ∧
      (spoolHdr (leBytes 64 late.toNat)).crcOk = true ∧ (spoolHdr (leBytes 64 late.toNat)).major = 1 ∧
      (spoolHdr (leBytes 64 late.toNat)).seq ≠ s.dev.roundOf i) :=
  ⟨⟨tether 7 (landing8 false none), 0, bits512 (header8 0), by unfold LandingAt; decide +kernel⟩,
   ⟨tether 7 (landing8 false none), 0, 1, bits512 (spoolHdrBytes 0 0 true false 2 8 8 0 0 0 0), by unfold LandingAt; decide +kernel⟩⟩

theorem test_Carousel_slots :
    (∃ (s : State) (slot : Fin 6), s.live = true ∧
      let k := slot.val
      let p := s.dev.outPort (k / 3)
      s.dev.full k = true ∧ s.dev.bit (F.TTH_SLOT_FLAGS_FORWARDED k) = false ∧ s.dev.up p = true ∧ s.dev.slotPayload p k = false ∧
      (s.dev.slot k).live = true ∧ s.dev.links.vl0Stop = false ∧ s.dev.bit F.TTH_CTRL_MODE = false ∧ s.dev.slotTail k = none) ∧
    (∃ (s : State) (slot : Fin 6), s.live = true ∧
      let k := slot.val
      s.dev.full k = true ∧ s.dev.bit (F.TTH_SLOT_FLAGS_EXPANDED k) = false ∧ s.dev.bit F.TTH_CTRL_MODE = false ∧ (s.dev.slot k).hdr.isSome = true ∧
      s.dev.codec.secs.any (fun x => x.2.slot == k) = false ∧ s.dev.slotTail k = none) :=
  ⟨⟨tether 7 (full8 (hdr8 0)), 2, by decide +kernel⟩, ⟨tether 7 fun d => (full8 (hdr8 0) d).setFlags 2 false true false true false, 2, by decide +kernel⟩⟩

/-- The header of a block of 1,024 zeros as index 0, and the tail's job: context 5 of job 7, whose watermark on core 0 covers one block. -/
def zeroHdr : List Byte := [0, 0, 0, 0, 0, 16, 0, 16, 0, 0, 0, 0, 137, 65, 249, 152]
def tailJob : List (Fld × Nat) :=
  [(F.CDC_CTRL_SPOOL_CTX, 5), (F.STR_CTX_JOB 5, 7), (F.SCP_CTX0_VALID 0, 1), (F.SCP_CTX0_JOB 0, 7), (F.SCP_CTX0_SCP_BOUND4K 0, 16),
   (F.SCP_PWR_SEG_READY 0, 63)]
def tailState : State := tether 7 (fun d => ((full8 (hdr8 4176) d).wr (landSlot 2 + 64) zeroHdr).setMb (scpWin 0) 1) tailJob

def crcStep (c : Nat) (b : Byte) : Nat := crcByte 0x82F63B78 c b.toNat

/-- Each value is the one before it after 64 more zero bytes. -/
def crcChain : List Nat → Bool
  | x :: y :: l => (zeros 64).foldl crcStep x == y && crcChain (y :: l)
  | _ => true

theorem crc_chain : ∀ (l : List Nat) (x : Nat), crcChain (x :: l) = true → (zeros (64 * l.length)).foldl crcStep x = (x :: l).getLast (by simp)
  | [], _, _ => rfl
  | y :: l, x, h => by
    obtain ⟨h1, h2⟩ := Bool.and_eq_true_iff.mp (show ((zeros 64).foldl crcStep x == y && crcChain (y :: l)) = true from h)
    have e : zeros (64 * (y :: l).length) = zeros 64 ++ zeros (64 * l.length) := by
      unfold zeros; rw [List.length_cons, Nat.mul_succ, Nat.add_comm, List.replicate_add]
    rw [e, List.foldl_append, eq_of_beq h1, crc_chain l y h2]
    exact (List.getLast_cons (by simp)).symm

/-- The CRC-32C register after every 64 of 4,096 zero bytes. -/
def crcZeros : List Nat :=
  [4294967295, 4231468184, 4158167844, 2345306063, 1200442991, 64332339, 1158271177, 3425213895, 3473084991, 968469611, 534250289, 2006181900,
   3318006521, 4236110739, 225952960, 3222365018, 290529667, 2519867196, 2823063697, 1461178209, 1921003501, 2339865869, 1799837726,
   3119513621, 175100626, 3713578410, 4225181274, 2891649990, 1540069788, 2016383911, 1357258748, 2111644262, 1534491824, 5776267, 582457874,
   131951082, 332020171, 1142812627, 3827288015, 4207782254, 1307576961, 3948380880, 663433124, 3452895946, 609686098, 634967350, 3628614574,
   876736523, 3746741852, 3743075598, 4052690100, 1974303542, 176297486, 1435977454, 397096062, 3936728851, 4151263722, 1959498830,
   2176660693, 4226718853, 338346065, 3070616696, 1420788027, 2740820386, 1728495222]

theorem crc_fold (l : List Byte) : crc32c l = l.foldl crcStep 0xFFFFFFFF ^^^ 0xFFFFFFFF := rfl

/-- The CRC-32C of 4,096 zero bytes. -/
theorem crc_zeros : crc32c (zeros 4096) = 2566472073 := by
  have e := crc_chain crcZeros.tail 0xFFFFFFFF (by decide +kernel)
  have l : 64 * crcZeros.tail.length = 4096 := by decide
  rw [l] at e
  have g : (0xFFFFFFFF :: crcZeros.tail).getLast (by simp) = 1728495222 := by decide
  rw [g] at e
  rw [crc_fold, e]
  decide

theorem rd_add (d : Dev) : ∀ (m n a : Nat), d.rd a (m + n) = d.rd a m ++ d.rd (a + m) n
  | 0, n, a => by rw [Nat.zero_add]; rfl
  | m + 1, n, a => by
    rw [show m + 1 + n = (m + n) + 1 by omega]
    show d.mb a :: d.rd (a + 1) (m + n) = d.mb a :: (d.rd (a + 1) m ++ _)
    rw [rd_add d m n (a + 1), show a + 1 + m = a + (m + 1) by omega]

theorem rd_zeros (d : Dev) : ∀ (n a : Nat), (∀ j, a ≤ j → j < a + n → d.mb j = 0) → d.rd a n = zeros n
  | 0, _, _ => rfl
  | n + 1, a, h => by
    show d.mb a :: d.rd (a + 1) n = 0 :: zeros n
    rw [h a (by omega) (by omega), rd_zeros d n (a + 1) fun j h1 h2 => h j (by omega) (by omega)]

/-- The block as it stands in the slot. -/
theorem tail_block : tailState.dev.rd (landSlot 2 + 64) 4112 = zeroHdr ++ zeros 4096 := by
  have h1 : tailState.dev.rd (landSlot 2 + 64) 16 = zeroHdr := by decide +kernel
  have h2 : tailState.dev.rd (landSlot 2 + 64 + 16) 4096 = zeros 4096 := by
    refine rd_zeros _ _ _ fun j h1 h2 => ?_
    show ((((full8 (hdr8 4176) _).wr (landSlot 2 + 64) zeroHdr).setMb (scpWin 0) 1) : Dev).mb j = 0
    have e1 : zeroHdr.length = 16 := rfl
    have e2 : landSlot 2 = 0x90004000000 := rfl
    have e3 : scpWin 0 = 0x80000000000 := rfl
    rw [Dev.mb_setMb, if_neg (by omega), Dev.mb_wr_out _ _ _ _ (by omega)]
    unfold Dev.mb
    rw [Dev.veil, if_pos (Or.inr (by unfold hbmSize; omega))]
    have m : (tether 7 (full8 (hdr8 4176)) tailJob).dev.mem = [] := by decide +kernel
    exact (congrArg (fun l => Store.get memDefault l j ^^^ 0) m).trans (by simp [Store.get, memDefault])
  rw [rd_add _ 16 4096, h1, h2]

theorem test_GradientTails_block :
    ∃ (s : State) (slot : Fin 6) (b blocks : Nat) (d : Dev) (part : List Byte), s.live = true ∧
      s.dev.tethered = true ∧ s.dev.full slot.val = true ∧ s.dev.slotTail slot.val = some blocks ∧ b < blocks ∧ (s.dev.slot slot.val).live = true ∧
      (s.dev.slot slot.val).tailDone.contains b = false ∧ s.dev.tailFmt (slot.val / 3) = 0 ∧ (s.dev.slot slot.val).own = false ∧
      s.dev.partial_ (slot.val / 3) b = some (d, part) ∧ tailBlockOk 0 b (s.dev.rd (s.dev.tailAt slot.val + b * 4112) 4112) = true := by
  have h : (tailState.dev.partial_ 0 0).isSome = true := by decide +kernel
  obtain ⟨⟨d, part⟩, e⟩ := Option.isSome_iff_exists.mp h
  refine ⟨tailState, 2, 0, 1, d, part, by decide +kernel, by decide +kernel, by decide +kernel, by decide +kernel, by decide, by decide +kernel, by decide +kernel,
    by decide +kernel, by decide +kernel, e, ?_⟩
  have a : tailState.dev.tailAt 2 + 0 * 4112 = landSlot 2 + 64 := by decide +kernel
  show tailBlockOk 0 0 (tailState.dev.rd (tailState.dev.tailAt 2 + 0 * 4112) 4112) = true
  rw [a, tail_block]
  have hd : blockHdr (zeroHdr ++ zeros 4096) = ⟨0, 0, 0, 0, 0, 4096, 4096, 0, 2566472073, false⟩ := by decide +kernel
  have dr : (zeroHdr ++ zeros 4096).drop 16 = zeros 4096 := rfl
  have tk : (zeros 4096).take 4096 = zeros 4096 := by unfold zeros; rw [List.take_replicate, Nat.min_self]
  unfold tailBlockOk
  rw [hd, dr]
  dsimp only
  rw [tk, crc_zeros]
  decide

/-- The trailer of a tail that `added` stations have added to, with its flags. -/
def trailer (added flags : Nat) : List Byte :=
  let bs := zeros 1 ++ leBytes 1 1 ++ zeros 1 ++ leBytes 1 flags ++ zeros 4 ++ leBytes 2 added ++ zeros 50
  bs ++ leBytes 4 (crc32c bs)
def homeHdr (tail : Nat) : List Byte := spoolHdrBytes 3 0 true (tail != 0) 0 8 0 0 tail 0 0
def back1 : Return := ⟨0, hdr8 4176, []⟩

theorem test_GradientTails_met :
    (∀ tail ∈ [0, 64], ∃ (s : State) (dir : Dir) (header : BitVec 512), s.live = true ∧
      let h := spoolHdr (leBytes 64 header.toNat)
      let r := s.dev.retCount dir
      s.dev.tethered = true ∧ r < s.dev.listLen dir ∧ s.dev.startIdx + r * s.dev.ringN + (s.dev.ringN - 1) = s.dev.sched ∧
      s.dev.ring.returns.any (fun x => x.dir == dir.val) = false ∧ (s.dev.headerCheck h dir s.dev.station r).isNone = true ∧ h.tailLen = tail) ∧
    (∀ flag ∈ [0, 2], ∃ (s : State) (dir : Dir) (tr : BitVec 512) (x : Return), s.live = true ∧
      let bs := leBytes 64 tr.toNat
      s.dev.tethered = true ∧ s.dev.ring.returns.find? (fun x => x.dir == dir.val) = some x ∧ trailerOk (s.dev.tailFmt dir) s.dev.ringN bs = true ∧
      bitOf (kNat bs 3 1) 1 = (flag == 2) ∧ s.dev.bit (byDir dir F.TTH_GRAD_CW_VALID F.TTH_GRAD_CCW_VALID) = false) ∧
    (∃ (s : State) (dir : Dir) (tr : BitVec 512) (x : Return), s.live = true ∧
      let bs := leBytes 64 tr.toNat
      s.dev.tethered = true ∧ s.dev.ring.returns.find? (fun x => x.dir == dir.val) = some x ∧ trailerOk (s.dev.tailFmt dir) s.dev.ringN bs = true ∧
      let a := s.dev.gradAt dir x.hdr.seq
      s.dev.repairing a 32 = false ∧ bitOf (kNat bs 3 1) 1 = false ∧ s.dev.bit (byDir dir F.TTH_GRAD_CW_VALID F.TTH_GRAD_CCW_VALID) = true ∧ LinesServe s.dev a 32 ∧
      kNat (s.dev.rd a 32) 0 8 + 64 * (64 * tailBlocks (s.dev.tailFmt dir) x.hdr.tailLen) ≤ hbmSize ∧
      ∀ r ∈ s.dev.home.reqs, r.id < s.dev.home.nextId) ∧
    (∃ (s : State) (dir : Dir) (good bad : BitVec 512) (h : SpoolHdr), s.live = true ∧
      let i := s.dev.arrIdx dir
      let k := slotFor dir i
      s.dev.tethered = true ∧ LandingAt s.dev dir i ∧ (s.dev.slot k).hdrOk = true ∧ (s.dev.slot k).hdr = some h ∧ h.tailLen ≠ 0 ∧
      trailerOk (s.dev.tailFmt dir) (s.dev.offsetOf i) (leBytes 64 good.toNat) = true ∧
      trailerOk (s.dev.tailFmt dir) (s.dev.offsetOf i) (leBytes 64 bad.toNat) = false) ∧
    (∀ g ∈ [(⟨0, 4, 6, 0, true⟩ : Grad), ⟨0, 4, 6, 0, false⟩, ⟨0, 4, 6, 0x5F000000000, false⟩], ∃ (s : State) (dir : Dir), s.live = true ∧
      s.dev.ring.grads.find? (fun g => g.dir == dir.val) = some g ∧
      s.dev.home.reqs.any (fun r => decide (g.first ≤ r.id) && decide (r.id < g.last)) = false ∧ (∀ q ∈ s.dev.ring.grads, q.last ≤ s.dev.home.nextId) ∧
      s.dev.repairing g.kcmd 64 = false ∧ s.dev.kFull (if (s.dev.mb (g.kcmd + 1)).toNat < 12 then (s.dev.mb (g.kcmd + 1)).toNat else 0) (s.dev.rd g.kcmd 64) = false) := by
  refine ⟨?_, ?_, ⟨tether 7 (fun d => { d with ring := { d.ring with returns := [back1] } }) ((F.TTH_GRAD_CW_VALID, 1) :: allReady), 0,
      bits512 (trailer 8 0), back1, by unfold LinesServe; decide +kernel⟩,
    ⟨tether 7 (landing8 true (some (hdr8 64))), 0, bits512 (trailer 0 0), bits512 (trailer 1 0), hdr8 64, by unfold LandingAt; decide +kernel⟩, ?_⟩
  · intro tail m
    simp only [List.mem_cons, List.not_mem_nil, or_false] at m
    rcases m with rfl | rfl
    · exact ⟨tether 7, 0, bits512 (homeHdr 0), by decide +kernel⟩
    · exact ⟨tether 7, 0, bits512 (homeHdr 64), by decide +kernel⟩
  · intro flag m
    simp only [List.mem_cons, List.not_mem_nil, or_false] at m
    rcases m with rfl | rfl
    · exact ⟨tether 7 fun d => { d with ring := { d.ring with returns := [back1] } }, 0, bits512 (trailer 8 0), back1, by decide +kernel⟩
    · exact ⟨tether 7 fun d => { d with ring := { d.ring with returns := [back1] } }, 0, bits512 (trailer 8 2), back1, by decide +kernel⟩
  · intro g m
    refine ⟨st [] fun d => { d with ring := { d.ring with grads := [g] }, home := { d.home with nextId := 6 } }, 0, ?_⟩
    simp only [List.mem_cons, List.not_mem_nil, or_false] at m
    rcases m with rfl | rfl | rfl <;> decide +kernel

/-- Relay mode on station 3, which leads its first packet; changed by g. -/
def relay3 (g : Dev → Dev := id) (l : List (Fld × Nat) := []) : State :=
  st (ring8 ++ [(F.TTH_CTRL_ENABLE, 1), (F.TTH_CTRL_CW_EN, 1), (F.TTH_CTRL_MODE, 1), (F.TTH_RELAY_CTRL_FIRST_LEAD, 3),
    (F.TTH_RELAY_CTRL_SLICE_MAX, 4)] ++ l) fun d => g d.freeSlots
/-- A command of TTH_RELAY_CMD for a slot: len lines of 64 bytes at 4096. -/
def relayWord (slot len : Nat) : Word :=
  wordOf F.TTH_RELAY_CMD_SLOT slot ||| wordOf F.TTH_RELAY_CMD_LEN64 len ||| wordOf F.TTH_RELAY_CMD_ADDR 64

/-- The packet expected next clockwise is in slot k, received so far as its flags say. -/
def packet (q : Slot) (inF full : Bool) (d : Dev) : Dev :=
  let n := d.expected 0
  let k := slotFor 0 n
  let d := (d.setFlags k inF full false false false).setSlot k { q with rSeq := n }
  { d.setFld (inflight k) 1 with ring := { d.ring with cur := put [(0, n + 1)] } }
def slotIn : Slot := { Slot.free with live := true, hdrOk := true, rVec := 128, rMax := 256, rPos := 64 }

theorem test_Relay_commands :
    (∃ (s : State) (v : Word), s.live = true ∧ F.TTH_RELAY_CMD_SLOT.of v ≠ 7 ∧
      let addr := F.TTH_RELAY_CMD_ADDR.of v * 64
      let len := F.TTH_RELAY_CMD_LEN64.of v * 64
      s.dev.launchRefused len = false ∧ s.dev.tick.settled = false ∧ s.dev.fld F.TCK_STATUS_STATE ≠ 3 ∧ 0 < len ∧ addr + len ≤ hbmSize ∧
      LinesServe s.dev addr len ∧ s.dev.outPort 0 ≠ s.dev.outPort 1 ∧ s.dev.up (s.dev.outPort 0) = true) ∧
    (∃ (s : State) (v : Word), s.live = true ∧ F.TTH_RELAY_CMD_SLOT.of v ≠ 7 ∧ s.dev.launchRefused (F.TTH_RELAY_CMD_LEN64.of v * 64) = false ∧
      s.dev.fld F.TCK_STATUS_STATE = 3) ∧
    (∃ (s : State) (v : Word), s.live = true ∧ s.dev.relaying = true ∧
      let k := F.TTH_RELAY_CMD_SLOT.of v
      let len := F.TTH_RELAY_CMD_LEN64.of v * 64
      0 < len ∧ F.TTH_RELAY_CMD_ADDR.of v * 64 + len ≤ hbmSize ∧ LinesServe s.dev (F.TTH_RELAY_CMD_ADDR.of v * 64) len ∧ k < 6 ∧
      s.dev.bit (inflight k) = true ∧ (s.dev.slot k).rOwn = false ∧ len = (s.dev.slot k).rMax) ∧
    (∃ (s : State) (v : Word) (q : Launched), s.live = true ∧ s.dev.relaying = true ∧
      let len := F.TTH_RELAY_CMD_LEN64.of v * 64
      0 < len ∧ F.TTH_RELAY_CMD_ADDR.of v * 64 + len ≤ hbmSize ∧ LinesServe s.dev (F.TTH_RELAY_CMD_ADDR.of v * 64) len ∧
      F.TTH_RELAY_CMD_SLOT.of v = 6 ∧ s.dev.ring.launched = some q ∧ q.own = false ∧ len = q.max) :=
  ⟨⟨relay3 id allReady, relayWord 0 2, by unfold LinesServe; decide +kernel⟩, ⟨relay3 id [(F.TCK_STATUS_STATE, 3)], relayWord 0 2, by decide +kernel⟩,
   ⟨relay3 (packet slotIn false true) allReady, relayWord 1 4, by unfold LinesServe; decide +kernel⟩,
   ⟨relay3 (fun d => { d with ring := { d.ring with launched := some ⟨0, 0, 256, false⟩ } }) allReady, relayWord 6 4, ⟨0, 0, 256, false⟩, by
     unfold LinesServe; decide +kernel⟩⟩

def relayHdr : List Byte := let d := (relay3).dev; relayHdrBytes (d.leadOf (d.expected 0)) 0 (d.expected 0) 8 5 128 256

theorem test_Relay_traffic :
    (∃ (s : State) (dir : Dir) (header : BitVec 512), s.live = true ∧ s.dev.relaying = true ∧ s.dev.ring.turnaround = false ∧
      let n := s.dev.expected dir
      let k := slotFor dir n
      let bs := leBytes 64 header.toNat
      s.dev.arriving k = false ∧ s.dev.drained k = true ∧ crc32c (bs.take 60) = kNat bs 60 4 ∧ kNat bs 1 1 = 1 ∧ kNat bs 6 2 = s.dev.ringN ∧
      kNat bs 4 2 = n % 65536 ∧ kNat bs 2 2 % 8192 = s.dev.leadOf n ∧ kNat bs 2 2 / 8192 % 2 = dir.val) ∧
    (∃ (s : State) (dir : Dir) (k : Nat) (vec : List Byte), s.live = true ∧ Receiving s.dev dir k ∧ s.dev.arriving k = true ∧
      vec.length = (s.dev.slot k).rVec) ∧
    (∃ (s : State) (dir : Dir) (k : Nat) (slice bad : List Byte), s.live = true ∧ Receiving s.dev dir k ∧ s.dev.full k = true ∧
      slice.length = 16 + kNat slice 4 4 ∧ crc32c (slice.drop 16) = kNat slice 12 4 ∧ bad.length = 16 + kNat bad 4 4 ∧
      crc32c (bad.drop 16) ≠ kNat bad 12 4 ∧ s.dev.meeting (s.dev.slot k).rSeq = false) :=
  ⟨⟨relay3, 0, bits512 relayHdr, by decide +kernel⟩, ⟨relay3 (packet slotIn true false), 0, 1, zeros 128, by unfold Receiving; decide +kernel⟩,
   ⟨relay3 (packet slotIn false true) [(F.TTH_RELAY_CTRL_FIRST_LEAD, 5)], 0, slotFor 0 ((relay3 id [(F.TTH_RELAY_CTRL_FIRST_LEAD, 5)]).dev.expected 0), sliceBytes 4 [1, 2, 3, 4], zeros 16 |>.set 12 1, by unfold Receiving; decide +kernel⟩⟩

/-- The packet's meeting station is this one: the lead stands half the ring away. -/
theorem test_Relay_meets :
    ∃ (s : State) (dir : Dir) (k : Nat) (marker : BitVec 128), s.live = true ∧ Receiving s.dev dir k ∧ s.dev.full k = true ∧
      s.dev.meeting (s.dev.slot k).rSeq = true ∧
      kNat (leBytes 16 marker.toNat) 4 4 = (if dir.val = 0 then s.dev.ringN / 2 else (s.dev.ringN + 1) / 2 - 1) :=
  ⟨relay3 (packet slotIn false true) [(F.TTH_RELAY_CTRL_FIRST_LEAD, 7)], 0, slotFor 0 ((relay3 id [(F.TTH_RELAY_CTRL_FIRST_LEAD, 7)]).dev.expected 0),
    4 * 2 ^ 32, by unfold Receiving; decide +kernel⟩

/-- A region of 6 x 4 devices, whose quad at (2, 2) has failed. -/
def bridle : State :=
  st [(F.LNK_REGION_VALID, 1), (F.LNK_REGION_X1, 5), (F.LNK_REGION_Y1, 3)] fun d =>
    { d with links := { d.links with faults := [(2, 2)], faultFrom := some 100 } }

theorem test_Ripcords_met :
    (∃ s : State, s.live = true ∧ Running s.dev ∧ s.dev.coreState 3 = 2) ∧
    (∃ (s : State) (p : PortId) (domain : BitVec 16) (x : BitVec 7) (y : BitVec 6) (serial : BitVec 16), s.live = true ∧ s.dev.up p = true ∧
      domain.toNat = s.dev.fld F.LNK_REGION_DOMAIN_ID ∧ s.dev.links.seen.contains (x.toNat, y.toNat, serial.toNat) = true ∧
      s.dev.links.seen.contains (x.toNat, y.toNat, (serial + 1).toNat) = false ∧ s.dev.links.faults.contains (x.toNat, y.toNat) = false) :=
  ⟨⟨st (kernel 3 ++ ring8), by unfold Running; decide +kernel⟩,
   ⟨st ring8 fun d => { d with links := { d.links with seen := [(127, 63, 9)] } }, 1, 0, 127, 63, 9, by decide⟩⟩

theorem test_Ripcords_bridle :
    ∃ (s : State) (at_ : Nat), s.live = true ∧ s.dev.links.faultFrom = some at_ ∧ s.dev.links.faults ≠ [] ∧ s.dev.quadAligned = true ∧
      s.dev.routesFixed = false ∧ s.dev.electing = false ∧
      let cut := s.dev.links.faults.map fun v => (v.1 / 2, v.2 / 2)
      let tree := keptTree (s.dev.quads.filter fun q => !(cut.contains q))
      let ok := fun x y => tree.any (·.1 == (x / 2, y / 2))
      ok (s.dev.fld F.LNK_COORD_X) (s.dev.fld F.LNK_COORD_Y) = true ∧ (s.dev.bridleRoutes ok).isSome = true := by
  refine ⟨bridle, 100, by decide, by decide, by decide, by decide +kernel, by decide +kernel, by decide, ?_, ?_⟩
  · decide +kernel
  · decide +kernel

/-! ## Codec, contexts, channels and transfers -/

/-- HBM reads as some bytes at an address. -/
def mem (a : Nat) (bs : List Byte) (d : Dev) : Dev := d.wr a bs
/-- The table whose one code of length 1 stands for symbol 0, and its lengths. -/
def lens0 : List Nat := (List.replicate 256 0).set 0 1
def table0 : List Byte := tableOf lens0
def tableWord (a : Nat) : Word := BitVec.ofNat 64 a

/-- A histogram of one symbol at 0 and a table at 2048. -/
def tables (g : Dev → Dev := id) : State := st (allReady ++ [(F.CDC_TDIR_VALID, 1)]) fun d => g (mem 2048 table0 (mem 0 [1] d))

theorem test_CodecTables_met :
    (∃ (s : State) (v : Word) (ls : List Nat), s.live = true ∧ s.dev.bit F.CDC_TBL_STATUS_BUSY = false ∧ s.dev.bit F.CDC_TDIR_VALID = true ∧
      let k := 16 * (v.toNat / 2 ^ 48 % 2048) + v.toNat / 2 ^ 44 % 16
      let a := v.toNat / 128 % 2 ^ 37 * 128
      a + 1024 ≤ hbmSize ∧ LinesServe s.dev a 1024 ∧ buildLens ((List.range 256).map fun i => leNat (s.dev.rd (a + 4 * i) 4)) = some ls ∧
      s.dev.fld (F.CDC_SLOT_GEN_REFS k) = 0 ∧ s.dev.readWaits a 1024 = false) ∧
    (∃ (s : State) (v : Word), s.live = true ∧ s.dev.bit F.CDC_TBL_STATUS_BUSY = false ∧ s.dev.bit F.CDC_TDIR_VALID = true ∧
      let k := 16 * (v.toNat / 2 ^ 48 % 2048) + v.toNat / 2 ^ 44 % 16
      let a := v.toNat / 128 % 2 ^ 37 * 128
      s.dev.fld (F.CDC_SLOT_GEN_REFS k) = 0 ∧ s.dev.readWaits a 1024 = false ∧ a + 128 ≤ hbmSize ∧ LinesServe s.dev a 128 ∧ tableOk (s.dev.rd a 128) = true) ∧
    (∀ op ∈ [1, 2, 3, 4], ∃ (s : State) (k : Nat) (table : List Byte), s.live = true ∧ s.dev.codec.op = some ⟨op, k, table, none⟩ ∧ table.length = 128 ∧
      k < 32768 ∧ LinesServe s.dev (128 * s.dev.fld F.CDC_TBL_ARG_ADDR) 128 ∧ LinesServe s.dev (s.dev.tableAt k) 128 ∧
      s.dev.writeWaits (128 * s.dev.fld F.CDC_TBL_ARG_ADDR) table = false ∧ s.dev.writeWaits (s.dev.tableAt k) table = false) ∧
    (∀ p ∈ [0, 11, 15], ∃ (s : State) (v : Word), s.live = true ∧ v.toNat / 2 ^ 60 = p) := by
  refine ⟨⟨tables, tableWord 0, lens0, by unfold LinesServe; decide +kernel⟩, ⟨tables, tableWord 2048, by unfold LinesServe; decide +kernel⟩, ?_, ?_⟩
  · intro op h
    refine ⟨tables fun d => { d with codec := { d.codec with op := some ⟨op, 3, table0, none⟩ } }, 3, table0, ?_⟩
    unfold LinesServe
    simp only [List.mem_cons, List.not_mem_nil, or_false] at h
    rcases h with rfl | rfl | rfl | rfl <;> decide +kernel
  · intro p h
    refine ⟨live |> fun d => ⟨[], Persist.reset, d⟩, BitVec.ofNat 64 (p * 2 ^ 60), rfl, ?_⟩
    simp only [List.mem_cons, List.not_mem_nil, or_false] at h
    rcases h with rfl | rfl | rfl <;> decide

/-- A live channel of job 7 and context 5. -/
def chan7 (typ : Nat) (t : Template := Template.none) : Chan := { Chan.reset with live := true, gen := 1, typ := typ, ctx := 5, job := 7, tmpl := t }
def chans (qs : List Chan) (d : Dev) : Dev :=
  qs.zipIdx.foldl (fun d q => d.setChan q.2 q.1) { d with str := { d.str with fresh := qs.length } }
def descs (qs : List Desc) (d : Dev) : Dev := { d with str := { d.str with descs := qs } }
/-- The context of job 7 with descriptors to give. -/
def job7 : List (Fld × Nat) := [(F.STR_CTX_STATE 5, 1), (F.STR_CTX_JOB 5, 7), (F.STR_CTX_QUOTA 5, 4), (F.CDC_CTRL_SPOOL_CTX, 5)]

/-- A tile of two bytes as one block for core 0, first and last, in landing slot 0. -/
def block2 (flags : Nat) : List Byte := (makeBlock none 0 flags 0 [5, 6]).2
def sec0 : Section := ⟨0, 0, 2, 0, [], none⟩
def spooling : State :=
  st (kernel 0 ++ job7 ++ [(F.CDC_RING_TILE128 0, 1), (F.CDC_RING_HANDLE 0, 3 * 2 ^ 24 + 1)]) fun d =>
    mem (landSlot 0 + 64) (block2 3) (chans [chan7 3] { d with codec := { d.codec with secs := [(0, sec0)] } })

/-- A transfer of job 7 between HBM addresses. -/
def desc7 (kind src dst len : Nat) (t : Template := { Template.none with dstSpace := 2 }) : Desc :=
  { Desc.blank with id := 9, kind := kind, ctx := 5, tag := 7, core := 3, dc := some 2, src := src, dst := dst, len := len, tmpl := t }
def pack0 : Pack := ⟨[], [], 0, [], [], 0, 0, 0, false⟩
def tmplPack (codec : Nat) : Template := { Template.none with block := 2, codec := codec, dstSpace := 2, dstMax := 4096, result := 8192 }

theorem test_CodecBlocks_met :
    (∃ (s : State) (k : ClusterId) (sec : Section) (i : Nat) (table data : List Byte), s.live = true ∧ s.dev.frontSec k = some sec ∧ 1 < sec.left ∧
      let a := landSlot sec.slot + 64 + sec.pos
      let h := blockHdr (s.dev.rd a 16)
      let n := destCore k h.core
      let r := s.dev.xring n
      let b := r.tiles % 2
      let base := 4096 * s.dev.fld (ctxBase4k 0 n)
      let at_ := 128 * s.dev.fld (F.CDC_RING_BASE128 n) + b * (128 * s.dev.fld (F.CDC_RING_TILE128 n)) + r.opened.getD 0
      h.core < 12 ∧ n ∉ s.dev.codec.dead ∧ n ∉ sec.skip ∧ s.dev.blockKind sec n h = none ∧ s.dev.ringChan n = some i ∧
      h.first = true ∧ (s.dev.chan i).drained.getD b true = true ∧ s.dev.blockTable k (s.dev.fld F.CDC_CTRL_SPOOL_CTX) h = some table ∧
      decodeBody h table (s.dev.rd (a + 16) (h.stored - 16)) = .ok data ∧ at_ + data.length ≤ 4096 * s.dev.fld (ctxBound4k 0 n) ∧
      s.dev.portCheck n s.dev.spoolJob (base + at_) data.length false = none ∧ (s.dev.core n).badStore (base + at_) data.length = false) ∧
    (∃ (s : State) (k : ClusterId) (q : Desc) (table data : List Byte), s.live = true ∧ s.dev.frontSec k = none ∧ s.dev.frontDesc 3 k = some q ∧
      let a := q.src + q.moved
      let h := blockHdr (s.dev.rd (a % 2 ^ 44) 16)
      h.bad = false ∧ h.core = 0 ∧ h.flags = 0 ∧ h.index = q.blocks ∧ s.dev.staleGen q.ctx h = false ∧ q.moved + h.stored ≤ q.len ∧
      s.dev.codecReadWaits a 16 = false ∧ s.dev.codecReadWaits a h.stored = false ∧ s.dev.codecWriteWaits (q.dst + q.out) data = false ∧
      s.dev.blockTable k q.ctx h = some table ∧ InHbm s.dev a 16 ∧ InHbm s.dev (a + 16) (h.stored - 16) ∧
      decodeBody h table (s.dev.rd ((a + 16) % 2 ^ 44) (h.stored - 16)) = .ok data ∧ s.dev.dstRoom q (q.out + h.raw) = true ∧
      InHbm s.dev (q.dst + q.out) data.length) := by
  refine ⟨⟨spooling, 0, sec0, 0, [], [5, 6], ?_⟩,
    ⟨st (allReady ++ job7) fun d => mem 64 (block2 0) (descs [desc7 3 64 4096 32] d), 0, desc7 3 64 4096 32, [], [5, 6], ?_⟩⟩
  · decide +kernel
  · unfold InHbm LinesServe
    decide +kernel

theorem test_CodecBlocks_packs :
    (∀ codec ∈ [16, 0], ∃ (s : State) (k : ClusterId) (q : Desc) (p : Pack) (table : List Byte), s.live = true ∧ s.dev.frontDesc 2 k = some q ∧
      q.pack = some p ∧ q.tmpl.form = 0 ∧ s.dev.tailWaits k = false ∧
      let n := min (128 * q.tmpl.block) (q.len - q.moved)
      let g := 16 * q.ctx + q.tmpl.slot
      let bs := s.dev.rd ((q.src + q.moved) % 2 ^ 44) n
      let coding := s.dev.packCodes q bs
      let st := (makeBlock (if coding then some (table, q.tmpl.slot, s.dev.fld (F.CDC_SLOT_GEN_GEN g)) else none) 0 0 q.blocks bs).2
      coding = (codec == 0) ∧ s.dev.heldTable (12 + k.val) g = some table ∧
      s.dev.codecReadWaits (q.src + q.moved) n = false ∧ s.dev.codecWriteWaits (q.dst + q.out) st = false ∧ InHbm s.dev (q.src + q.moved) n ∧ InHbm s.dev (q.dst + q.out) st.length ∧
      q.out + st.length ≤ q.tmpl.dstMax ∧ q.moved + n < q.len) ∧
    (∃ (s : State) (k : ClusterId) (q : Desc) (p : Pack), s.live = true ∧ s.dev.frontDesc 2 k = some q ∧ q.pack = some p ∧ q.tmpl.form = 0 ∧
      s.dev.tailWaits k = false ∧ q.len ≤ q.moved ∧ s.dev.codecWriteWaits q.tmpl.result (p.result q.out q.blocks) = false ∧ q.tmpl.result + 32 ≤ hbmSize ∧ LinesServe s.dev q.tmpl.result 32) ∧
    (∀ packer ∈ [false, true], ∃ (s : State) (k : ClusterId) (g : Nat), s.live = true ∧ s.dev.wanted k packer = some g ∧
      s.dev.fld (F.CDC_SLOT_GEN_STATE g) = 1 ∧ s.dev.heldTable (if packer then 12 + k.val else k.val) g = none ∧
      s.dev.repairing (s.dev.tableAt g) 128 = false ∧ LinesServe s.dev (s.dev.tableAt g) 128) := by
  refine ⟨?_, ?_, ?_⟩
  · intro codec m
    refine ⟨st (allReady ++ job7 ++ [(F.CDC_SLOT_GEN_STATE 80, 1), (F.CDC_SLOT_GEN_GEN 80, 3)]) fun d =>
      descs [{ desc7 2 0 4096 512 (tmplPack codec) with pack := some pack0 }] (mem 0 [1] { d with codec := { d.codec with held := [(12, 80, table0)] } }),
      0, { desc7 2 0 4096 512 (tmplPack codec) with pack := some pack0 }, pack0, table0, ?_⟩
    unfold InHbm LinesServe
    simp only [List.mem_cons, List.not_mem_nil, or_false] at m
    rcases m with rfl | rfl <;> decide +kernel
  · refine ⟨st (allReady ++ job7) fun d => descs [{ desc7 2 0 4096 512 (tmplPack 16) with pack := some pack0, moved := 512 }] d, 0,
      { desc7 2 0 4096 512 (tmplPack 16) with pack := some pack0, moved := 512 }, pack0, ?_⟩
    unfold LinesServe
    decide +kernel
  · intro packer m
    refine ⟨st (allReady ++ job7 ++ [(F.CDC_SLOT_GEN_STATE 80, 1), (F.CDC_SLOT_GEN_GEN 80, 3)]) fun d =>
      mem 1024 (BlockHdr.bytes ⟨1, 0, 0, 3, 0, 256, 16, 0, 0, false⟩) (mem 64 [1] (descs [desc7 3 1024 4096 32,
        { desc7 2 0 4096 512 (tmplPack 0) with pack := some pack0 }] d)), 0, 80, ?_⟩
    unfold LinesServe
    simp only [List.mem_cons, List.not_mem_nil, or_false] at m
    rcases m with rfl | rfl <;> decide +kernel

theorem test_ContextCommands_met :
    (∃ (s : State) (v : Word), s.live = true ∧
      let ctx := v.toNat / 2 ^ 48 % 2048
      let job := v.toNat / 2 ^ 32 % 65536
      s.dev.fld (F.STR_CTX_STATE ctx) = 0 ∧ job ≠ 0xFFFF ∧ ∀ x ∈ s.dev.str.kills, x.1 ≠ job) ∧
    (∃ (s : State) (v : Word), s.live = true ∧
      let ctx := v.toNat / 2 ^ 48 % 2048
      s.dev.fld (F.STR_CTX_STATE ctx) = 1 ∧ s.dev.boundTo ctx = [(3, 0)] ∧ ∀ p ∈ s.dev.boundTo ctx, s.dev.running p.1 = false) ∧
    (∀ n ∈ [1, 2], ∃ (s : State) (ctx : BitVec 11) (r : Rel), s.live = true ∧
      s.dev.str.rels.find? (fun r => r.ctx == ctx.toNat && r.tables) = some r ∧ r.zero = [(3, 0, 2, 16)] ∧ r.regs = [(3, 1)] ∧
      s.dev.coreState 3 = n ∧ s.dev.running 3 = (n == 2) ∧ s.dev.bit F.TCK_CTRL_RUN = false) ∧
    (∀ b ∈ [0, 1], ∃ (s : State) (job : BitVec 16) (landing : Bool), s.live = true ∧
      s.dev.str.kills.find? (fun x => x.1 == job.toNat) = some (job.toNat, landing) ∧ landing = (b == 0) ∧
      (∀ r ∈ s.dev.str.rels, r.kill ≠ some job.toNat) ∧ s.dev.fld F.SEC_CTRL_ZERO_ON_KILL = b) := by
  refine ⟨⟨st [], BitVec.ofNat 64 (5 * 2 ^ 48 + 7 * 2 ^ 32), by decide⟩,
    ⟨st (kernel 3 ++ job7 ++ [(F.SCP_CORE_STATUS_STATE 3, 1)]), BitVec.ofNat 64 (5 * 2 ^ 48), by decide +kernel⟩, ?_, ?_⟩
  · intro n m
    refine ⟨st (job7 ++ [(F.SCP_CORE_STATUS_STATE 3, n)]) fun d => { d with str := { d.str with rels := [⟨5, none, [(3, 0, 2, 16)], [(3, 1)], true⟩] } }, 5,
      ⟨5, none, [(3, 0, 2, 16)], [(3, 1)], true⟩, ?_⟩
    simp only [List.mem_cons, List.not_mem_nil, or_false] at m
    rcases m with rfl | rfl <;> decide
  · intro b m
    refine ⟨st (job7 ++ [(F.SEC_CTRL_ZERO_ON_KILL, b)]) fun d => { d with str := { d.str with kills := [(7, b == 0)] } }, 7, b == 0, ?_⟩
    simp only [List.mem_cons, List.not_mem_nil, or_false] at m
    rcases m with rfl | rfl <;> decide

/-- A record of a queue channel of copies, and of a command queue of two entries on core 3. -/
def queueRec : List Byte := leBytes 1 1 ++ zeros 63 ++ leBytes 1 1
def commandRec : List Byte := leBytes 1 5 ++ zeros 3 ++ leBytes 4 2 ++ zeros 8 ++ leBytes 2 3 ++ zeros 46 ++ leBytes 1 1
/-- A copy of 64 bytes within HBM. -/
def copy64 : Template := { Template.none with kind := 1, srcSpace := 2, dstSpace := 2, len := 64, dst := 4096 }
def chanWord (i typ : Nat) : Word := BitVec.ofNat 64 (typ * 2 ^ 24 + i * 2048 + 1)
/-- Channel 0 is q. -/
def one (q : Chan) : State := st (allReady ++ job7) (chans [q])

theorem test_Channels_records :
    (∀ bs ∈ [queueRec, commandRec], ∃ (s : State) (tag : Tag) (v : Word) (i : Nat), s.live = true ∧
      let ctx := v.toNat / 2 ^ 51 % 2048
      let rec_ := v.toNat / 128 % 2 ^ 37 * 128
      let job := s.dev.fld (F.STR_CTX_JOB ctx)
      s.dev.rd rec_ 65 = bs ∧ rec_ + 128 ≤ hbmSize ∧ s.dev.repairing rec_ 128 = false ∧ LinesServe s.dev rec_ 128 ∧ tag.toNat = job ∧ s.dev.fld (F.STR_CTX_STATE ctx) = 1 ∧
      recBad (s.dev.rd rec_ 128) = false ∧ (if s.dev.str.fresh < 8192 then some s.dev.str.fresh else s.dev.str.freed.head?) = some i ∧
      s.dev.str.fresh = 0) ∧
    (∃ (s : State) (v : Word) (i : Nat), s.live = true ∧
      let ctx := v.toNat / 2 ^ 51 % 2048
      let rec_ := v.toNat / 128 % 2 ^ 37 * 128
      let job := s.dev.fld (F.STR_CTX_JOB ctx)
      rec_ + 128 ≤ hbmSize ∧ s.dev.repairing rec_ 128 = false ∧ LinesServe s.dev rec_ 128 ∧ s.dev.fld (F.STR_CTX_STATE ctx) = 1 ∧
      s.dev.handleFor job (kNat (s.dev.rd rec_ 128) 48 4) = some i ∧ s.dev.chanBusy i = false) := by
  refine ⟨?_, ⟨st (allReady ++ job7) fun d => mem 48 (leBytes 4 (1 * 2 ^ 24 + 1)) (chans [chan7 1] d), BitVec.ofNat 64 (5 * 2 ^ 51), 0, ?_⟩⟩
  · intro bs m
    refine ⟨st (allReady ++ job7) (mem 0 bs), 7, BitVec.ofNat 64 (5 * 2 ^ 51), 0, ?_⟩
    unfold LinesServe
    simp only [List.mem_cons, List.not_mem_nil, or_false] at m
    rcases m with rfl | rfl <;> decide +kernel
  · unfold LinesServe
    decide +kernel

theorem test_Channels_pushes :
    (∃ (s : State) (v : Word) (i : Nat), s.live = true ∧ s.dev.handleIdx (v.toNat % 2 ^ 32) = some i ∧ (s.dev.chan i).typ = 5 ∧
      (s.dev.chan i).ready < (s.dev.chan i).count) ∧
    (∀ typ ∈ [2, 3], ∃ (s : State) (v : Word) (i k : Nat) (ks : List Nat), s.live = true ∧ s.dev.handleIdx (v.toNat % 2 ^ 32) = some i ∧
      (s.dev.chan i).typ = typ ∧ (s.dev.chan i).order = k :: ks) ∧
    (∀ x ∈ [(1, 1), (4, 2), (4, 3)], ∃ (s : State) (v : Word) (i a b : Nat), s.live = true ∧ s.dev.handleIdx (v.toNat % 2 ^ 32) = some i ∧
      let q := s.dev.chan i
      let m := q.tmpl
      (q.typ, m.kind) = x ∧ m.srcSpace = 2 ∧ m.dstSpace = 2 ∧ s.dev.descRoom q.ctx = true ∧
      s.dev.relocTmpl 144 0 q.ctx q.job m (stepAddr m.src q.pushes m.srcStep) (stepAddr m.dst q.pushes m.dstStep) m.len
        (if m.kind = 2 then m.dstMax else if m.kind = 3 then 0 else m.len) = some (a, b)) ∧
    (∃ (s : State) (v : Word) (i a b : Nat), s.live = true ∧ s.dev.handleIdx (v.toNat % 2 ^ 32) = some i ∧
      let q := s.dev.chan i
      let m := q.tmpl
      q.typ = 2 ∧ m.kind = 1 ∧ m.srcSpace = 2 ∧ m.dstSpace = 2 ∧ q.run = none ∧ 0 < q.count ∧ s.dev.fillOpen i = false ∧ q.cancelled = false ∧
      q.drained.getD (q.fills % 2) true = true ∧ s.dev.descRoom q.ctx = true ∧
      s.dev.relocTmpl 144 0 q.ctx q.job m (stepAddr m.src 0 m.srcStep) (m.dst + q.fills % 2 * q.slotBytes) q.slotBytes q.slotBytes = some (a, b)) ∧
    (∃ (s : State) (v : Word) (i : Nat), s.live = true ∧ s.dev.handleIdx (v.toNat % 2 ^ 32) = some i ∧
      let q := s.dev.chan i
      let m := q.tmpl
      q.typ = 2 ∧ m.kind = 1 ∧ m.srcSpace = 2 ∧ m.dstSpace = 2 ∧ q.run ≠ none ∧ q.rearm = none) := by
  refine ⟨⟨one { chan7 5 with count := 2 }, chanWord 0 5, 0, by decide⟩, ?_, ?_,
    ⟨one { chan7 2 copy64 with count := 2, slotBytes := 64 }, chanWord 0 2, 0, 0, 4096, by decide +kernel⟩,
    ⟨one { chan7 2 copy64 with count := 2, slotBytes := 64, run := some 1, armer := some ⟨3, 0, 5, 0, 0⟩ }, chanWord 0 2, 0, by decide⟩⟩
  · intro typ m
    refine ⟨one { chan7 typ with order := [1], full := [false, true], drained := [true, false] }, chanWord 0 typ, 0, 1, [], ?_⟩
    simp only [List.mem_cons, List.not_mem_nil, or_false] at m
    rcases m with rfl | rfl <;> decide
  · intro x m
    refine ⟨one (chan7 x.1 { copy64 with kind := x.2, dstMax := 256 }), chanWord 0 x.1, 0, 0, 4096, ?_⟩
    simp only [List.mem_cons, List.not_mem_nil, or_false] at m
    rcases m with rfl | rfl | rfl <;> decide +kernel

theorem test_Channels_cancelled :
    ∃ s : State, s.live = true ∧ s.dev.bit F.TCK_CTRL_RUN = false ∧ (∀ i, (s.dev.chan i).cancelled = true → (s.dev.chan i).run = none) ∧
      s.dev.str.fresh = 2 ∧ (s.dev.chan 0).cancelled = true ∧ (s.dev.chan 0).live = true ∧ (s.dev.chan 1).cancelled = true ∧
      (s.dev.chan 1).live = false ∧ ∃ r ∈ s.dev.str.rels, r.tables = false := by
  refine ⟨st job7 fun d =>
    chans [{ chan7 2 with cancelled := true }, { chan7 2 with cancelled := true, live := false }] { d with str := { d.str with rels := [⟨5, none, [], [], false⟩] } },
    by decide, by decide, ?_, by decide, by decide, by decide, by decide, by decide, ⟨5, none, [], [], false⟩, by decide, rfl⟩
  intro i h
  match i with
  | 0 => decide
  | 1 => decide
  | i + 2 => cases h

/-- A transfer of 64 bytes from 0 to 4096, through the cache or not. -/
def caching (c : Bool) : State := st (allReady ++ [(F.STR_CTRL_CACHE_EN, 1)]) (descs [{ desc7 1 0 4096 64 with cache := c }])

theorem local64 (c : Bool) (a : Nat) (h : a = 0 ∨ a = 4096) : Local (caching c).dev 7 a 64 := by
  refine ⟨?_, ?_, .inl ⟨?_, ?_⟩⟩
  · rcases h with rfl | rfl <;> decide
  · cases c <;> rcases h with rfl | rfl <;> decide +kernel
  · rcases h with rfl | rfl <;> decide
  · unfold LinesServe
    cases c <;> rcases h with rfl | rfl <;> decide +kernel

/-- Channel 0 is a COMMAND channel of core 0 whose one ready entry, at 0 of HBM, is yet to be read. -/
def reading : State := one { chan7 5 { Template.none with kind := 1, len := 128, srcSpace := 2 } with count := 2, pushes := 1, ready := 1 }
def read0 : Desc := { Desc.blank with kind := 4, chan := 1, ctx := 5, tag := 7, core := 0, len := 128 }

theorem test_Transfers_reads :
    ∃ (s : State) (m : Fin 24) (q : Desc), s.live = true ∧ (∀ i < s.dev.str.fresh, (s.dev.chan i).run.isSome = true → s.dev.fillOpen i = true) ∧
      ((s.dev.str.descs.filter (fun q => q.eligible (m.val / 2)) ++ s.dev.entryReads (m.val / 2)).filter fun q => !(s.dev.unitWaits q none)) = [q] ∧
      q.kind = 4 ∧ q.cache = false ∧ Local s.dev q.tag (q.src + q.moved) q.unitLen := by
  refine ⟨reading, 0, read0, by decide +kernel, by decide +kernel, by decide +kernel, rfl, rfl, by decide, by decide +kernel, .inl ⟨by decide +kernel, ?_⟩⟩
  unfold LinesServe
  decide +kernel

theorem test_Transfers_units :
    (∀ cache ∈ [false, true], ∃ (s : State) (m : Fin 24) (q : Desc), s.live = true ∧
      (∀ i < s.dev.str.fresh, (s.dev.chan i).run.isSome = true → s.dev.fillOpen i = true) ∧
      ((s.dev.str.descs.filter (fun q => q.eligible (m.val / 2)) ++ s.dev.entryReads (m.val / 2)).filter fun q => !(s.dev.unitWaits q none)) = [q] ∧
      (q.cache && decide (0 < s.dev.cacheSlots)) = cache ∧
      Local s.dev q.tag (q.src + q.moved) q.unitLen ∧ Local s.dev q.tag (q.dst + q.moved) q.unitLen ∧
      (s.dev.cacheRead q.tag ((q.src + q.moved) % 2 ^ 44) q.unitLen).2.1.isSome = true) ∧
    (∀ x ∈ [(false, 0), (true, 0), (true, 1)], ∃ (s : State) (i : Nat) (q : Desc), s.live = true ∧
      (s.dev.str.descs.filter Desc.finished)[i]? = some q ∧ (q.err, q.chan) = x ∧ q.core < 144 ∧ q.dc = some 2 ∧ q.kind = 1 ∧
      (s.dev.core q.core).open_ q.kern = true) ∧
    (∃ (s : State) (i : Nat) (q : Desc), s.live = true ∧ (s.dev.str.descs.filter Desc.finished)[i]? = some q ∧ q.kind ≠ 1) ∧
    (∀ e ∈ [false, true], ∃ (s : State) (i : Fin 8192) (q : Desc), s.live = true ∧
      (s.dev.str.descs.find? fun q => q.chan == i.val + 1 && q.slot.isSome && !q.cancelled && (q.err || decide (q.len ≤ q.moved))) = some q ∧
      q.err = e ∧ (s.dev.str.descs.any fun x => x.id != q.id && x.chan == i.val + 1 && x.slot.isSome && !x.cancelled) = false ∧
      (s.dev.chan i).run = some (s.dev.chan i).count ∧ (s.dev.chan i).rearm = none) := by
  refine ⟨?_, ?_, ⟨st job7 (descs [{ desc7 3 0 4096 64 with moved := 64 }]), 0, { desc7 3 0 4096 64 with moved := 64 }, by decide⟩, ?_⟩
  · intro c m
    refine ⟨caching c, 0, { desc7 1 0 4096 64 with cache := c }, by cases c <;> decide +kernel, nofun, by cases c <;> decide +kernel, by cases c <;> decide +kernel,
      local64 c 0 (.inl rfl), local64 c 4096 (.inr rfl), ?_⟩
    cases c <;> decide +kernel
  · intro x m
    refine ⟨st job7 fun d => (descs [{ desc7 1 0 4096 64 with moved := 64, err := x.1, chan := x.2 }] d).modCore 3 fun c => { c with running := [(0, launch1)] }, 0,
      { desc7 1 0 4096 64 with moved := 64, err := x.1, chan := x.2 }, ?_⟩
    simp only [List.mem_cons, List.not_mem_nil, or_false] at m
    rcases m with rfl | rfl | rfl <;> decide
  · intro e m
    refine ⟨st job7 fun d => chans [{ chan7 2 copy64 with count := 1, slotBytes := 64, run := some 1, armer := some ⟨3, 0, 5, 0, 0⟩ }]
      (descs [{ desc7 1 0 4096 64 with moved := 64, err := e, chan := 1, slot := some 0 }] d), 0,
      { desc7 1 0 4096 64 with moved := 64, err := e, chan := 1, slot := some 0 }, ?_⟩
    simp only [List.mem_cons, List.not_mem_nil, or_false] at m
    rcases m with rfl | rfl <;> decide

/-! ## Keel engines -/

/-- Every stack is ready or under test, and nothing is in error. -/
def healthy (d : Dev) : Bool :=
  (List.range 12).all (fun k => d.stackReady k && d.fld (F.KEL_STATUS_STATE k) != 4) && d.keel.bad.isEmpty && d.keel.linkBad.isEmpty

theorem ready_of_healthy {d : Dev} (h : healthy d = true) : ∀ k < 12, d.stackReady k = true ∧ d.fld (F.KEL_STATUS_STATE k) ≠ 4 := by
  simp only [healthy, Bool.and_eq_true, List.all_eq_true, List.mem_range, bne_iff_ne] at h
  exact h.1.1

/-- Then every range serves, and waits for no repair. -/
theorem serves {d : Dev} (h : healthy d = true) (a n : Nat) : LinesServe d a n := by
  have r := ready_of_healthy h
  simp only [healthy, Bool.and_eq_true, List.isEmpty_iff] at h
  exact fun l _ => ⟨(r _ (Nat.mod_lt _ (by decide))).1, by unfold Dev.lineErrs; rw [h.1.2]; rfl, by rw [h.2]; rfl⟩

theorem whole {d : Dev} (h : healthy d = true) (a n : Nat) : d.repairing a n = false := by
  unfold Dev.repairing
  rw [List.any_eq_false]
  intro k m
  simp [(ready_of_healthy h k (List.mem_range.mp m)).2]

/-- A command of tag 7: opcode, fmt and sub, count, arguments, aux, flags, DONE. -/
def kcmd (op fs count : Nat) (args : List Nat) (aux : Nat := 0) (flags : Nat := 0) (done : Nat := 0) : KCmd :=
  ⟨leBytes 1 op ++ leBytes 1 0 ++ leBytes 1 flags ++ leBytes 1 fs ++ leBytes 4 count ++ args.flatMap (leBytes 8) ++ zeros (40 - 8 * args.length) ++
    leBytes 8 done ++ zeros 2 ++ leBytes 4 aux ++ [0, 1], 7, 0, false, 0, 0, none⟩
/-- Stack 0 has a command at the head of its queue. -/
def keel (c : KCmd) (g : Dev → Dev := id) : State := st allReady fun d => g (d.setKQueue 0 [c])

theorem perform {s : State} {k op : Nat} {c : KCmd} {rs : List (Nat × Nat)}
    (h : s.live = true ∧ s.dev.kHead k op = some c ∧ c.reserved = false ∧ c.cut = none ∧ (∀ r ∈ rs, r.1 + r.2 ≤ hbmSize) ∧
      (rs.Pairwise fun a b => a.1 + a.2 ≤ b.1 ∨ b.1 + b.2 ≤ a.1) ∧ healthy s.dev = true) : ToPerform s k op c rs := by
  obtain ⟨h1, h2, h3, h4, h5, h6, h7⟩ := h
  exact ⟨h1, h2, h3, h4, fun r m => ⟨h5 r m, serves h7 _ _, whole h7 _ _⟩, h6⟩

theorem test_KeelCommands_met :
    (∃ (s : State) (k : StackId) (c : KCmd), ToPerform s k 1 c [(c.arg 0, c.count)] ∧ c.count = 64) ∧
    (∃ (s : State) (k : StackId) (c : KCmd), ToPerform s k 2 c [(c.arg 0, c.count), (c.arg 1, c.count)] ∧ c.count = 64) ∧
    (∀ sub ∈ [0, 1, 2], ∃ (s : State) (k : StackId) (c : KCmd), c.sub = sub ∧ ToPerform s k 3 c [(c.arg 0, 4 * c.count)] ∧ c.count = 3 ∧ c.aux = 2 ∧
      ∀ i < c.aux, ToPerform s k 3 c [(c.arg 0, 4 * c.count), (c.arg 1 + i * c.arg 2, (if c.fmt = 9 then 4 else 2) * c.count)]) := by
  refine ⟨⟨keel (kcmd 1 0 64 [49152, 5]), 0, kcmd 1 0 64 [49152, 5], perform (by decide +kernel), by decide⟩,
    ⟨keel (kcmd 2 0 64 [49152, 0]), 0, kcmd 2 0 64 [49152, 0], perform (by decide +kernel), by decide⟩, ?_⟩
  intro sub m
  refine ⟨keel (kcmd 3 (9 + 16 * sub) 3 [49152, 0, 512] 2), 0, kcmd 3 (9 + 16 * sub) 3 [49152, 0, 512] 2, ?_⟩
  simp only [List.mem_cons, List.not_mem_nil, or_false] at m
  rcases m with rfl | rfl | rfl <;>
    exact ⟨by decide, perform (by decide +kernel), by decide, by decide, fun i h => by
      have h : i < 2 := h
      match i, h with
      | 0, _ => exact perform (by decide +kernel)
      | 1, _ => exact perform (by decide +kernel)⟩

theorem test_KeelCommands_lists :
    (∃ (s : State) (k : StackId) (c : KCmd), ToPerform s k 4 c [(c.arg 0, c.arg 3 * c.aux), (c.arg 1, 4 * c.count)] ∧
      Serves s.dev c.tag (c.arg 2) (c.count * c.aux) ∧ s.dev.readWaits (c.arg 2) (c.count * c.aux) = false ∧ (c.arg 0 + c.arg 3 * c.aux ≤ c.arg 2 ∨ c.arg 2 + c.count * c.aux ≤ c.arg 0) ∧
      (c.arg 1 + 4 * c.count ≤ c.arg 2 ∨ c.arg 2 + c.count * c.aux ≤ c.arg 1) ∧
      (∀ p < c.count, num s.dev (c.arg 1 + 4 * p) 4 < min (c.arg 3) (2 ^ 31)) ∧ c.count = 2) ∧
    (∃ (s : State) (k : StackId) (c : KCmd),
      ToPerform s k 5 c [(c.arg 0, c.arg 3 * c.aux), (c.arg 1, 4 * c.count), (c.arg 2, c.count * c.aux)] ∧
      (∀ p < c.count, num s.dev (c.arg 1 + 4 * p) 4 < min (c.arg 3) (2 ^ 31)) ∧ c.count = 2) ∧
    (∃ (s : State) (k : StackId) (c : KCmd), ToPerform s k 6 c [(c.arg 0, c.count), (c.arg 1, 1024)] ∧ c.count = 5) ∧
    (∃ (s : State) (k : StackId) (c : KCmd), ToPerform s k 0x20 c [(c.arg 0, c.count), (c.arg 1, 8 * c.arg 2)] ∧ c.count = 0x100000) := by
  refine ⟨⟨keel (kcmd 4 0 2 [49152, 512, 1024, 3] 64), 0, kcmd 4 0 2 [49152, 512, 1024, 3] 64, perform (by decide +kernel),
      .inl ⟨by decide, serves (by decide +kernel) _ _⟩, by decide +kernel, by decide, by decide, by decide +kernel, by decide⟩,
    ⟨keel (kcmd 5 0 2 [49152, 512, 1024, 3] 64), 0, kcmd 5 0 2 [49152, 512, 1024, 3] 64, perform (by decide +kernel), by decide +kernel, by decide⟩,
    ⟨keel (kcmd 6 0 5 [0, 4096]), 0, kcmd 6 0 5 [0, 4096], perform (by decide +kernel), by decide⟩,
    ⟨keel (kcmd 0x20 0 0x100000 [0x200000, 4096, 8]), 0, kcmd 0x20 0 0x100000 [0x200000, 4096, 8], perform (by decide +kernel),
      by decide⟩⟩

/-- OPT on 16 elements with its operands a page apart, SUB 0 without, SUB 1 with both moments. -/
def opt16 (sub m v : Nat) : KCmd := kcmd 0x10 (8 + 16 * sub) 16 [49152, m, v, 16384, 20480] 0 2

theorem test_KeelOptimizerAndRepair_met :
    (∀ x ∈ [(0, 0, 0), (0, 8192, 0), (1, 8192, 12288), (2, 8192, 0)], ∃ (s : State) (k : StackId) (c : KCmd), (c.sub, c.arg 1, c.arg 2) = x ∧
      ToPerform s k 0x10 c (s.dev.kRanges c) ∧ (optPar (s.dev.rd (c.arg 4) 64)).out = 24576) ∧
    (∀ hard ∈ [0, 2 ^ 31], ∀ used ∈ [[], [(0, 3, 5)]], ∃ (s : State) (k : StackId) (c : KCmd), s.live = true ∧ s.dev.kHead k 0x21 = some c ∧
      c.reserved = false ∧ (if bitOf c.aux 31 then s.persist.hard else s.dev.keel.soft) = used ∧ c.aux = hard + 3 * 2 ^ 20 + 5 * 2 ^ 14 + 9) := by
  constructor
  · intro x m
    refine ⟨keel (opt16 x.1 x.2.1 x.2.2) (fun d => d.wr (20480 + 32) (leBytes 8 24576)), 0, opt16 x.1 x.2.1 x.2.2, ?_⟩
    simp only [List.mem_cons, List.not_mem_nil, or_false] at m
    rcases m with rfl | rfl | rfl | rfl <;> exact ⟨by decide, perform (by decide +kernel), by decide +kernel⟩
  · intro hard h used u
    refine ⟨{ keel (kcmd 0x21 0 0 [] (hard + 3 * 2 ^ 20 + 5 * 2 ^ 14 + 9)) (fun d => { d with keel := { d.keel with soft := used } }) with
      persist := { Persist.reset with hard := used } }, 0, kcmd 0x21 0 0 [] (hard + 3 * 2 ^ 20 + 5 * 2 ^ 14 + 9), ?_⟩
    simp only [List.mem_cons, List.not_mem_nil, or_false] at h u
    rcases h with rfl | rfl <;> rcases u with rfl | rfl <;> decide +kernel

/-- Job 7 may name GiB 0 in keel commands. -/
def range0 : List (Fld × Nat) := allReady ++ [(F.KEL_JR_VALID 0, 1), (F.KEL_JR_JOB 0, 7)]
def fillCmd : KCmd := kcmd 1 0 64 [49152, 5]

theorem test_KeelQueues_submitted :
    (∃ (s : State) (t : Tag) (k : StackId) (line : Fin 4096) (bytes : List Byte), s.live = true ∧ bytes ≠ [] ∧ bytes.length ≤ 64 ∧
      let a := keelBase + k.val * 0x1000000 + 64 * line.val
      let c : KCmd := ⟨(s.dev.rd a (64 - bytes.length)) ++ bytes, t.toNat, s.dev.fld F.TCK_NUMBER_NUMBER, false, 0, 0, none⟩
      c.stacks k = [0] ∧ ∀ x ∈ c.stacks k, (s.dev.kQueue x).length < 256 ∧ (s.dev.wr (a + (64 - bytes.length)) bytes).kRefusal x c = 0) ∧
    (∃ (s : State) (t : Tag) (k : StackId) (addr : Word), s.live = true ∧ addr.toNat % 64 = 0 ∧ addr.toNat + 64 ≤ hbmSize ∧
      LinesServe s.dev addr.toNat 64 ∧ s.dev.repairing addr.toNat 64 = false ∧
      let c : KCmd := ⟨s.dev.rd addr.toNat 64, t.toNat, s.dev.fld F.TCK_NUMBER_NUMBER, false, 0, 0, none⟩
      ∀ x ∈ c.stacks k, (s.dev.kQueue x).length < 256 ∧ s.dev.kRefusal x c = 0) := by
  refine ⟨⟨st range0, 7, 3, 5, fillCmd.bytes, by decide, by decide, by decide, by decide, by decide +kernel⟩,
    ⟨st range0 (fun d => d.wr 128 fillCmd.bytes), 7, 3, 128, by decide, by decide, by decide, serves (by decide +kernel) _ _,
      whole (by decide +kernel) _ _, by decide +kernel⟩⟩

theorem test_KeelQueues_ends :
    (∀ x ∈ [(0, 0), (0, 8), (5, 8), (9, 8), (5, 0)], ∃ (s : State) (k : StackId) (c : KCmd) (cs : List KCmd), s.live = true ∧
      s.dev.kQueue k = c :: cs ∧ c.performed = true ∧ (c.code, c.doneAddr) = x) ∧
    (∃ (s : State) (k : StackId), s.live = true ∧ s.dev.bit F.KEL_SCRUB_EN = true ∧ s.dev.stackReady k = true ∧ s.dev.stackBusy k = false) ∧
    (∀ ilv ∈ [0, 1], ∃ (s : State) (v : Word), s.live = true ∧ F.KEL_CTRL_CMD_SHARE.of v ≠ 0 ∧ (∀ c < 2048, s.dev.fld (F.STR_CTX_STATE c) ≠ 1) ∧
      s.dev.fld F.KEL_CTRL_ILV = 0 ∧ F.KEL_CTRL_ILV.of v = ilv) ∧
    (∀ state ∈ [0, 1], ∃ (s : State) (k : StackId), s.live = true ∧ s.dev.fld (F.KEL_STATUS_STATE k) = state ∧ s.dev.fld F.GND_STATUS_STATE < 3) ∧
    (∃ (s : State) (k : StackId), s.live = true ∧ s.dev.fld (F.KEL_STATUS_STATE k) = 1 ∧ (∀ x < 12, x ≠ k.val → s.dev.stackReady x = true) ∧
      s.dev.fld F.GND_STATUS_STATE = 3 ∧ s.dev.keel.bad = [] ∧ s.dev.keel.linkBad = [] ∧ imageAt + s.dev.gnd.image.length ≤ hbmSize ∧
      s.dev.gnd.image ≠ []) := by
  refine ⟨?_, ⟨st (allReady ++ [(F.KEL_SCRUB_EN, 1)]), 4, by decide +kernel⟩, ?_, ?_,
    ⟨st (allReady ++ [(F.KEL_STATUS_STATE 4, 1), (F.GND_STATUS_STATE, 3)]) fun d => { d with gnd := { d.gnd with image := [1, 2] } }, 4, by decide +kernel⟩⟩
  · intro x m
    refine ⟨keel { kcmd 1 0 64 [49152, 5] 0 0 x.2 with performed := true, code := x.1 }, 0,
      { kcmd 1 0 64 [49152, 5] 0 0 x.2 with performed := true, code := x.1 }, [], ?_⟩
    simp only [List.mem_cons, List.not_mem_nil, or_false] at m
    rcases m with rfl | rfl | rfl | rfl | rfl <;> decide +kernel
  · intro ilv m
    refine ⟨st [(F.KEL_CTRL_ILV, 0)], wordOf F.KEL_CTRL_CMD_SHARE 5 ||| wordOf F.KEL_CTRL_ILV ilv, ?_⟩
    simp only [List.mem_cons, List.not_mem_nil, or_false] at m
    rcases m with rfl | rfl <;> exact ⟨by decide, by decide, by decide +kernel, by decide, by decide⟩
  · intro x m
    refine ⟨st [(F.KEL_STATUS_STATE 4, x)], 4, ?_⟩
    simp only [List.mem_cons, List.not_mem_nil, or_false] at m
    rcases m with rfl | rfl <;> decide

/-! ## Ports, Ethernet and service -/

/-- Port 1 is in a state of its training, or up; g changes it. -/
def port1 (state : Nat) (g : Port → Port := id) (l : List (Fld × Nat) := []) : State :=
  st ([(F.LNK_PSTATUS_STATE 1, state)] ++ l) fun d => d.setPort 1 (g (d.port 1))

theorem test_PortTraining_met :
    (∀ e ∈ [0, 1], ∃ (s : State) (p : PortId), s.live = true ∧ s.dev.fld (F.LNK_PCTRL_ENABLE p) = e) ∧
    (∀ c ∈ [false, true], ∀ state ∈ [1, 2, 3], ∃ (s : State) (p : PortId), s.live = true ∧ s.dev.portState p = state ∧ s.dev.pwr.refClk = c) ∧
    (∃ (s : State) (lo hi : BitVec 16), s.live = true ∧ s.dev.portState 1 = 2 ∧ min hi.toNat 0x102 < max lo.toNat 0x100) ∧
    (∃ (s : State) (x : BitVec 7) (y : BitVec 6) (port : BitVec 2) (valid : Bool) (lo hi : BitVec 16), s.live = true ∧ s.dev.portState 1 = 2 ∧
      ¬ (min hi.toNat 0x102 < max lo.toNat 0x100) ∧ s.dev.bit (F.LNK_PCTRL_CHECK_PEER 1) = true ∧
      (s.dev.neighbour 1 ≠ some (x.toNat, y.toNat) ∨ port.toNat ≠ (1 + 2) % 4 ∨ valid = false ∨ s.dev.bit F.LNK_COORD_VALID = false)) ∧
    (∃ (s : State) (x : BitVec 7) (y : BitVec 6) (port : BitVec 2) (valid : Bool) (lo hi : BitVec 16), s.live = true ∧ s.dev.portState 1 = 2 ∧
      ¬ (min hi.toNat 0x102 < max lo.toNat 0x100) ∧ s.dev.bit (F.LNK_PCTRL_CHECK_PEER 1) = true ∧
      ¬ (s.dev.neighbour 1 ≠ some (x.toNat, y.toNat) ∨ port.toNat ≠ (1 + 2) % 4 ∨ valid = false ∨ s.dev.bit F.LNK_COORD_VALID = false)) ∧
    (∃ (s : State), s.live = true ∧ s.dev.portState 1 = 3 ∧ s.lifecycle = 1 ∧ s.dev.bit F.SEC_STATUS_LOCKED = true) ∧
    (∃ (s : State) (v : Word), s.live = true ∧ s.dev.routesFixed = false ∧ s.dev.slotNo = 4 * (F.LNK_COORD_Y.of v % 4) + F.LNK_COORD_X.of v % 4) := by
  refine ⟨?_, ?_, ⟨port1 2, 0x200, 0x210, by decide⟩, ⟨port1 2 id [(F.LNK_PCTRL_CHECK_PEER 1, 1)], 1, 0, 3, false, 0x100, 0x102, by decide⟩,
    ⟨port1 2 id [(F.LNK_PCTRL_CHECK_PEER 1, 1), (F.LNK_COORD_VALID, 1)], 1, 0, 3, true, 0x100, 0x205, by decide⟩,
    ⟨port1 3 id [(F.SEC_STATUS_LOCKED, 1)], by decide⟩, ⟨st [(F.DEV_STATUS_SLOT, 5)], wordOf F.LNK_COORD_X 1 ||| wordOf F.LNK_COORD_Y 61, by decide⟩⟩
  · intro e m
    refine ⟨st [(F.LNK_PCTRL_ENABLE 1, e)], 1, ?_⟩
    simp only [List.mem_cons, List.not_mem_nil, or_false] at m
    rcases m with rfl | rfl <;> decide
  · intro c _ x m
    refine ⟨(port1 x).on fun d => { d with pwr := { d.pwr with refClk := c } }, 1, ?_⟩
    simp only [List.mem_cons, List.not_mem_nil, or_false] at m
    cases c <;> rcases m with rfl | rfl | rfl <;> decide

def frame1 : Frame := ⟨1, 1, 0, 65535, 0, false, 0, none, [7]⟩
def item1 : Payload := ⟨1, 8, [1, 2, 3], 0, 0, none⟩
def lane1 (q : Port) : Port := { (q.setCredit 1 2) with lanes := [item1] }

theorem test_PortFrames_met :
    (∃ (s : State) (p : PortId) (f : Frame) (fs : List Frame), s.live = true ∧ s.dev.up p = true ∧ (s.dev.port p).resend = f :: fs) ∧
    (∃ (s : State) (p : PortId), s.live = true ∧ s.dev.up p = true ∧ (s.dev.port p).resend = [] ∧ (s.dev.port p).unacked.length < 128 ∧
      s.dev.pickItem p = none) ∧
    (∃ (s : State) (p : PortId) (x : Payload), s.live = true ∧ s.dev.up p = true ∧ (s.dev.port p).resend = [] ∧ (s.dev.port p).unacked.length = 127 ∧
      s.dev.pickItem p = some x) ∧
    (∃ (s : State) (p : PortId) (seq : BitVec 16), s.live = true ∧ s.dev.up p = true ∧ seq.toNat ≠ (s.dev.port p).rxCtr % 65536 ∧
      (s.dev.port p).awaiting = false) ∧
    (∃ (s : State) (p : PortId) (seq : BitVec 16), s.live = true ∧ s.dev.up p = true ∧ seq.toNat = (s.dev.port p).rxCtr % 65536 ∧
      (s.dev.port p).rxCtr = 65537) ∧
    (∃ (s : State) (p : PortId), s.live = true ∧ s.dev.up p = true ∧ s.dev.fld F.LNK_CTRL_REPLAY_MAX ≤ (s.dev.port p).resends ∧ s.dev.portIn p = true) :=
  ⟨⟨port1 4 fun q => { q with resend := [frame1], unacked := [frame1] }, 1, frame1, [], by decide⟩, ⟨port1 4, 1, by decide⟩,
   ⟨port1 4 fun q => { lane1 q with unacked := List.replicate 127 frame1 }, 1, item1, by decide +kernel⟩, ⟨port1 4, 1, 9, by decide⟩,
   ⟨port1 4 fun q => { q with rxCtr := 65537 }, 1, 1, by decide⟩,
   ⟨port1 4 (fun q => { q with resends := 255 }) [(F.LNK_REGION_VALID, 1), (F.LNK_REGION_X1, 7), (F.LNK_REGION_Y1, 7)], 1, by decide⟩⟩

/-- The Ethernet link is up; g changes the device. -/
def eth (g : Dev → Dev := id) (l : List (Fld × Nat) := []) : State := st ([(F.ETH_CTRL_ENABLE, 1), (F.ETH_STATUS_LINK, 2)] ++ l) g
def qp1 (role : Nat) : Qp := ⟨role, 9, 0, 100, 0, false, 0, 200000000000, none, 0⟩
/-- Queue pair 4096 exists in a role. -/
def paired (role : Nat) (l : List (Fld × Nat) := []) : State := eth (fun d => d.setQp 4096 (some (qp1 role))) l
/-- Remote region 3 of 4 KiB at 8192, admitted for firmware's tag. -/
def region3 : List (Fld × Nat) :=
  allReady ++ [(F.ETH_MR_CTL_VALID 3, 1), (F.ETH_MR_CTL_KEY 3, 77), (F.ETH_MR_BASE_BASE 3, 128), (F.ETH_MR_CTL_SIZE_LOG2 3, 12), (F.ETH_MR_CTL_WRITE 3, 1),
    (F.ETH_MR_CTL_READ 3, 1), (F.ETH_MR_CTL_JOB 3, 0xFFFF)]
def rkey3 : BitVec 32 := BitVec.ofNat 32 (3 * 2 ^ 24 + 77)

theorem test_EthernetTraffic_link :
    (∃ s : State, s.live = true ∧ s.dev.bit F.ETH_CTRL_ENABLE = true ∧ s.dev.pwr.refClk = true ∧ s.dev.ethUp = false) ∧
    (∃ (s : State) (f : EthFrame), s.live = true ∧ s.dev.ethUp = true ∧ f.supported = true ∧
      (∀ v, f.vid = some v → v.toNat = s.dev.fld F.ETH_CTRL_VID ∧ v ≠ 0) ∧ 64 ≤ f.len ∧ f.len ≤ 9216 ∧
      s.dev.ethHeld f.prio - f.taken + f.len ≤ 1048576 ∧ bitOf (s.dev.fld F.ETH_PFC_MASK) f.prio = true ∧
      786432 < s.dev.ethHeld f.prio - f.taken + f.len) ∧
    (∃ (s : State) (f : EthFrame), s.live = true ∧ s.dev.ethUp = true ∧ ¬ (f.len ≤ 9216)) ∧
    (∀ v6 ∈ [false, true], ∃ (s : State) (target : BitVec 128), s.live = true ∧ s.dev.ethUp = true ∧
      target.toNat = (if v6 then s.dev.fld F.ETH_IP6_HI_ADDR * 2 ^ 64 + s.dev.fld F.ETH_IP6_LO_ADDR else s.dev.fld F.ETH_IP4_ADDR) ∧ target ≠ 0) ∧
    (∀ role ∈ [1, 3], ∃ (s : State) (n : BitVec 24) (q : Qp), s.live = true ∧ s.dev.qp n.toNat = some q ∧ s.dev.bit F.ETH_CTRL_CNP_EN = true ∧
      q.role = role ∧ s.dev.ethUp = true) := by
  refine ⟨⟨st [(F.ETH_CTRL_ENABLE, 1)], by decide⟩,
    ⟨eth (fun d => d.setEthHeld 3 786000) [(F.ETH_PFC_MASK, 8), (F.ETH_CTRL_VID, 5)], ⟨1000, some 5, 3, true, none, 100⟩, rfl, by decide, rfl,
      fun v h => (by cases h; decide), by decide⟩, ⟨eth, ⟨9217, none, 0, true, none, 0⟩, by decide⟩, ?_, ?_⟩
  · intro v6 m
    refine ⟨eth id [(F.ETH_IP6_HI_ADDR, 2), (F.ETH_IP6_LO_ADDR, 3), (F.ETH_IP4_ADDR, 4)], if v6 then 0x20000000000000003 else 4, ?_⟩
    simp only [List.mem_cons, List.not_mem_nil, or_false] at m
    rcases m with rfl | rfl <;> decide
  · intro role m
    refine ⟨paired role [(F.ETH_CTRL_CNP_EN, 1)], 4096, qp1 role, ?_⟩
    simp only [List.mem_cons, List.not_mem_nil, or_false] at m
    rcases m with rfl | rfl <;> decide

theorem test_EthernetTraffic_pairs :
    (∀ psn ∈ [100, 99, 101], ∃ (s : State) (n p : BitVec 24) (q : Qp), s.live = true ∧ s.dev.ethUp = true ∧ s.dev.qp n.toNat = some q ∧ q.error = false ∧
      q.psnIn = 100 ∧ p.toNat = psn) ∧
    (∀ write ∈ [false, true], ∃ (s : State) (n psn : BitVec 24) (rkey : BitVec 32) (addr : Word) (len tag : Nat) (q : Qp), s.live = true ∧
      s.dev.ethUp = true ∧ s.dev.qp n.toNat = some q ∧ q.error = false ∧ psn.toNat = q.psnIn ∧ q.role = 2 ∧
      s.dev.rkeyTag rkey.toNat addr.toNat len write = some tag ∧ Serves s.dev tag addr.toNat len ∧ 0 < len ∧
      s.dev.readWaits addr.toNat len = false ∧ s.dev.writeWaits addr.toNat (zeros len) = false) ∧
    (∀ write ∈ [false, true], ∃ (s : State) (n psn : BitVec 24) (rkey : BitVec 32) (addr : Word) (len : Nat) (q : Qp), s.live = true ∧
      s.dev.ethUp = true ∧ s.dev.qp n.toNat = some q ∧ q.error = false ∧ psn.toNat = q.psnIn ∧ q.role = 2 ∧
      s.dev.rkeyTag rkey.toNat addr.toNat len write = none ∧ s.dev.readWaits addr.toNat len = false ∧
      s.dev.writeWaits addr.toNat (zeros len) = false) := by
  refine ⟨?_, ?_, ?_⟩
  · intro psn m
    refine ⟨paired 2, 4096, BitVec.ofNat 24 psn, qp1 2, ?_⟩
    simp only [List.mem_cons, List.not_mem_nil, or_false] at m
    rcases m with rfl | rfl | rfl <;> decide
  · intro w m
    refine ⟨paired 2 region3, 4096, 100, rkey3, 12224, 64, 0xFFFF, qp1 2, by decide, by decide +kernel, by decide +kernel, by decide, by decide, by decide, ?_,
      .inl ⟨by decide, serves (by decide +kernel) _ _⟩, by decide, by decide +kernel, by decide +kernel⟩
    cases w <;> decide +kernel
  · intro w m
    refine ⟨paired 2 region3, 4096, 100, rkey3, 12224, 65, qp1 2, by decide, by decide +kernel, by decide +kernel, by decide, by decide, by decide, ?_, by decide +kernel, by decide +kernel⟩
    cases w <;> decide +kernel

/-- A depot record of 128 bytes to 8192 under key 5 of firmware's tag, with an add at 512. -/
def depotRec : List Byte :=
  leBytes 8 1 ++ leBytes 4 2 ++ leBytes 4 128 ++ zeros 12 ++ leBytes 2 0x1000 ++ leBytes 2 0xFFFF ++ leBytes 8 8192 ++ leBytes 4 (9 * 65536 + 5) ++ zeros 4 ++
    leBytes 8 512 ++ zeros 7 ++ [1]
def rec1 (written : Bool) (done : Nat) : DepotRec := ⟨1, 2, 128, 4096, 0xFFFF, 8192, zeros 32, done, written⟩
/-- A chunk of zeros of that record, sealed. -/
def depotChunk : List Byte :=
  let nonce := leBytes 8 1 ++ leBytes 4 2
  let aad := nonce ++ leBytes 4 128
  Config.gcmEncrypt (zeros 32) nonce aad (zeros 128) ++ Config.gcmTag (zeros 32) nonce aad (zeros 128)

theorem test_DepotReads_met :
    (∃ (s : State) (v : Word), s.live = true ∧ ¬ ((v.toNat % 1024 + 1024 - s.dev.fld F.ETH_DEPOT_TAIL_HEAD) % 1024 <
      (s.dev.fld F.ETH_DEPOT_TAIL_TAIL + 1024 - s.dev.fld F.ETH_DEPOT_TAIL_HEAD) % 1024)) ∧
    (∃ (s : State) (v : Word), s.live = true ∧ (v.toNat % 1024 + 1024 - s.dev.fld F.ETH_DEPOT_TAIL_HEAD) % 1024 <
      (s.dev.fld F.ETH_DEPOT_TAIL_TAIL + 1024 - s.dev.fld F.ETH_DEPOT_TAIL_HEAD) % 1024) ∧
    (∃ (s : State) (i : Nat) (q : Qp), s.live = true ∧ s.dev.bit F.ETH_DEPOT_RING_VALID = true ∧ s.dev.eth.recs.length < 64 ∧
      let head := s.dev.fld F.ETH_DEPOT_TAIL_HEAD
      let a := s.dev.fld F.ETH_DEPOT_RING_BASE * 65536 + 64 * head
      let bs := s.dev.rd a 64
      let len := kNat bs 12 4
      let job := kNat bs 30 2
      head ≠ s.dev.fld F.ETH_DEPOT_TAIL_TAIL ∧ LinesServe s.dev a 64 ∧ s.dev.readWaits a 64 = false ∧
      kNat bs 63 1 = 1 ∧ kNat bs 44 4 = 0 ∧ kNat bs 56 7 = 0 ∧ len % 64 = 0 ∧ len ≤ 65536 ∧ 0x1000 ≤ kNat bs 28 2 ∧ kNat bs 28 2 ≤ 0x10FF ∧
      kNat bs 32 8 % 64 = 0 ∧ kNat bs 32 8 + len ≤ hbmSize ∧ kNat bs 48 8 % 8 = 0 ∧ s.dev.admitted job = true ∧
      s.dev.keyOf (kNat bs 40 4) = some i ∧ (s.dev.key i).job = job ∧ s.dev.qp (kNat bs 28 2) = some q ∧ q.error = false ∧ q.role = 3) ∧
    (∃ (s : State) (i : Nat) (r : DepotRec) (bytes : List Byte), s.live = true ∧ s.dev.eth.recs[i]? = some r ∧ r.written = false ∧
      bytes.length = r.len + 16 ∧ r.dest + r.len ≤ hbmSize ∧ LinesServe s.dev r.dest r.len ∧ s.dev.repairing r.dest r.len = false ∧
      let nonce := leBytes 8 r.object ++ leBytes 4 r.chunk
      Config.gcmTag r.key nonce (nonce ++ leBytes 4 r.len) (Config.gcmDecrypt r.key nonce (nonce ++ leBytes 4 r.len) (bytes.take r.len)) =
        bytes.drop r.len) ∧
    (∀ done ∈ [0, 512], ∃ (s : State) (i : Nat) (r : DepotRec), s.live = true ∧ s.dev.eth.recs[i]? = some r ∧ r.written = true ∧ r.done = done ∧
      r.done < 2 ^ 48 ∧ r.done / 2 ^ 44 = s.dev.slotNo) := by
  refine ⟨⟨eth id [(F.ETH_DEPOT_TAIL_HEAD, 1000), (F.ETH_DEPOT_TAIL_TAIL, 1020)], 5, by decide⟩,
    ⟨eth id [(F.ETH_DEPOT_TAIL_HEAD, 1000), (F.ETH_DEPOT_TAIL_TAIL, 1020)], 1019, by decide⟩, ?_, ?_, ?_⟩
  · refine ⟨st (allReady ++ [(F.ETH_STATUS_LINK, 2), (F.ETH_DEPOT_RING_VALID, 1), (F.ETH_DEPOT_TAIL_TAIL, 1)]) fun d =>
      (mem 0 depotRec (d.setKey 5 ⟨true, 9, 0xFFFF, zeros 32⟩)).setQp 4096 (some (qp1 3)), 5, qp1 3, ?_⟩
    unfold LinesServe
    decide +kernel
  · have l : (Config.gcmEncrypt (zeros 32) (leBytes 8 1 ++ leBytes 4 2) (leBytes 8 1 ++ leBytes 4 2 ++ leBytes 4 128) (zeros 128)).length = 128 :=
      Config.gcmEncrypt_length _ _ _ _
    refine ⟨st allReady fun d => { d with eth := { d.eth with recs := [rec1 false 0] } }, 0, rec1 false 0, depotChunk, by decide, rfl, rfl, ?_, by decide,
      serves (by decide +kernel) _ _, whole (by decide +kernel) _ _, ?_⟩
    · show depotChunk.length = 128 + 16
      unfold depotChunk
      rw [List.length_append, Config.gcmTag_length, l]
    · show Config.gcmTag (zeros 32) (leBytes 8 1 ++ leBytes 4 2) (leBytes 8 1 ++ leBytes 4 2 ++ leBytes 4 128)
        (Config.gcmDecrypt (zeros 32) (leBytes 8 1 ++ leBytes 4 2) (leBytes 8 1 ++ leBytes 4 2 ++ leBytes 4 128) (depotChunk.take 128)) = depotChunk.drop 128
      unfold depotChunk
      rw [List.take_left' l, List.drop_left' l, Config.gcmDecrypt_gcmEncrypt]
  · intro done m
    refine ⟨st [] fun d => { d with eth := { d.eth with recs := [rec1 true done] } }, 0, rec1 true done, ?_⟩
    simp only [List.mem_cons, List.not_mem_nil, or_false] at m
    rcases m with rfl | rfl <;> decide

/-- A session of endpoint 2, client 10, with keys of zeros, that has received RX messages and a request under way or none. -/
def sess (req : Option Nat := none) (sent : List SvcSent := []) : Session := ⟨6, 2, 10, 500, [], 0x101, 3, 4, zeros 36, zeros 36, [], sent, 0, req, none⟩
def serving2 (q : Session) (g : Dev → Dev := id) : State :=
  eth (fun d => g { d with eth := { d.eth with sessions := [q], nextSession := 7 } }) (allReady ++ [(F.ETH_SVC_UDP_PORT 2, 4000), (F.ETH_SVC_RING4K 2, 256)])
/-- The next message of the session, sealed. -/
def head6 (typ len : Nat) : List Byte := svcHdr 0x101 typ 0 6 4 4 len 0
def nonce4 : List Byte := zeros 4 ++ leBytes 8 4
def sealed (typ : Nat) (p : List Byte) : List Byte :=
  head6 typ p.length ++ (Config.gcmEncrypt (zeros 32) nonce4 (head6 typ p.length) p ++ Config.gcmTag (zeros 32) nonce4 (head6 typ p.length) p)

theorem sealed_head (typ : Nat) (p : List Byte) (i n : Nat) (h : i + n ≤ 32) : kNat (sealed typ p) i n = kNat (head6 typ p.length) i n := by
  have l : (head6 typ p.length).length = 32 := rfl
  unfold kNat sealed
  rw [List.drop_append_of_le_length (by omega), List.take_append_of_le_length (by rw [List.length_drop]; omega)]

theorem sealed_parts (typ : Nat) (p : List Byte) : (sealed typ p).take 32 = head6 typ p.length ∧
    ((sealed typ p).drop 32).take p.length = Config.gcmEncrypt (zeros 32) nonce4 (head6 typ p.length) p ∧
    (sealed typ p).drop (32 + p.length) = Config.gcmTag (zeros 32) nonce4 (head6 typ p.length) p := by
  have l : (head6 typ p.length).length = 32 := rfl
  have e : (Config.gcmEncrypt (zeros 32) nonce4 (head6 typ p.length) p).length = p.length := Config.gcmEncrypt_length _ _ _ _
  refine ⟨List.take_left' l, ?_, ?_⟩
  · rw [show (sealed typ p).drop 32 = _ from List.drop_left' l, List.take_left' e]
  · rw [← List.drop_drop, show (sealed typ p).drop 32 = _ from List.drop_left' l, List.drop_left' e]

theorem sealed_genuine (typ : Nat) (p : List Byte) (h : kNat (head6 typ p.length) 16 4 = p.length) (q : Session) (k : q.keyIn = zeros 36) :
    plainOf q (sealed typ p) = p ∧ Genuine q (sealed typ p) := by
  obtain ⟨h1, h2, h3⟩ := sealed_parts typ p
  have l : kNat (sealed typ p) 16 4 = p.length := by rw [sealed_head typ p 16 4 (by decide), h]
  have n : (zeros 36).drop 32 ++ leBytes 8 (kNat (sealed typ p) 8 4) = nonce4 := by
    rw [sealed_head typ p 8 4 (by decide)]; rfl
  have t : (zeros 36).take 32 = zeros 32 := rfl
  have e : plainOf q (sealed typ p) = p := by
    unfold plainOf
    rw [k, n, t, h1, l, h2, Config.gcmDecrypt_gcmEncrypt]
  refine ⟨e, ?_⟩
  unfold Genuine
  rw [e, k, n, t, h1, l, h3]

theorem sealed_inTurn (req : Option Nat) (g : Dev → Dev) (typ flags : Nat) (p : List Byte)
    (up : (serving2 (sess req) g).dev.ethUp = true)
    (find : ((serving2 (sess req) g).dev.svcReap.eth.sessions.find? fun q => q.closing.isNone && q.ep == 2 && q.id == 6) = some (sess req))
    (sound : (kNat (head6 typ p.length) 2 1 == typ && decide (kNat (head6 typ p.length) 3 1 ≤ flags) && kNat (head6 typ p.length) 20 4 == 0 &&
      kNat (head6 typ p.length) 24 8 == 0 && decide (kNat (head6 typ p.length) 16 4 ≤ 8192)) = true)
    (len : kNat (head6 typ p.length) 16 4 = p.length) : InTurn (serving2 (sess req) g).dev 2 typ flags (sealed typ p) (sess req) where
  up := up
  open_ := by rw [sealed_head typ p 4 4 (by decide)]; exact find
  sound := by
    unfold svcSound
    rw [sealed_head typ p 2 1 (by decide), sealed_head typ p 3 1 (by decide), sealed_head typ p 20 4 (by decide), sealed_head typ p 24 8 (by decide),
      sealed_head typ p 16 4 (by decide), sound, len]
    have s : (sealed typ p).length = 32 + (p.length + 16) := by
      unfold sealed
      rw [List.length_append, List.length_append, Config.gcmTag_length, Config.gcmEncrypt_length]
      rfl
    rw [s]
    simp [Nat.add_assoc]
  ver := by rw [sealed_head typ p 0 2 (by decide)]; rfl
  seq := by rw [sealed_head typ p 8 4 (by decide)]; rfl

/-- An OPEN of a client that speaks versions from lo to hi. -/
def openBytes (lo hi : Nat) : List Byte := svcHdr 0x100 1 0 0 1 0 68 0 ++ leBytes 2 lo ++ leBytes 2 hi ++ zeros 8 ++ zeros 56

theorem test_ServiceSessions_open :
    ∀ x ∈ [(0x100, 0x101), (0x200, 0x210)], ∃ (s : State) (ep : Fin 16) (ip : BitVec 128) (port : BitVec 16) (bytes : List Byte), s.live = true ∧
      s.dev.ethUp = true ∧ s.dev.fld (F.ETH_SVC_UDP_PORT ep) ≠ 0 ∧ s.lifecycle = 1 ∧ svcSound bytes 1 0 0 = true ∧ bytes.length = 100 ∧
      kNat bytes 4 4 = 0 ∧ kNat bytes 8 4 = 1 ∧ s.dev.svcReap.fld F.ETH_STATUS_FLOWS_FREE ≠ 0 ∧
      (∀ q ∈ s.dev.svcReap.eth.sessions, ¬ (q.closing = none ∧ q.ep = ep.val ∧ q.ip = ip.toNat ∧ q.port = port.toNat ∧ q.pub = bytes.drop 44)) ∧
      (kNat bytes 32 2, kNat bytes 34 2) = x := by
  intro x m
  refine ⟨serving2 (sess none), 2, 11, 500, openBytes x.1 x.2, ?_⟩
  simp only [List.mem_cons, List.not_mem_nil, or_false] at m
  rcases m with rfl | rfl <;> decide +kernel

theorem test_ServiceSessions_messages :
    (∃ (s : State) (ep : Fin 16) (bytes : List Byte) (q : Session), s.live = true ∧ InTurn s.dev ep 5 0 bytes q ∧ Genuine q bytes) ∧
    (∃ (s : State) (ep : Fin 16) (bytes : List Byte) (q : Session), s.live = true ∧ InTurn s.dev ep 8 0 bytes q ∧ Genuine q bytes) ∧
    (∃ (s : State) (ep : Fin 16) (bytes : List Byte) (q : Session), s.live = true ∧ InTurn s.dev ep 3 1 bytes q ∧
      s.dev.ringAt ep 0 + 2 ^ 20 ≤ hbmSize ∧ LinesServe s.dev (s.dev.ringAt ep 0) (2 ^ 20) ∧ s.dev.repairing (s.dev.ringAt ep 0) (2 ^ 20) = false ∧ Genuine q bytes ∧
      let p := plainOf q bytes
      kNat p 12 4 = 0 ∧ kNat p 8 4 ≤ 2044 ∧ kNat bytes 16 4 = 16 + 4 * kNat p 8 4 ∧
      num s.dev (s.dev.ringAt ep 0 + 8) 8 - num s.dev (s.dev.ringAt ep 0) 8 + entryBytes p.length ≤ ringArea) ∧
    (∃ (s : State) (ep : Fin 16) (bytes : List Byte) (q : Session), s.live = true ∧ InTurn s.dev ep 6 0 bytes q ∧ Genuine q bytes ∧ q.req = none) ∧
    (∃ (s : State) (ep : Fin 16) (bytes : List Byte) (q : Session) (r : Nat), s.live = true ∧ InTurn s.dev ep 6 0 bytes q ∧ Genuine q bytes ∧
      q.req = some r ∧ s.dev.ringAt ep 0 + 2 ^ 20 ≤ hbmSize ∧ LinesServe s.dev (s.dev.ringAt ep 0) (2 ^ 20) ∧ s.dev.repairing (s.dev.ringAt ep 0) (2 ^ 20) = false ∧
      num s.dev (s.dev.ringAt ep 0 + 8) 8 - num s.dev (s.dev.ringAt ep 0) 8 + 16 ≤ ringArea) := by
  have full : ∀ req, req = none ∨ req = some 9 → LinesServe (serving2 (sess req)).dev ((serving2 (sess req)).dev.ringAt 2 0) (2 ^ 20) := fun req h => by
    rcases h with rfl | rfl <;> exact serves (by decide +kernel) _ _
  have sound : ∀ req, req = none ∨ req = some 9 →
      (serving2 (sess req)).dev.repairing ((serving2 (sess req)).dev.ringAt 2 0) (2 ^ 20) = false := fun req h => by
    rcases h with rfl | rfl <;> exact whole (by decide +kernel) _ _
  refine ⟨⟨serving2 (sess none), 2, sealed 5 [], sess none, rfl, ?_, ?_⟩, ⟨serving2 (sess none), 2, sealed 8 [], sess none, rfl, ?_, ?_⟩,
    ⟨serving2 (sess none), 2, sealed 3 (zeros 16), sess none, rfl, ?_, by decide +kernel, full _ (.inl rfl), sound _ (.inl rfl), ?_, ?_⟩,
    ⟨serving2 (sess none), 2, sealed 6 [], sess none, rfl, ?_, ?_, rfl⟩,
    ⟨serving2 (sess (some 9)), 2, sealed 6 [], sess (some 9), 9, rfl, ?_, ?_, rfl, by decide +kernel, full _ (.inr rfl), sound _ (.inr rfl), by decide +kernel⟩⟩
  · exact sealed_inTurn none id 5 0 [] (by decide +kernel) (by decide +kernel) (by decide +kernel) (by decide +kernel)
  · exact (sealed_genuine 5 [] (by decide) _ rfl).2
  · exact sealed_inTurn none id 8 0 [] (by decide +kernel) (by decide +kernel) (by decide +kernel) (by decide +kernel)
  · exact (sealed_genuine 8 [] (by decide) _ rfl).2
  · exact sealed_inTurn none id 3 1 (zeros 16) (by decide +kernel) (by decide +kernel) (by decide +kernel) (by decide +kernel)
  · exact (sealed_genuine 3 (zeros 16) (by decide) _ rfl).2
  · dsimp only
    rw [(sealed_genuine 3 (zeros 16) (by decide) (sess none) rfl).1, sealed_head 3 (zeros 16) 16 4 (by decide)]
    decide +kernel
  · exact sealed_inTurn none id 6 0 [] (by decide +kernel) (by decide +kernel) (by decide +kernel) (by decide +kernel)
  · exact (sealed_genuine 6 [] (by decide) _ rfl).2
  · exact sealed_inTurn (some 9) id 6 0 [] (by decide +kernel) (by decide +kernel) (by decide +kernel) (by decide +kernel)
  · exact (sealed_genuine 6 [] (by decide) _ rfl).2

/-- A response of 8 bytes for session 6 at the head of endpoint 2's response ring. -/
def response : List Byte := leBytes 4 6 ++ leBytes 4 9 ++ leBytes 4 8 ++ leBytes 4 3 ++ [1, 2, 3, 4, 5, 6, 7, 8]
def answered : State := serving2 (sess none) fun d => mem (2 ^ 21 + 64) response (mem (2 ^ 21 + 8) (leBytes 8 80) d)

theorem test_ServiceSessions_sent :
    (∃ (s : State) (ep : Fin 16) (q : Session), s.live = true ∧ s.dev.ethUp = true ∧ s.dev.fld (F.ETH_SVC_UDP_PORT ep) ≠ 0 ∧
      let a := s.dev.ringAt ep 1
      let head := num s.dev a 8
      let h := (List.range 16).map fun i => s.dev.mb (a + 64 + (head + i) % ringArea)
      a + 2 ^ 20 ≤ hbmSize ∧ LinesServe s.dev a (2 ^ 20) ∧ s.dev.repairing a (2 ^ 20) = false ∧ head ≠ num s.dev (a + 8) 8 ∧ kNat h 12 4 = 3 ∧ kNat h 8 4 ≤ 8192 ∧
      (s.dev.svcReap.eth.sessions.find? fun q => q.closing.isNone && q.ep == ep.val && q.id == kNat h 0 4) = some q) ∧
    (∀ n ∈ [7, 8], ∃ (s : State) (session : BitVec 32) (q : Session) (m : SvcSent) (ms : List SvcSent), s.live = true ∧
      (s.dev.eth.sessions.find? fun q => q.closing.isNone && q.id == session.toNat) = some q ∧ q.sent = m :: ms ∧ m.resends = n) := by
  refine ⟨⟨answered, 2, sess none, by decide, by decide +kernel, by decide +kernel, by decide +kernel,
    serves (by decide +kernel) _ _, whole (by decide +kernel) _ _, by decide +kernel, by decide +kernel, by decide +kernel, by decide +kernel⟩, ?_⟩
  intro n m
  refine ⟨serving2 (sess none [⟨4, [1], 0, n⟩]), 6, sess none [⟨4, [1], 0, n⟩], ⟨4, [1], 0, n⟩, [], ?_⟩
  simp only [List.mem_cons, List.not_mem_nil, or_false] at m
  rcases m with rfl | rfl <;> decide +kernel

/-! ## The block as a whole -/

theorem test_step_takes_the_front :
    (match step { regs3 with pending := [.sadd 3 (sa 4 1 false 2 0 0), .snop 3 ⟨hd0, 0⟩] } with | .next t => t.pending | _ => []) = [.snop 3 ⟨hd0, 0⟩] := by
  decide +kernel

theorem test_no_words (n w : Nat) (s : State) : decodeTableWord n w = none ∧ s.withFetchWord n w = s := ⟨rfl, rfl⟩

/-- Words of Table 12 of the instruction reference. -/
theorem test_words :
    decodeSlot 3 0x2B00000100000004 = some (.sloop 3 ⟨hd0, false, 0, 0, 1, 4⟩) ∧
    decodeSlot 3 0x0101090000000200 = some (.sadd 3 (sa 4 4 true 0 0 0x200)) ∧
    decodeSlot 3 0x810020107FFE4000 = some (.mload 3 ⟨hd0, false, 1, 0, 0, 2, 0, 127, 127, 0x4000⟩) ∧
    decodeSlot 3 0x2C0000000000027E = some (.swait 3 ⟨hd0, false, 0, 0, 638⟩) ∧
    decodeSlot 3 0x820040000C808000 = some (.mstream 3 ⟨hd0, false, 2, 0, 0, 0, 0, 3, 4, 1, 0⟩) ∧
    decodeSlot 3 0x3F00000000000000 = some (.endKernel 3 ⟨hd0, 0⟩) ∧ decodeSlot 3 0x7F00000000000000 = none := ⟨rfl, rfl, rfl, rfl, rfl, rfl, rfl⟩

theorem test_IssueRules_met :
    (∃ (s : State) (n : CoreId), s.live = true ∧ s.dev.issuing n = false) ∧
    (∃ (s : State) (n : CoreId) (f : FmtSA), s.live = true ∧ s.dev.issuing n = true ∧ (s.dev.core n).acq = none ∧ s.dev.split n = false ∧
      (s.dev.core n).pend = [] ∧ (s.dev.core n).faults = [] ∧ s.dev.acts n f.hd .normal = false) ∧
    (∀ f ∈ [sa 4 1 false 2 0 5, sa 4 1 true 2 0 5, sa 4 1 false 2 1 0, { sa 4 1 false 2 0 0 with hd := ⟨false, 0, true⟩ }], ∃ (s : State) (n : CoreId),
      s.live = true ∧ s.dev.issuing n = true ∧ (s.dev.core n).acq = none ∧ s.dev.split n = false ∧ (s.dev.core n).pend = [] ∧
      (s.dev.core n).faults = [] ∧ s.dev.acts n f.hd .normal = true ∧ (¬ SaPlain f ∨ f.sub ≠ 0 ∨ f.hd.set = true)) := by
  refine ⟨⟨st [], 3, by decide⟩, ⟨k3, 3, { sa 4 1 false 2 0 0 with hd := ⟨true, 0, false⟩ }, by decide⟩, fun f m => ⟨k3, 3, ?_⟩⟩
  unfold SaPlain
  simp only [List.mem_cons, List.not_mem_nil, or_false] at m
  rcases m with rfl | rfl | rfl | rfl <;> decide

theorem test_isolation_met :
    ∃ (i : Instr) (n : CoreId) (m : Nat) (s t : State), slotCore i = some n ∧ m ≠ n.val ∧ exec i s = .next t ∧ (t.dev.core n).sreg 4 ≠ (s.dev.core n).sreg 4 := by
  have h : (match exec (.sadd 3 (sa 4 1 false 2 0 0)) regs3 with | .next t => (t.dev.core 3).sreg 4 != (regs3.dev.core 3).sreg 4 | _ => false) = true := by decide +kernel
  cases e : exec (.sadd 3 (sa 4 1 false 2 0 0)) regs3 with
  | next t => rw [e] at h; exact ⟨_, 3, 4, _, t, rfl, by decide, e, by simpa using h⟩
  | fault f => rw [e] at h; cases h
  | refused r => rw [e] at h; cases h

theorem test_encoding_met :
    ∃ (i : Instr) (n : CoreId) (w : Word), slotCore i = some n ∧ encodeSlot i = some w ∧ decodeSlot n w = some i :=
  ⟨.sadd 3 (sa 4 4 true 0 0 0x200), 3, 0x0101090000000200, rfl, rfl, rfl⟩

theorem test_sound_met : ∃ s t : State, s.Sound ∧ step s = .next t ∧ s.dev.mem = [(64, 5)] :=
  ⟨st [(F.TTH_STATUS_ACTIVE, 1)] fun d => d.wr 64 [5, 0], _, ⟨by decide, by decide⟩, rfl, by decide⟩

theorem test_locks_met :
    (∃ s : State, s.live = true ∧ s.dev.bit F.TTH_STATUS_ACTIVE = true) ∧ (∃ s : State, s.live = true ∧ s.dev.bit F.NVS_CMD_STATUS_BUSY = true) :=
  ⟨⟨st [(F.TTH_STATUS_ACTIVE, 1)], by decide⟩, ⟨st [(F.NVS_CMD_STATUS_BUSY, 1)], by decide⟩⟩

/-! ## Terms that are no event of the block -/

def badSensors : Sensors := ⟨0, 0, 0, 0, 0, 0, 0, 144, List.replicate 12 0⟩
def hdr0 : MboxHdr := ⟨0x100, 1, 0, false⟩

theorem test_ill_formed_power :
    (Instr.powerFailure true 256 0).wf = false ∧ (Instr.electricalTrip 256 0).wf = false ∧ (Instr.thermalTrip badSensors).wf = false ∧
    (Instr.throttleEval badSensors).wf = false ∧ (Instr.registerWrite 0 0 65 0).wf = false := by decide

theorem test_ill_formed_ring :
    (Instr.electionMessage 0 0 ⟨256, 0, 0, 0⟩).wf = false ∧ (Instr.tickMarker 0 ⟨0, 65536, false, false, false, false, 0, 0⟩ 0).wf = false ∧
    (Instr.relaySliceIn 0 [0]).wf = false ∧ (Instr.scoreboardArrival 0 [0]).wf = false ∧ (Instr.peerRequest 0 0 0 0 (.load 0)).wf = false ∧
    (Instr.farRequest 0 0 0 0 0 (.store [])).wf = false ∧ (Instr.commandSubmit 0 0 0 []).wf = false := by decide

/-- A list is too long for a landing slot, or for the lines of HBM. -/
theorem test_ill_formed_long (n : Nat) (h : 0x180000000 < n) :
    (Instr.spoolLastByte 0 (zeros n)).wf = false ∧ (Instr.returnHop 0 0 (zeros n)).wf = false ∧ (Instr.relayVectorIn 0 (zeros n)).wf = false ∧
    (Instr.mtest 0 (List.replicate n 0)).wf = false ∧ (Instr.updateChunk hdr0 0 (zeros n)).wf = false := by
  have l : (zeros n).length = n := List.length_replicate
  refine ⟨?_, ?_, ?_, ?_, ?_⟩
  · exact decide_eq_false (by rw [l]; omega)
  · exact decide_eq_false (by rw [l]; omega)
  · exact decide_eq_false (by rw [l]; omega)
  · exact decide_eq_false (by rw [List.length_replicate]; omega)
  · exact decide_eq_false (by rw [l]; omega)

theorem test_ill_formed_link :
    (Instr.linkKeyExchange 0 [] [] []).wf = false ∧ (Instr.frameReceived 0 true true true 0 0 0 0 161 0 0 false).wf = false ∧
    (Instr.ethFrameReceived ⟨63, none, 0, true, none, 0⟩).wf = false ∧ (Instr.bootReq 0 []).wf = false ∧ (Instr.chunk 0 []).wf = false ∧
    (Instr.openMsg 0 0 0 []).wf = false ∧ (Instr.submit 0 []).wf = false ∧ (Instr.ack 0 []).wf = false ∧ (Instr.close 0 []).wf = false ∧
    (Instr.keepalive 0 []).wf = false := by decide

theorem test_ill_formed_mailbox :
    (Instr.jobCreate hdr0 ⟨0, 0, 0, 0, 0, 0, 0, List.replicate 2049 0, 0, 0⟩).wf = false ∧ (Instr.traceSet hdr0 []).wf = false ∧
    (Instr.mailboxAttest hdr0 []).wf = false ∧ (Instr.mailboxKeyImport hdr0 []).wf = false ∧ (Instr.inboxMessage 0 0 (.pause 65536)).wf = false := by
  decide +kernel

theorem test_well_formed : (Instr.tickMarker 0 ⟨3, 9, false, false, true, false, 100000, 16⟩ 80).wf = true ∧ (Instr.thermalTrip ⟨4800, 0, 0, 0, 0, 0, 90, 143, List.replicate 12 60⟩).wf = true := by
  decide

end Sys2Proof.Tests
end

section
/-! Writes of the registers that set the carousel up: what a locked write leaves alone, and that ACTIVE locks every one of them (R80, R94). -/

namespace Sys2Proof.Machine

/-! ## A register as a whole under a raised event or a reserved value -/

/-- A register's word is its field of all 64 bits, so what is known of fields holds of words. -/
theorem Dev.reg_toNat_eq_fld (d : Dev) (k : Nat) : (d.reg k).toNat = d.fld ⟨k, 63, 0⟩ := by
  simp only [Dev.fld, Fld.of, Nat.pow_zero, Nat.div_one]
  exact (Nat.mod_eq_of_lt (d.reg k).isLt).symm

/-- Raising an event reaches the event's register and two registers of telemetry only. -/
theorem Dev.reg_raise_ne (d : Dev) (g : Fld) (u c k : Nat) (hg : g.Ok) (hk : k ≠ g.reg) (hc : k ≠ R.TEL_ERR_COUNT) (he : k ≠ R.TEL_EVENT) :
    (d.raise g u c).reg k = d.reg k := by
  have plain : Fld.Plain ⟨k, 63, 0⟩ := ⟨⟨Nat.zero_le 63, Nat.lt_succ_self 63⟩, .inl hc, .inl he, .inl he⟩
  apply BitVec.eq_of_toNat_eq
  rw [Dev.reg_toNat_eq_fld, Dev.reg_toNat_eq_fld, d.fld_raise g u c _ plain hg (.inl hk)]

@[simp] theorem Dev.rsvWrite_mem (d : Dev) (off : Nat) : (d.rsvWrite off).mem = d.mem := by simp [Dev.rsvWrite]
@[simp] theorem Dev.rsvWrite_ring (d : Dev) (off : Nat) : (d.rsvWrite off).ring = d.ring := by simp [Dev.rsvWrite]

/-- Discarding a reserved value reaches the two DEV registers that record it and telemetry only. -/
theorem Dev.reg_rsvWrite_ne (d : Dev) (off k : Nat) (ha : k ≠ R.DEV_RSV_ADDR) (hd : k ≠ R.DEV_EVENT) (hc : k ≠ R.TEL_ERR_COUNT) (he : k ≠ R.TEL_EVENT) :
    (d.rsvWrite off).reg k = d.reg k := by
  unfold Dev.rsvWrite
  rw [Dev.reg_raise_ne _ F.DEV_EVENT_RESERVED_WRITE _ _ _ (by decide) hd hc he, Dev.reg_setFld_ne _ F.DEV_RSV_ADDR_ADDR _ _ ha]

/-- A guarded write under its lock is discarded: only its event and, of a reserved value, the record of R4 are left of it. -/
theorem Dev.guarded_locked (d : Dev) (rsv : Bool) (ev : Fld) (off : Nat) (g : Dev → Dev) :
    d.guarded true rsv ev off g = (if rsv then d.rsvWrite off else d).raise ev 0 clsInfo := rfl

/-! ## The registers that ACTIVE locks -/

/-- The registers that R80 and R94 lock. -/
def carouselSetup : List Nat :=
  [R.TTH_CTRL, R.TTH_STATION, R.TTH_LIST_CW, R.TTH_LIST_CCW, R.TTH_ROT, R.TTH_TAIL_CW, R.TTH_TAIL_CCW, R.TTH_GRAD_CW, R.TTH_GRAD_CCW]

/-- None of them is a register in which a discarded write is recorded. -/
theorem carouselSetup_ne_record : ∀ k ∈ carouselSetup,
    k ≠ R.TTH_EVENT ∧ k ≠ R.DEV_RSV_ADDR ∧ k ≠ R.DEV_EVENT ∧ k ≠ R.TEL_ERR_COUNT ∧ k ≠ R.TEL_EVENT := by decide

/-- All of them lie in the TTH block, and none is its command register. -/
theorem carouselSetup_in_TTH : ∀ k ∈ carouselSetup, k / 0x10000 = 1 ∧ k % 8 = 0 ∧ k ≠ R.TTH_RELAY_CMD := by decide

/-- Each has a row of its own, which no select register moves. -/
theorem carouselSetup_row : ∀ k ∈ carouselSetup, ∃ r ∈ rowsTTH, r.one = false ∧ isInst k r.vis r.stride r.count = true := by decide

theorem Dev.regAt_carouselSetup (d : Dev) {k : Nat} (h : k ∈ carouselSetup) : (d.regAt k).isSome = true := by
  obtain ⟨r, hr, hone, hinst⟩ := carouselSetup_row k h
  obtain ⟨hblock, -, -⟩ := carouselSetup_in_TTH k h
  have hkey : r.keyAt d k = some k := by simp [RegRow.keyAt, hone, hinst]
  rw [Dev.regAt, hblock, List.findSome?_isSome_iff]
  exact ⟨r, hr, by rw [hkey]; rfl⟩

/-! ## Their writes while ACTIVE = 1 -/

/-- What is left of a discarded write: LOCKED_WRITE and, when the value was reserved too, the record of R4. -/
def Dev.tthDiscarded (d : Dev) (off : Nat) (rsv : Bool) : Dev := (if rsv then d.rsvWrite off else d).raise F.TTH_EVENT_LOCKED_WRITE 0 clsInfo

theorem Dev.tthDiscarded_bit (d : Dev) (off : Nat) (rsv : Bool) : (d.tthDiscarded off rsv).bit F.TTH_EVENT_LOCKED_WRITE = true := by
  unfold Dev.tthDiscarded Dev.bit
  rw [Dev.fld_raise_self _ _ _ _ (by decide) rfl]; rfl

theorem Dev.tthDiscarded_mem (d : Dev) (off : Nat) (rsv : Bool) : (d.tthDiscarded off rsv).mem = d.mem := by
  cases rsv <;> simp [Dev.tthDiscarded]

theorem Dev.tthDiscarded_ring (d : Dev) (off : Nat) (rsv : Bool) : (d.tthDiscarded off rsv).ring = d.ring := by
  cases rsv <;> simp [Dev.tthDiscarded]

theorem Dev.tthDiscarded_reg (d : Dev) (off : Nat) (rsv : Bool) {k : Nat} (h : k ∈ carouselSetup) : (d.tthDiscarded off rsv).reg k = d.reg k := by
  obtain ⟨hevent, haddr, hdev, hcount, htel⟩ := carouselSetup_ne_record k h
  rw [Dev.tthDiscarded, Dev.reg_raise_ne _ F.TTH_EVENT_LOCKED_WRITE _ _ _ (by decide) hevent hcount htel]
  cases rsv with
  | false => rfl
  | true => exact Dev.reg_rsvWrite_ne d off k haddr hdev hcount htel

theorem Dev.writeTthCtrl_active {d : Dev} (h : d.bit F.TTH_STATUS_ACTIVE = true) (v : Nat) : d.writeTthCtrl v = d.tthDiscarded R.TTH_CTRL false := by
  simp [Dev.writeTthCtrl, h, Dev.tthDiscarded]

/-- While ACTIVE = 1 each branch of a write to the TTH block that sets the carousel up discards it. -/
theorem Dev.writeTTH_active {d : Dev} (h : d.bit F.TTH_STATUS_ACTIVE = true) {off : Nat} (hoff : off ∈ carouselSetup) (v : Nat) :
    ∃ rsv, d.writeTTH off v = d.tthDiscarded off rsv := by
  have branches : off = R.TTH_CTRL ∨ off = R.TTH_STATION ∨ (off = R.TTH_TAIL_CW ∨ off = R.TTH_TAIL_CCW) ∨
      (off = R.TTH_LIST_CW ∨ off = R.TTH_LIST_CCW ∨ off = R.TTH_ROT ∨ off = R.TTH_GRAD_CW ∨ off = R.TTH_GRAD_CCW) := by
    simp only [carouselSetup, List.mem_cons, List.not_mem_nil, or_false] at hoff
    tauto
  rcases branches with rfl | rfl | tail | list
  · exact ⟨false, Dev.writeTthCtrl_active h v⟩
  · have other : R.TTH_STATION ≠ R.TTH_CTRL ∧ R.TTH_STATION ≠ R.TTH_MODE_REQ := by decide
    exact ⟨stationRsv v, by simp only [Dev.writeTTH, h, other, if_true, if_false, Bool.true_or, Dev.guarded_locked, Dev.tthDiscarded]⟩
  · have other : off ≠ R.TTH_CTRL ∧ off ≠ R.TTH_MODE_REQ ∧ off ≠ R.TTH_STATION ∧
        ¬(off = R.TTH_LIST_CW ∨ off = R.TTH_LIST_CCW ∨ off = R.TTH_ROT ∨ off = R.TTH_GRAD_CW ∨ off = R.TTH_GRAD_CCW) := by
      rcases tail with rfl | rfl <;> decide
    exact ⟨tailRsv v, by simp only [Dev.writeTTH, h, tail, other, if_true, if_false, Dev.guarded_locked, Dev.tthDiscarded]⟩
  · have other : off ≠ R.TTH_CTRL ∧ off ≠ R.TTH_MODE_REQ ∧ off ≠ R.TTH_STATION := by
      rcases list with rfl | rfl | rfl | rfl | rfl <;> decide
    exact ⟨false, by simp [Dev.writeTTH, h, list, other, Dev.tthDiscarded]⟩

/-! ## The two instructions that write them -/

theorem exec_registerWrite (t : Tag) (off : BitVec 24) (width : Nat) (v : Word) (s : State) :
    exec (.registerWrite t off width v) s = execRegisterWrite t off width v s := rfl

theorem exec_tthEnable (t : Tag) (v : Word) (s : State) : exec (.tthEnable t v) s = execTthEnable t v s := rfl

/-- A firmware write of an aligned, assigned register on a running device is the write of its block (R296, R449). -/
theorem exec_registerWrite_fw {s : State} (hl : s.live = true) {off : BitVec 24} (ha : off.toNat % 8 = 0)
    (hr : (s.dev.regAt off.toNat).isSome = true) (v : Word) :
    exec (.registerWrite fwTag off 8 v) s = .next (s.writeBlock off.toNat v.toNat) := by
  have hopen : s.dev.regOpen 0xFFFF off.toNat 8 = true := by simp [Dev.regOpen, ha, hr]
  have hwrite : (s.regWrite 0xFFFF off.toNat 8 v.toNat).1 = s.writeBlock off.toNat v.toNat := by
    simp [State.regWrite, hopen, Nat.mod_eq_of_lt v.isLt]
  rw [exec_registerWrite, execRegisterWrite, actS_live hl, show fwTag.toNat = 0xFFFF from rfl, hwrite]

/-- A write in the TTH block that is no relay command (R448). -/
theorem State.writeBlock_TTH (s : State) {off : Nat} (hblock : off / 0x10000 = 1) (hcmd : off ≠ R.TTH_RELAY_CMD) (v : Nat) :
    s.writeBlock off v = s.on fun d => d.writeTTH off v := by
  simp [State.writeBlock, hblock, hcmd]

theorem exec_registerWrite_carouselSetup {s : State} (hl : s.live = true) {off : BitVec 24} (hoff : off.toNat ∈ carouselSetup) (v : Word) :
    exec (.registerWrite fwTag off 8 v) s = .next (s.on fun d => d.writeTTH off.toNat v.toNat) := by
  obtain ⟨hblock, halign, hcmd⟩ := carouselSetup_in_TTH _ hoff
  rw [exec_registerWrite_fw hl halign (Dev.regAt_carouselSetup s.dev hoff), State.writeBlock_TTH s hblock hcmd]

theorem exec_tthEnable_fw {s : State} (hl : s.live = true) (v : Word) :
    exec (.tthEnable fwTag v) s = .next (s.on fun d => d.writeTthCtrl (v ||| 1).toNat) := by
  simp only [exec_tthEnable, execTthEnable, act_live hl, Dev.fw, show fwTag.toNat = 0xFFFF from rfl, if_true]

end Sys2Proof.Machine

namespace Sys2Proof.Claims

open Sys2Proof.Machine

/-- Settles O59: both instructions come to a discarded write, which leaves the register, memory and ring as they were and raises LOCKED_WRITE. -/
theorem carouselRegistersLocked : Obligations.CarouselRegistersLocked := by
  intro s off v hl hactive hoff i hi
  have hdiscard : ∃ rsv, exec i s = .next { s with dev := s.dev.tthDiscarded off.toNat rsv } := by
    rcases hi with rfl | ⟨hctrl, rfl⟩
    · obtain ⟨rsv, hrsv⟩ := Dev.writeTTH_active hactive hoff v.toNat
      exact ⟨rsv, by rw [exec_registerWrite_carouselSetup hl hoff, State.on, hrsv]⟩
    · exact ⟨false, by rw [exec_tthEnable_fw hl, State.on, Dev.writeTthCtrl_active hactive, hctrl]⟩
  obtain ⟨rsv, hexec⟩ := hdiscard
  exact ⟨_, hexec, Dev.tthDiscarded_reg _ _ _ hoff, Dev.tthDiscarded_bit _ _ _, Dev.tthDiscarded_mem _ _ _, Dev.tthDiscarded_ring _ _ _⟩

end Sys2Proof.Claims
end

section
/-! A write of NVS_CMD while a command runs (R435): it comes to a refusal that reaches neither the command that runs nor NVS_CMD_STATUS. -/

namespace Sys2Proof.Machine

/-- A flag reads as before when its register does. -/
theorem Dev.bit_eq_of_reg_eq {d e : Dev} {f : Fld} (h : e.reg f.reg = d.reg f.reg) : e.bit f = d.bit f := by
  simp only [Dev.bit, Dev.fld, h]

@[simp] theorem Dev.rsvWrite_nvs (d : Dev) (off : Nat) : (d.rsvWrite off).nvs = d.nvs := by simp [Dev.rsvWrite]

/-- What is left of a refused command: CMD_ERR and, when its word was reserved too, the record of R4. -/
def Dev.nvsBusyRefused (d : Dev) (rsv : Bool) : Dev := (if rsv then d.rsvWrite R.NVS_CMD else d).raise F.NVS_EVENT_CMD_ERR 0 clsContained

theorem Dev.nvsBusyRefused_bit (d : Dev) (rsv : Bool) : (d.nvsBusyRefused rsv).bit F.NVS_EVENT_CMD_ERR = true := by
  unfold Dev.nvsBusyRefused Dev.bit
  rw [Dev.fld_raise_self _ _ _ _ (by decide) rfl]; rfl

theorem Dev.nvsBusyRefused_mem (d : Dev) (rsv : Bool) : (d.nvsBusyRefused rsv).mem = d.mem := by
  cases rsv <;> simp [Dev.nvsBusyRefused]

theorem Dev.nvsBusyRefused_nvs (d : Dev) (rsv : Bool) : (d.nvsBusyRefused rsv).nvs = d.nvs := by
  cases rsv <;> simp [Dev.nvsBusyRefused]

/-- A reserved command word's record does not reach NVS_CMD_STATUS. -/
theorem Dev.rsvWrite_nvsStatus (d : Dev) (off : Nat) : (d.rsvWrite off).reg R.NVS_CMD_STATUS = d.reg R.NVS_CMD_STATUS :=
  Dev.reg_rsvWrite_ne d off _ (by decide) (by decide) (by decide) (by decide)

theorem Dev.nvsBusyRefused_nvsStatus (d : Dev) (rsv : Bool) : (d.nvsBusyRefused rsv).reg R.NVS_CMD_STATUS = d.reg R.NVS_CMD_STATUS := by
  rw [Dev.nvsBusyRefused, Dev.reg_raise_ne _ F.NVS_EVENT_CMD_ERR _ _ _ (by decide) (by decide) (by decide) (by decide)]
  split
  · exact d.rsvWrite_nvsStatus _
  · rfl

/-- A command word with a reserved OP or CLASS. -/
def nvsCmdRsv (v : Nat) : Bool :=
  (F.NVS_CMD_OP.ofNat v != 1 && F.NVS_CMD_OP.ofNat v != 2) || F.NVS_CMD_CLASS.ofNat v == 0 || decide (5 < F.NVS_CMD_CLASS.ofNat v)

/-- While BUSY = 1 a write of NVS_CMD is refused, whether its word is reserved or not. -/
theorem State.writeNvsCmd_busy {s : State} (h : s.dev.bit F.NVS_CMD_STATUS_BUSY = true) (v : Nat) :
    s.writeNvsCmd v = s.on fun d => d.nvsBusyRefused (nvsCmdRsv v) := by
  have hbusy : (if nvsCmdRsv v then s.on fun d => d.rsvWrite R.NVS_CMD else s).dev.bit F.NVS_CMD_STATUS_BUSY = true := by
    split
    · exact (Dev.bit_eq_of_reg_eq (s.dev.rsvWrite_nvsStatus R.NVS_CMD)).trans h
    · exact h
  calc s.writeNvsCmd v
    _ = (if nvsCmdRsv v then s.on fun d => d.rsvWrite R.NVS_CMD else s).on fun d => d.raise F.NVS_EVENT_CMD_ERR 0 clsContained := if_pos hbusy
    _ = s.on fun d => d.nvsBusyRefused (nvsCmdRsv v) := by
      cases nvsCmdRsv v <;> simp [Dev.nvsBusyRefused, State.on]

/-! ## The three instructions that write NVS_CMD -/

theorem exec_nvsAppend (t : Tag) (v : Word) (s : State) : exec (.nvsAppend t v) s = execNvsAppend t v s := rfl

theorem exec_nvsRead (t : Tag) (v : Word) (s : State) : exec (.nvsRead t v) s = execNvsRead t v s := rfl

/-- Of the firmware, a write of NVS_CMD with its OP forced is a write of the word with that OP. -/
theorem State.nvsCmdAs_fw (s : State) (op : Nat) (v : Word) : s.nvsCmdAs fwTag op v = s.writeNvsCmd (v.toNat % 2 ^ 60 + op * 2 ^ 60) := by
  rw [State.nvsCmdAs, State.fwElse, if_pos (show fwTag.toNat = 0xFFFF from rfl)]

/-- NVS_CMD has a row of its own, which no select register moves. -/
theorem Dev.regAt_NVS_CMD (d : Dev) : (d.regAt R.NVS_CMD).isSome = true := rfl

theorem State.writeBlock_NVS_CMD (s : State) (v : Nat) : s.writeBlock R.NVS_CMD v = s.writeNvsCmd v := rfl

theorem exec_registerWrite_NVS_CMD {s : State} (hl : s.live = true) {off : BitVec 24} (hoff : off.toNat = R.NVS_CMD) (v : Word) :
    exec (.registerWrite fwTag off 8 v) s = .next (s.writeNvsCmd v.toNat) := by
  rw [exec_registerWrite_fw hl (by rw [hoff]; rfl) (by rw [hoff]; exact s.dev.regAt_NVS_CMD), hoff, State.writeBlock_NVS_CMD]

/-- Each of the three instructions that can write NVS_CMD comes to a write of some command word. -/
theorem exec_writes_NVS_CMD {s : State} (hl : s.live = true) {off : BitVec 24} (hoff : off.toNat = R.NVS_CMD) {v : Word} {i : Instr}
    (hi : i = .nvsAppend fwTag v ∨ i = .nvsRead fwTag v ∨ i = .registerWrite fwTag off 8 v) :
    ∃ w, exec i s = .next (s.writeNvsCmd w) := by
  rcases hi with rfl | rfl | rfl
  · exact ⟨_, by rw [exec_nvsAppend, execNvsAppend, actS_live hl, State.nvsCmdAs_fw]⟩
  · exact ⟨_, by rw [exec_nvsRead, execNvsRead, actS_live hl, State.nvsCmdAs_fw]⟩
  · exact ⟨_, exec_registerWrite_NVS_CMD hl hoff v⟩

end Sys2Proof.Machine

namespace Sys2Proof.Claims

open Sys2Proof.Machine

/-- Settles O60: each instruction comes to a write of NVS_CMD, and all that such a write does while BUSY = 1 is to record its refusal. -/
theorem oneNvsCommandAtATime : Obligations.OneNvsCommandAtATime := by
  intro s off v hl hbusy hoff i hi
  obtain ⟨w, hexec⟩ := exec_writes_NVS_CMD hl hoff hi
  have hstatus := s.dev.nvsBusyRefused_nvsStatus (nvsCmdRsv w)
  refine ⟨s.dev.nvsBusyRefused (nvsCmdRsv w), ?_, Dev.nvsBusyRefused_nvs _ _, ?_, ?_, Dev.nvsBusyRefused_bit _ _, Dev.nvsBusyRefused_mem _ _⟩
  · rw [hexec, State.writeNvsCmd_busy hbusy, State.on]
  · exact congrArg F.NVS_CMD_STATUS_RESULT.of hstatus
  · exact (Dev.bit_eq_of_reg_eq hstatus).trans hbusy

end Sys2Proof.Claims
end

section
/-! The reset values of Table 2 (R452): its rows name disjoint sets of registers, and a register's reset value is that of the row that names it. -/

namespace Sys2Proof.Machine

/-- A single register as a row of the map. -/
theorem isInst_one (k base : Nat) : isInst k base 1 1 = (k == base) := by
  rw [Bool.eq_iff_iff]
  simp only [isInst, Nat.mod_one, Nat.div_one, beq_self_eq_true, Bool.and_true, Bool.and_eq_true, decide_eq_true_eq, beq_iff_eq]
  omega

theorem isInst_iff {stride : Nat} (hs : 0 < stride) (k base count : Nat) :
    isInst k base stride count = true ↔ ∃ i < count, k = base + i * stride := by
  simp only [isInst, Bool.and_eq_true, decide_eq_true_eq, beq_iff_eq]
  constructor
  · rintro ⟨⟨hbase, hmod⟩, hcount⟩
    have hdiv : (k - base) / stride * stride = k - base := Nat.div_mul_cancel (Nat.dvd_of_mod_eq_zero hmod)
    exact ⟨_, hcount, by omega⟩
  · rintro ⟨i, hi, rfl⟩
    rw [Nat.add_sub_cancel_left, Nat.mul_mod_left, Nat.mul_div_cancel _ hs]
    exact ⟨⟨Nat.le_add_right _ _, rfl⟩, hi⟩

/-- At reset no register is listed, so each reads as its reset value. -/
theorem reset_reg (k : Nat) : State.reset.dev.reg k = resetWord k := rfl

end Sys2Proof.Machine

namespace Sys2Proof.Claims

open Sys2Proof.Machine

/-! ## Lists of rows -/

/-- A row of a reset table: the key, the distance and number of its instances, and their reset value. -/
abbrev ResetRow := Nat × Nat × Nat × Word

/-- The value of the first row that names a key; 0 when none does. -/
def firstWord : List ResetRow → Nat → Word
  | [], _ => 0
  | (base, stride, count, w) :: rows, k => if isInst k base stride count then w else firstWord rows k

/-- Two rows whose instances lie one row after the other, or interleave without meeting. -/
abbrev Apart (r q : ResetRow) : Prop :=
  (r.1 + r.2.2.1 * r.2.1 < q.1 + r.2.1 ∨ q.1 + q.2.2.1 * q.2.1 < r.1 + q.2.1) ∨ (r.2.1 = q.2.1 ∧ r.1 % r.2.1 ≠ q.1 % q.2.1)

theorem covers_iff_isInst {r : ResetRow} (hs : 0 < r.2.1) (k : Nat) : covers k r ↔ isInst k r.1 r.2.1 r.2.2.1 = true :=
  (isInst_iff hs k r.1 r.2.2.1).symm

/-- A register lies between the first and the last of its row. -/
theorem span_of_covers {k : Nat} {r : ResetRow} (h : covers k r) : r.1 ≤ k ∧ k + r.2.1 ≤ r.1 + r.2.2.1 * r.2.1 := by
  obtain ⟨i, hi, rfl⟩ := h
  have hlast : (i + 1) * r.2.1 ≤ r.2.2.1 * r.2.1 := Nat.mul_le_mul_right _ hi
  rw [Nat.succ_mul] at hlast
  exact ⟨Nat.le_add_right _ _, by omega⟩

/-- A register has the remainder that the first of its row has. -/
theorem mod_of_covers {k : Nat} {r : ResetRow} (h : covers k r) : k % r.2.1 = r.1 % r.2.1 := by
  obtain ⟨i, -, rfl⟩ := h
  exact Nat.add_mul_mod_self_right _ _ _

/-- Rows that are apart name no register in common. -/
theorem Apart.not_covers {k : Nat} {r q : ResetRow} (h : Apart r q) (hk : covers k r) : ¬ covers k q := by
  intro hk'
  obtain ⟨hlo, hhi⟩ := span_of_covers hk
  obtain ⟨hlo', hhi'⟩ := span_of_covers hk'
  rcases h with (before | after) | ⟨hstride, hmod⟩
  · omega
  · omega
  · exact hmod (by rw [← mod_of_covers hk, ← mod_of_covers hk', hstride])

theorem firstWord_eq_zero {rows : List ResetRow} (hs : ∀ r ∈ rows, 0 < r.2.1) {k : Nat} (h : ∀ r ∈ rows, ¬ covers k r) : firstWord rows k = 0 := by
  induction rows with
  | nil => rfl
  | cons q rows ih =>
    rw [List.forall_mem_cons] at hs h
    rw [firstWord, if_neg (mt (covers_iff_isInst hs.1 k).mpr h.1), ih hs.2 h.2]

/-- Among rows that are pairwise apart the first that names a register is the only one, so their order does not matter. -/
theorem firstWord_eq_of_covers {rows : List ResetRow} (hs : ∀ r ∈ rows, 0 < r.2.1) (hap : rows.Pairwise Apart) {k : Nat} {r : ResetRow}
    (hr : r ∈ rows) (h : covers k r) : firstWord rows k = r.2.2.2 := by
  induction rows with
  | nil => cases hr
  | cons q rows ih =>
    rw [List.forall_mem_cons] at hs
    rw [List.pairwise_cons] at hap
    rcases List.mem_cons.mp hr with rfl | hr
    · rw [firstWord, if_pos ((covers_iff_isInst hs.1 k).mp h)]
    · have hq : ¬ covers k q := fun hq => (hap.1 r hr).not_covers hq h
      rw [firstWord, if_neg (mt (covers_iff_isInst hs.1 k).mpr hq), ih hs.2 hap.2 hr]

/-! ## The rows of Table 2 -/

/-- A row of a single register. -/
def lone (r : ResetRow) : Bool := r.2.2.1 == 1

/-- The rows of Table 2 in the order in which the model asks for them: those of a single register first. -/
def orderedRows : List ResetRow := resetTable.filter lone ++ resetTable.filter fun r => !lone r

theorem mem_orderedRows (r : ResetRow) : r ∈ orderedRows ↔ r ∈ resetTable := (List.filter_append_perm lone resetTable).mem_iff

theorem orderedRows_stride_pos : ∀ r ∈ orderedRows, 0 < r.2.1 := by decide

/-- No two rows of Table 2 name the same register. -/
theorem orderedRows_apart : orderedRows.Pairwise Apart := by decide

/-- A register's reset value in the model is that of the row of Table 2 that names it. -/
theorem resetWord_eq_firstWord (k : Nat) : resetWord k = firstWord orderedRows k := by
  -- Once each single register is written as a row of its own, the model's tests are the rows' one by one.
  simp only [resetWord, ← isInst_one]
  rfl

/-- Settles O50: the model's reset value is that of the one row that names the register, and 0 where no row does. -/
theorem resetRegisters : Obligations.ResetRegisters := by
  refine ⟨fun r hr k hk => ?_, fun k hk => ?_⟩
  · rw [reset_reg, resetWord_eq_firstWord]
    exact firstWord_eq_of_covers orderedRows_stride_pos orderedRows_apart ((mem_orderedRows r).mpr hr) hk
  · rw [reset_reg, resetWord_eq_firstWord]
    exact firstWord_eq_zero orderedRows_stride_pos fun r hr => hk r ((mem_orderedRows r).mp hr)

end Sys2Proof.Claims
end
